-- ==== Sys2Proof/Word.lean ====
section
/-! DEFINITION. The words, byte strings and operand records of the Burvaore BV2 (rule numbers R<n> are those of the
spec): plain data types with no machine behaviour. -/

set_option Elab.async false

namespace Sys2Proof

/-- One byte. -/
abbrev Byte := BitVec 8
/-- One 32-bit office register, vector lane or scalar (R95, R414). -/
abbrev Word := BitVec 32
/-- One 64-bit register or instruction word. -/
abbrev DWord := BitVec 64
/-- A string of bytes, lowest address first (R12). -/
abbrev Bytes := List Byte

/-- A sparse store: keys strictly rising, no entry equal to what an unlisted key reads as. -/
abbrev Bank (α : Type) := List (Nat × α)

/-- Where a timetabled instruction issues: the physical tile index 625·f + 25·s + t (R130) and the cycle offset the
timetable gives it in its period (R147, R184). -/
structure Issue where
  tile : Nat
  cyc  : Nat
  deriving DecidableEq, Repr, Inhabited

/-- The fields common to every vector instruction but VX.CTL (R97); `g` is the group-specific bits [20:0]. -/
structure VArgs where
  vd    : BitVec 5
  va    : BitVec 5
  vb    : BitVec 5
  bmode : BitVec 2
  cnt   : BitVec 5
  mask  : BitVec 3
  l0    : BitVec 6
  g     : BitVec 21
  deriving DecidableEq, Repr, Inhabited

/-- Fields of MX.LDW (R72): weight format, block address in 64 B units, byte address of the sidecar codes. -/
structure LdwArgs where
  fmt  : BitVec 4
  blk  : BitVec 16
  side : BitVec 22
  deriving DecidableEq, Repr, Inhabited

/-- Fields of MX.RUN (R72) but its tally bit, which the command's row fixes. -/
structure RunArgs where
  fmt   : BitVec 4
  grp   : Bool
  start : Bool
  swap  : Bool
  rows  : BitVec 6
  src   : BitVec 2
  addr  : BitVec 20
  side  : BitVec 20
  deriving DecidableEq, Repr, Inhabited

/-- Fields of MX.OUT (R72). -/
structure OutArgs where
  fmt  : BitVec 4
  grp  : Bool
  fold : Bool
  rows : BitVec 6
  c    : BitVec 8
  dst  : BitVec 2
  addr : BitVec 20
  q    : BitVec 2
  wide : Bool
  deriving DecidableEq, Repr, Inhabited

/-- Fields of MX.SIDE (R72) but its operation, which the row fixes. -/
structure SideArgs where
  grp  : Bool
  len  : BitVec 6
  addr : BitVec 20
  deriving DecidableEq, Repr, Inhabited

/-- Fields of MX.PSEND and MX.PADD (R72); `start` is MX.PADD's alone. -/
structure PartialArgs where
  grp    : Bool
  start  : Bool
  rows   : BitVec 6
  stream : BitVec 4
  deriving DecidableEq, Repr, Inhabited

/-- Fields of MM.MOVE (R132); `clear` is TFOLD's alone. -/
structure MoveArgs where
  clear : Bool
  cnt   : BitVec 8
  shelf : BitVec 16
  desk  : BitVec 14
  deriving DecidableEq, Repr, Inhabited

/-- Fields of MM.SREQ (R132); `shelf` is its local-space bit [55]. -/
structure SreqArgs where
  shelf : Bool
  laddr : BitVec 16
  saddr : BitVec 31
  lines : BitVec 6
  ctr   : BitVec 2
  deriving DecidableEq, Repr, Inhabited

/-- Fields of MM.WAIT (R132). -/
structure WaitArgs where
  ctr     : BitVec 2
  consume : Bool
  n       : BitVec 16
  deriving DecidableEq, Repr, Inhabited

/-- Fields of MM.ASTASH (R132). -/
structure StashArgs where
  shelf : Bool
  recNo : BitVec 12
  lines : BitVec 8
  laddr : BitVec 16
  deriving DecidableEq, Repr, Inhabited

/-- Fields of the edition instructions (R217). -/
structure EdArgs where
  region : BitVec 6
  slot   : BitVec 5
  desk   : BitVec 14
  deriving DecidableEq, Repr, Inhabited

/-- Fields of MM.TXFER (R241). -/
structure TxArgs where
  flits  : BitVec 8
  desk   : BitVec 14
  stream : BitVec 4
  empty  : Bool
  deriving DecidableEq, Repr, Inhabited

/-- A frame of a near or far port (R151, R191): the fields of its 16-byte token header and its payload. -/
structure Frame where
  digest  : BitVec 32
  period  : BitVec 48
  kind    : BitVec 3
  queue   : BitVec 13
  seq     : BitVec 16
  attempt : BitVec 8
  seat    : BitVec 5
  payload : Bytes
  deriving DecidableEq, Repr, Inhabited

/-- One block of a port direction (R190): TYPE, SEQ, MAPGEN and the 640-byte body. -/
structure Block where
  type   : BitVec 2
  seq    : BitVec 12
  mapgen : BitVec 2
  body   : Bytes
  deriving DecidableEq, Repr, Inhabited

/-- What the permute frames of other parts bring to one place (R251): the port they come on, the destination's memory, coded as
in R249, its grid tile, its address, and the bytes. -/
structure Arrival where
  port : Nat
  mem  : Nat
  row  : Nat
  col  : Nat
  addr : Nat
  data : Bytes
  deriving DecidableEq, Repr, Inhabited

/-- Who makes a register access or sends a command, coded as ISSUER of OFFICE_ACCERR (R420). -/
inductive Issuer where
  | hostA | hostB | mgmt | principal | monitor
  deriving DecidableEq, Repr, Inhabited

/-- Who reads and how much of it (R414): an issuer, the number of a monitor (0 to 3 the field monitors, 4 link, 5 power), and the byte
enables of the word at the address (3 to 0) and of the next one (7 to 4). -/
structure Reader where
  who     : Issuer
  field   : Nat
  enables : BitVec 8
  deriving DecidableEq, Repr, Inhabited

/-- A 64-byte command packet (R296) as the part takes it, with the ring it came from: `ring` is 0 to 255 for a host; for management it
says on which path the packet of ring 8064 came: 0 a message on I3C (R417), else a datagram of the management Ethernet (R406).
`data` is what the bus addresses the packet names hold when the part reads them; none
when that read fails. -/
structure Packet where
  issuer : Issuer
  ring   : Nat
  opcode : BitVec 16
  flags  : BitVec 16
  seq    : BitVec 16
  plen   : BitVec 16
  params : Bytes
  data   : Option Bytes
  deriving DecidableEq, Repr, Inhabited

/-- A 64-byte DMA descriptor (R314). -/
structure Descriptor where
  b0      : Byte
  flags   : Byte
  srcsp   : Byte
  dstsp   : Byte
  length  : BitVec 32
  count   : BitVec 16
  zero16  : BitVec 16
  tag     : BitVec 32
  src     : BitVec 64
  dst     : BitVec 64
  sstride : BitVec 32
  dstride : BitVec 32
  next    : BitVec 64
  zero128 : BitVec 128
  deriving DecidableEq, Repr, Inhabited

/-- What a channel meets when it runs the descriptor at DMA_CHCUR: the descriptor its fetch delivers (none: the fetch
fails), and the host-space bytes its reads deliver in transfer order (none: the host transaction fails after
`hostOk` bytes). -/
structure DmaEnv where
  desc   : Option Descriptor
  host   : Bytes
  hostOk : Option Nat
  deriving DecidableEq, Repr, Inhabited

end Sys2Proof
end

