-- ==== Sys2Proof/Syntax.lean ====
section
/-! DEFINITION. The commands of the BV2: one constructor per row of the opcode table (R95's file, *What each step
holds*), in the table's order. A command's operands are what its rule lets the sender, the timetable or the outside
world choose. -/

set_option Elab.async false

namespace Sys2Proof

/-- How a block came off a link: whether it decoded, and the lane that held most of its symbol errors (R193, R195). -/
structure Reception where
  ok   : Bool
  lane : Nat
  deriving DecidableEq, Repr

/-- The end at which a pigeonhole message frame is seen: the port, and whether this part's principal is its sender (R306). -/
structure MessageEnd where
  own  : Bool
  port : Nat
  deriving DecidableEq, Repr

/-- One command or event of the part. Tile instructions carry their issue point and word fields; packet commands carry
the packet; frame events the port and the frame; sensor and test events what was measured. -/
inductive Instr where
  -- the matrix array (R72 to R93, R238, R239)
  | mxLdw (at_ : Issue) (a : LdwArgs)
  | mxLdwCrossRead (at_ : Issue) (a : LdwArgs)
  | mxRun (at_ : Issue) (a : RunArgs)
  | crossReadRun (at_ : Issue) (a : RunArgs)
  | tallyRun (at_ : Issue) (a : RunArgs)
  | mxOut (at_ : Issue) (a : OutArgs)
  | mxSideStore (at_ : Issue) (a : SideArgs)
  | mxSideSend (at_ : Issue) (a : SideArgs)
  | mxSideFoldDesk (at_ : Issue) (a : SideArgs)
  | mxSideFoldStream (at_ : Issue) (a : SideArgs)
  | mxPsend (at_ : Issue) (a : PartialArgs)
  | mxPadd (at_ : Issue) (a : PartialArgs)
  -- the vector engine (R95 to R115, R428)
  | add (at_ : Issue) (a : VArgs)
  | sub (at_ : Issue) (a : VArgs)
  | mul (at_ : Issue) (a : VArgs)
  | fma (at_ : Issue) (a : VArgs)
  | fnma (at_ : Issue) (a : VArgs)
  | min (at_ : Issue) (a : VArgs)
  | max (at_ : Issue) (a : VArgs)
  | abs (at_ : Issue) (a : VArgs)
  | neg (at_ : Issue) (a : VArgs)
  | div (at_ : Issue) (a : VArgs)
  | eq (at_ : Issue) (a : VArgs)
  | ne (at_ : Issue) (a : VArgs)
  | lt (at_ : Issue) (a : VArgs)
  | le (at_ : Issue) (a : VArgs)
  | sel (at_ : Issue) (a : VArgs)
  | iadd (at_ : Issue) (a : VArgs)
  | isub (at_ : Issue) (a : VArgs)
  | and (at_ : Issue) (a : VArgs)
  | or (at_ : Issue) (a : VArgs)
  | xor (at_ : Issue) (a : VArgs)
  | shl (at_ : Issue) (a : VArgs)
  | shr (at_ : Issue) (a : VArgs)
  | iota (at_ : Issue) (a : VArgs)
  | fround (at_ : Issue) (a : VArgs)
  | f2i (at_ : Issue) (a : VArgs)
  | i2f (at_ : Issue) (a : VArgs)
  | srnd (at_ : Issue) (a : VArgs)
  | mxq (at_ : Issue) (a : VArgs)
  | exp (at_ : Issue) (a : VArgs)
  | exp2 (at_ : Issue) (a : VArgs)
  | log (at_ : Issue) (a : VArgs)
  | log2 (at_ : Issue) (a : VArgs)
  | rcp (at_ : Issue) (a : VArgs)
  | sqrt (at_ : Issue) (a : VArgs)
  | rsqrt (at_ : Issue) (a : VArgs)
  | tanh (at_ : Issue) (a : VArgs)
  | sigm (at_ : Issue) (a : VArgs)
  | erf (at_ : Issue) (a : VArgs)
  | sin (at_ : Issue) (a : VArgs)
  | cos (at_ : Issue) (a : VArgs)
  | mov (at_ : Issue) (a : VArgs)
  | perm (at_ : Issue) (a : VArgs)
  | bcast (at_ : Issue) (a : VArgs)
  | sget (at_ : Issue) (a : VArgs)
  | sput (at_ : Issue) (a : VArgs)
  | emax (at_ : Issue) (a : VArgs)
  | emaxl (at_ : Issue) (a : VArgs)
  | gadd (at_ : Issue) (a : VArgs)
  | gsq (at_ : Issue) (a : VArgs)
  | gdot (at_ : Issue) (a : VArgs)
  | gfold (at_ : Issue) (a : VArgs)
  | grnd (at_ : Issue) (a : VArgs)
  | gout (at_ : Issue) (a : VArgs)
  | gin (at_ : Issue) (a : VArgs)
  | fsum (at_ : Issue) (a : VArgs)
  | fsumsq (at_ : Issue) (a : VArgs)
  | fdot (at_ : Issue) (a : VArgs)
  | vxLdDesk (at_ : Issue) (a : VArgs)
  | vxLdStream (at_ : Issue) (a : VArgs)
  | vxStDesk (at_ : Issue) (a : VArgs)
  | vxStStream (at_ : Issue) (a : VArgs)
  | vxSideStore (at_ : Issue) (a : VArgs)
  | vxSideSend (at_ : Issue) (a : VArgs)
  | vxSideFoldDesk (at_ : Issue) (a : VArgs)
  | vxSideFoldStream (at_ : Issue) (a : VArgs)
  | tadd (at_ : Issue) (a : VArgs)
  | tcvt (at_ : Issue) (a : VArgs)
  | setvl (at_ : Issue) (s : BitVec 4) (imm : BitVec 32)
  | simm (at_ : Issue) (s : BitVec 4) (imm : BitVec 32)
  -- memory, edition and transfer instructions (R132 to R139, R217 to R219, R241, R242)
  | mmCopyToShelf (at_ : Issue) (a : MoveArgs)
  | mmCopyToDesk (at_ : Issue) (a : MoveArgs)
  | tfold (at_ : Issue) (a : MoveArgs)
  | mmSreqRead (at_ : Issue) (a : SreqArgs)
  | mmSreqWrite (at_ : Issue) (a : SreqArgs)
  | mmWait (at_ : Issue) (a : WaitArgs)
  | aput (at_ : Issue) (a : StashArgs)
  | aget (at_ : Issue) (a : StashArgs)
  | edTake (at_ : Issue) (a : EdArgs)
  | edTakeWait (at_ : Issue) (a : EdArgs)
  | edDrop (at_ : Issue) (a : EdArgs)
  | edOpen (at_ : Issue) (a : EdArgs)
  | edSeal (at_ : Issue) (a : EdArgs)
  | edSet (at_ : Issue) (a : EdArgs)
  | tsend (at_ : Issue) (a : TxArgs)
  | trecv (at_ : Issue) (a : TxArgs)
  -- time and tokens inside the part (R147 to R158, R168, R172, R424)
  | stallResume (tile : Nat) (cycles : Nat)
  | stashRequestComplete (tile : Nat)
  | meshFlitArrival (tile : Nat) (stream : Nat)
  | meshCreditReturn (toPort : Bool) (sender : Nat) (stream : Nat)
  | bell (p : Bool) (lastTile : Nat) (doneCyc : Nat) (energy : Nat) (power : Nat)
  | holdoverQuantumEnd (p : Bool)
  | holdoverLimit (p : Bool)
  | recessStart (p : Bool)
  -- frames, marks and recall (R152, R192, R257, R265 to R268)
  | dataFrameReceived (port : Nat) (f : Frame)
  | creditFrameReceived (port : Nat) (f : Frame)
  | markFrameReceived (port : Nat) (f : Frame)
  | recallNotice (port : Nat) (f : Frame)
  | agreementTimeout (p : Bool)
  | rebuildComplete (p : Bool)
  | hello (port : Nat) (f : Frame)
  | verdict (port : Nat) (f : Frame)
  | pigeonholeMessageFrame (e : MessageEnd) (f : Frame)
  | pigeonholeReplyFrame (port : Nat) (f : Frame)
  | peerReplyTimeout (tag : BitVec 16)
  -- the link layer (R189 to R212)
  | blockReceived (port : Nat) (r : Reception) (b : Block)
  | nak (port : Nat) (seq : BitVec 12)
  | probe (port : Nat) (stamp : BitVec 32)
  | echo (port : Nat) (roundTrip : Nat) (turnaround : Nat)
  | linkSilenceTimeout (port : Nat)
  | frameSlot (port : Nat) (quantum : Nat) (slot : Nat)
  | laneFailure (port : Nat) (lane : Nat)
  | laneCeWindow (port : Nat) (counts : List Nat)
  | laneSwitchRequest (port : Nat) (lane : Nat)
  | laneSwitchComplete (port : Nat)
  | rollCallTrainTimeout (port : Nat)
  | rollCallComplete
  | relayProbeComplete (port : Nat) (measured : Nat)
  | mirrorStreamComplete (p : Bool)
  | mirrorRefillComplete (p : Bool)
  | scrubLine (tile : Nat) (deskLine : Nat) (shelfLine : Nat)
  | stashScrub (line : Nat)
  -- command packets and the events that end them (R293 to R303 and the chapters they name)
  | identify (k : Packet)
  | partState (k : Packet)
  | resetPartition (k : Packet)
  | clearRetained (k : Packet)
  | assignPartitions (k : Packet)
  | eraserPass (k : Packet)
  | eraserPassComplete (p : Bool) (badLine : Option (Nat × Nat × BitVec 64))
  | loadCampusPlan (k : Packet)
  | rollCall (k : Packet)
  | substitute (k : Packet)
  | shutdown (k : Packet)
  | powerLimit (k : Packet)
  | lessonLoad (k : Packet)
  | lessonLoadComplete (p : Bool)
  | lessonStart (k : Packet)
  | lessonHalt (k : Packet)
  | lessonUnload (k : Packet)
  | reshard (k : Packet)
  | reshardComplete (p : Bool) (ok : Bool) (arrived : List Arrival)
  | weightLoad (k : Packet)
  | rdmaReadResponse (p : Bool) (entry : Nat) (leaf : Nat) (data : Bytes)
  | weightLoadComplete (p : Bool) (nodes : List Bytes)
  | waveRegionCopyComplete (p : Bool) (tile : Nat) (region : Nat) (ok : Bool)
  | editionSwitch (k : Packet)
  | editionStatus (k : Packet)
  | setScalar (k : Packet)
  | mgmtRecall (k : Packet)
  | resume (k : Packet)
  | preempt (k : Packet)
  | preemptSaveComplete (p : Bool)
  | resumePartition (k : Packet)
  | readRing (k : Packet)
  | readSensors (k : Packet)
  | reportCard (k : Packet)
  | debugChallenge (k : Packet)
  | debugUnlock (k : Packet)
  | ownerKeyBurn (k : Packet)
  | fwWrite (k : Packet)
  | fwWriteComplete (readback : Bool)
  | fwActivate (k : Packet)
  | fwActivateWithdraw
  | fwPauseComplete
  | fwConfirm
  | trialTimeout
  | fwStatus (k : Packet)
  | testTile (k : Packet)
  | testResults (k : Packet)
  | tileTestDue (tile : Nat)
  | tileTestComplete (tile : Nat) (pass : Bool) (expected seen : BitVec 64)
  | testOverdue (tile : Nat) (hours : Nat)
  | commandTimeout (id : Nat)
  -- SPDM requests (R357, R358)
  | getVersion (who : Issuer) (req : Bytes)
  | getCapabilities (who : Issuer) (req : Bytes)
  | negotiateAlgorithms (who : Issuer) (req : Bytes)
  | getDigests (who : Issuer) (req : Bytes)
  | getCertificate (who : Issuer) (req : Bytes)
  | challenge (who : Issuer) (req : Bytes)
  | getMeasurements (who : Issuer) (req : Bytes)
  -- register accesses (R15 to R18, R304, R311, R414 to R419)
  | cmdDoorbell (who : Issuer) (h : Bool) (v : Word)
  | cmdCtail (who : Issuer) (h : Bool) (r : Nat) (v : Word)
  | cmdRhead (who : Issuer) (h : Bool) (r : Nat) (v : Word)
  | cmdRctl (who : Issuer) (h : Bool) (r : Nat) (v : Word)
  | commitWrite (who : Issuer) (addr : Nat) (v : Word)
  | powerLimitWrite (who : Issuer) (addr : Nat) (v : Word)
  | inject (who : Issuer) (tile : Nat) (v : Word)
  | latchedLowWordRead (r : Reader) (addr : Nat)
  | registerWrite (who : Issuer) (addr : Nat) (v : Word) (enables : BitVec 4)
  -- pigeonholes (R305 to R309)
  | claim (who : Issuer) (field : Nat) (n : Nat)
  | go (who : Issuer) (field : Nat) (n : Nat)
  | drop (who : Issuer) (field : Nat) (n : Nat)
  | take (who : Issuer) (field : Nat) (n : Nat)
  | pigeonholeTimeout (n : Nat)
  -- the DMA engine (R312 to R325)
  | dmaChstart (who : Issuer) (c : Nat) (v : Word)
  | halt (who : Issuer) (c : Nat)
  | dmaCopy (c : Nat) (e : DmaEnv)
  | dmaFill (c : Nat) (e : DmaEnv)
  | dmaCompare (c : Nat) (e : DmaEnv)
  | dmaFence (c : Nat) (e : DmaEnv)
  | dmaDescriptorComplete (c : Nat)
  | dmaHostTimeout (c : Nat)
  -- management, pins, start-up and power (R373 to R408, R412, R417)
  | mgmtRegisterRead (payload : Bytes)
  | mgmtRegisterWrite (payload : Bytes)
  | storageConnectionRecord (body : Bytes)
  | ptpSync (time : BitVec 64)
  | pps
  | refclkLoss
  | perstAssert (h : Bool)
  | perstDeassert (h : Bool)
  | powerOn
  | pinReset (seat : BitVec 5) (testmode : BitVec 2)
  | resetRelease (copyA copyB early : Bool)
  | railsInRegulation (bad : BitVec 8)
  | monitorReady (m : Nat)
  | monitorReadyTimeout (m : Nat)
  | dawnTestComplete (outcomes : List (BitVec 2)) (unit : BitVec 24) (lanes : List (Nat × Nat)) (tiles : List Nat) (ms : Nat)
  | watchdogLapse (pc : BitVec 64) (count : BitVec 64)
  | inputUndervoltage
  | inputFault
  | railFault
  | powerStageFault (stage : Nat) (volts amps : BitVec 64)
  | sensorReport (place : Nat) (index : Nat) (reading : Nat)
  | powerInputWindow (vin pin : Nat)
  | hostTelemetryWindow (power0 power1 : Nat)
  | partitionRestoreComplete (p : Bool) (bad : Option Nat)
  | duskTestComplete (outcomes : List (BitVec 2)) (unit : BitVec 24) (lanes : List (Nat × Nat)) (tiles : List Nat)
  | storageConnectionFailure (conn : Nat)
  | internalResetRelease
  | portTrained (port : Nat) (lanes : BitVec 5)
  | registerReadAccerr (r : Reader) (addr : Nat)
  deriving DecidableEq, Repr

end Sys2Proof
end

