-- ==== Sys2Proof/Machine/Bank.lean ====
section
/-! DEFINITION. Sparse stores: reading, writing, ranges of bytes, and the canonical form. A store answers `d k` for a
key it does not list; a write keeps keys strictly rising and lists nothing equal to `d k`, so equal contents are equal
data. -/

set_option Elab.async false

namespace Sys2Proof.Machine

variable {α : Type}

/-- What the store holds at key `k`. -/
def Bank.get (d : Nat → α) : Bank α → Nat → α
  | [], k => d k
  | (a, v) :: m, k => if k = a then v else Bank.get d m k

/-- The store without an entry at key `k`. -/
def Bank.drop (m : Bank α) (k : Nat) : Bank α := m.filter fun e => e.1 != k

/-- The store with an entry put before the first greater key. -/
def Bank.put : Bank α → Nat → α → Bank α
  | [], k, v => [(k, v)]
  | (a, w) :: m, k, v => if k < a then (k, v) :: (a, w) :: m else (a, w) :: Bank.put m k v

/-- The store with `v` at key `k`. -/
def Bank.set [DecidableEq α] (d : Nat → α) (m : Bank α) (k : Nat) (v : α) : Bank α :=
  if v = d k then Bank.drop m k else Bank.put (Bank.drop m k) k v

/-- The canonical form: keys strictly rising, nothing listed that an unlisted key would read as. -/
abbrev Bank.wf [DecidableEq α] (d : Nat → α) (m : Bank α) : Prop :=
  m.Pairwise (fun x y => x.1 < y.1) ∧ ∀ e ∈ m, e.2 ≠ d e.1

/-- The store with keys lo to hi − 1 back at what they read as unlisted. -/
def Bank.clear (m : Bank α) (lo hi : Nat) : Bank α :=
  m.filter (fun e => !(decide (lo ≤ e.1) && decide (e.1 < hi)))

/-- The listed entries of keys lo to hi − 1, with their keys moved by hi-independent shift: key k becomes k − lo + to. -/
def Bank.slice (m : Bank α) (lo hi dst : Nat) : Bank α :=
  (m.filter (fun e => decide (lo ≤ e.1) && decide (e.1 < hi))).map (fun e => (e.1 - lo + dst, e.2))

/-- Writes every listed entry of `es`. -/
def Bank.setAll [DecidableEq α] (d : Nat → α) (m : Bank α) (es : List (Nat × α)) : Bank α :=
  es.foldl (fun acc e => Bank.set d acc e.1 e.2) m

/-- Copies n keys from lo of `src` to dst of `m`, unlisted keys included (`d` constant over both ranges). -/
def Bank.copy [DecidableEq α] (d : Nat → α) (m src : Bank α) (lo dst n : Nat) : Bank α :=
  Bank.setAll d (Bank.clear m dst (dst + n)) (Bank.slice src lo (lo + n) dst)

/-- The unlisted byte of every memory. -/
def zeroByte : Nat → Byte := fun _ => 0

/-- One byte of a memory. -/
abbrev Bank.byte (m : Bank Byte) (a : Nat) : Byte := Bank.get zeroByte m a

/-- `n` bytes from address `a`. -/
def Bank.bytes (m : Bank Byte) (a n : Nat) : Bytes :=
  (List.range n).map (fun i => Bank.byte m (a + i))

/-- Writes a byte string at address `a`. -/
def Bank.putBytes (m : Bank Byte) (a : Nat) : Bytes → Bank Byte
  | [] => m
  | b :: bs => Bank.putBytes (Bank.set zeroByte m a b) (a + 1) bs

/-- The number that a byte string spells, little-endian (R12). -/
def leNat : Bytes → Nat
  | [] => 0
  | b :: bs => b.toNat + 256 * leNat bs

/-- A number as `n` bytes, little-endian (R12). -/
def toLE : Nat → Nat → Bytes
  | 0, _ => []
  | n + 1, v => BitVec.ofNat 8 v :: toLE n (v / 256)

/-- The number in bytes o to o + n − 1 of a string; missing bytes read 0. -/
def field (b : Bytes) (o n : Nat) : Nat := leNat ((b.drop o).take n)

/-- The string cut or zero-filled to `n` bytes. -/
def padTo (n : Nat) (b : Bytes) : Bytes := (b ++ List.replicate (n - b.length) 0).take n

/-- Bits [hi:lo] of a number. -/
def bits (v hi lo : Nat) : Nat := (v / 2 ^ lo) % 2 ^ (hi + 1 - lo)

/-- Bit n of a number. -/
def bit (v n : Nat) : Bool := v.testBit n

/-- Field [hi:lo] of a word. -/
def fld (w : Word) (hi lo : Nat) : Nat := bits w.toNat hi lo

/-- The word with field [hi:lo] set to v (cut to the field's width). -/
def setFld (w : Word) (hi lo v : Nat) : Word :=
  let m := (2 ^ (hi + 1 - lo) - 1) * 2 ^ lo
  (w &&& ~~~(BitVec.ofNat 32 m)) ||| BitVec.ofNat 32 (v % 2 ^ (hi + 1 - lo) * 2 ^ lo)

/-- A Bool as a number. -/
def b2n (b : Bool) : Nat := if b then 1 else 0

/-- A count that stops at a maximum. -/
def satAdd (max a b : Nat) : Nat := Nat.min max (a + b)

/-- The two's-complement reading of the low `w` bits of `v`. -/
def signed (w v : Nat) : Int := if v % 2 ^ w < 2 ^ (w - 1) then (v % 2 ^ w : Nat) else ((v % 2 ^ w : Nat) : Int) - 2 ^ w

end Sys2Proof.Machine
end

