-- ==== Sys2Proof/Machine/Sha.lean ====
section
/-! DEFINITION. SHA-384 (FIPS 180-4), which R185, R263, R330, R364 and R378 name: its constants, rounds and padding. -/

set_option Elab.async false

namespace Sys2Proof.Machine

/-- The least factor of n above 1, tried from d on: FIPS 180-4 takes its constants from prime numbers. -/
def leastFactor (n : Nat) : Nat → Nat → Nat
  | 0, _ => n
  | fuel + 1, d => if n % d = 0 then d else leastFactor n fuel (d + 1)

/-- The primes below 410: there are 80. -/
def shaPrimes : List Nat := (List.range 410).filter fun n => 2 ≤ n ∧ leastFactor n n 2 = n

/-- The whole part of the root that a falling Newton iteration looks for: it stops where the next value is no less. -/
def fallTo (next : Nat → Nat) : Nat → Nat → Nat
  | 0, x => x
  | fuel + 1, x => let y := next x
    if y < x then fallTo next fuel y else x

/-- The first 64 bits of the fraction of the cube root of n, an n below 512. -/
def cubeRootBits (n : Nat) : DWord := BitVec.ofNat 64 (fallTo (fun x => (2 * x + n * 2 ^ 192 / (x * x)) / 3) 64 (2 ^ 67))

/-- The first 64 bits of the fraction of the square root of n, an n below 64. -/
def squareRootBits (n : Nat) : DWord := BitVec.ofNat 64 (fallTo (fun x => (x + n * 2 ^ 128 / x) / 2) 64 (2 ^ 67))

/-- The 80 round constants: the cube roots of the first 80 primes. -/
def shaK : List DWord := shaPrimes.map cubeRootBits

/-- The working words of a hash: FIPS 180-4's a to d are the last four values of one sequence, e to h of another; latest first. -/
structure ShaState where
  low : List DWord
  high : List DWord
  deriving DecidableEq, Repr

/-- Initial word i of SHA-384: the square root of the prime that follows the first eight and i more. -/
def shaWord (i : Nat) : DWord := squareRootBits (shaPrimes.getD (8 + i) 0)

/-- The initial value of SHA-384. -/
def shaInit : ShaState := { low := [0, 1, 2, 3].map shaWord, high := [4, 5, 6, 7].map shaWord }

/-- The exclusive or of a word turned right by each of the given numbers of bits. -/
def turned (x : DWord) (ns : List Nat) : DWord := ns.foldl (fun a n => a ^^^ x.rotateRight n) 0

/-- The word at a place of a list, 0 past its end. -/
def shaAt (l : List DWord) (i : Nat) : DWord := l.getD i 0

/-- The next schedule word from the sixteen before it, latest first. -/
def shaNext (w : List DWord) : DWord :=
  shaAt w 15 + shaAt w 6 + (turned (shaAt w 14) [1, 8] ^^^ shaAt w 14 >>> 7) + (turned (shaAt w 1) [19, 61] ^^^ shaAt w 1 >>> 6)

/-- The schedule of a block, latest word first, n words beyond the sixteen of the block. -/
def shaExtend : Nat → List DWord → List DWord
  | 0, w => w
  | n + 1, w => shaExtend n (shaNext w :: w)

/-- The bits of y where x is 1 and of z where it is 0. -/
def pickBits (x y z : DWord) : DWord := z ^^^ (x &&& (y ^^^ z))

/-- The bits that two of three words or more have. -/
def mostBits (x y z : DWord) : DWord := pickBits (x ^^^ y) z x

/-- One round, with the sum of its constant and its schedule word. -/
def shaRound (s : ShaState) (k : DWord) : ShaState :=
  let e := shaAt s.high 0
  let t := k + shaAt s.high 3 + pickBits e (shaAt s.high 1) (shaAt s.high 2) + turned e [14, 18, 41]
  let u := turned (shaAt s.low 0) [28, 34, 39] + mostBits (shaAt s.low 0) (shaAt s.low 1) (shaAt s.low 2)
  { low := (t + u) :: s.low.take 3, high := (shaAt s.low 3 + t) :: s.high.take 3 }

/-- One 128-byte block, as sixteen big-endian words. -/
def shaBlock (s : ShaState) (b : List DWord) : ShaState :=
  let r := (shaK.zipWith (· + ·) (shaExtend 64 b.reverse).reverse).foldl shaRound s
  { low := s.low.zipWith (· + ·) r.low, high := s.high.zipWith (· + ·) r.high }

/-- A big-endian number. -/
def beNat (b : Bytes) : Nat := b.foldl (fun a x => 256 * a + x.toNat) 0

/-- A number as n big-endian bytes. -/
def toBE (n v : Nat) : Bytes := (toLE n v).reverse

/-- The words of a message, 8 bytes each. -/
def shaWords (b : Bytes) (n : Nat) : List DWord := (List.range n).map fun i => BitVec.ofNat 64 (beNat ((b.drop (8 * i)).take 8))

/-- The padded message: bit 1, zeros, and the length in bits as 16 bytes. -/
def shaPad (b : Bytes) : Bytes :=
  let z := (111 + 128 - b.length % 128) % 128
  b ++ [0x80] ++ List.replicate z 0 ++ toBE 16 (8 * b.length)

/-- The blocks of a padded message. -/
def shaBlocks (b : Bytes) : Nat → ShaState → ShaState
  | 0, s => s
  | n + 1, s => shaBlocks (b.drop 128) n (shaBlock s (shaWords (b.take 128) 16))

/-- SHA-384 of a byte string: 48 bytes. -/
def sha384 (b : Bytes) : Bytes :=
  let p := shaPad b
  let s := shaBlocks p (p.length / 128) shaInit
  (s.low ++ s.high.take 2).flatMap fun x => toBE 8 x.toNat

end Sys2Proof.Machine
end

