-- ==== Sys2Proof/Config.lean ====
section
/-! DEFINITION. What the spec leaves open. An opaque constant is a free value: nothing in Lean can evaluate it, so every
statement holds whatever it is. A value drawn afresh takes the number of draws so far (`State.free`) as its argument. -/

set_option Elab.async false

namespace Sys2Proof

/-- Local temperature of an error record, 0.25 °C units: the place's sensor is not named (R276). -/
opaque Config.localTemp : Nat → BitVec 16
/-- Local rail voltage of an error record, mV (R276): no rule reports it to the command interface. -/
opaque Config.localVolts : Nat → BitVec 16
/-- ECC syndrome bits of a memory error (R277): the codes are not given. -/
opaque Config.eccSyndrome : Nat → BitVec 128
/-- How far into an MXFP4 block the E2M1 weight block at a shelf address begins, where no placement of the lesson's memory
plan holds it: MX.LDW does not carry the block's first K index (R69). -/
opaque Config.mxfp4Offset : Nat → BitVec 5
/-- The initial contents that section 0x0008 of a lesson gives, which the section's layout fixes and the spec does not
give (R180): grid row and column, desk (false) or shelf (true), byte address, byte. -/
opaque Config.initContents : Bytes → List (Nat × Nat × Bool × Nat × Byte)

/-- Whether a signature over a SHA-384 digest verifies under the Lumduog image key, whose digest the ROM holds (R354). -/
opaque Config.lumduogSig : Bytes → Bytes → Bool
/-- Whether a signature over a SHA-384 digest verifies under the owner key of a fused digest (R354, R356): the key's digest,
the digest signed, the signature. -/
opaque Config.ownerSig : Bytes → Bytes → Bytes → Bool
/-- Whether a signature over a SHA-384 digest verifies under the Lumduog debug key (R356). -/
opaque Config.debugSig : Bytes → Bytes → Bool
/-- The part's own signature with the key of its alias certificate (R357, R359), by draw and message. -/
opaque Config.cardSig : Nat → Bytes → Bytes
/-- The 32 bytes of a location entry as READ_RING copies it (R278, R302): the spec gives no layout. Its key, its times, its
count and its class. -/
opaque Config.locEntry : Bytes → List (BitVec 64) → Nat → Bool → Bytes
/-- The certificate chain of slot 0 (R357), for the serial number, the compound device identifier's inputs (the ROM
measurement with its scope byte, and the principal's measurement). -/
opaque Config.certChain : BitVec 128 → Bytes → Bytes → Bytes
/-- SHA-384 of the boot ROM (R358). -/
opaque Config.romDigest : Bytes
/-- SHA-384 of the retained settings (R358), of their contents: the spec gives them no byte layout. -/
opaque Config.settingsDigest : Bytes → Bytes
/-- A nonce of the part's random source (R356, R357). -/
opaque Config.nonce : Nat → BitVec 256
/-- The capability flags, timeout exponent and message sizes of a CAPABILITIES response (R357 gives none): bytes 4 to 19. -/
opaque Config.spdmCaps : Bytes
/-- A value of one byte of the measurement record that DSP0274 defines and the spec does not: the value type of block n. -/
opaque Config.measType : Nat → Byte

/-- The last tile-clock lock status in the record of a lost reference clock (R277): no rule gives its coding. -/
opaque Config.lockStatus : Nat → BitVec 128
/-- What a failed dawn or dusk item's record gives as expected and seen (R277): no rule gives their coding. -/
opaque Config.itemSeen : Nat → BitVec 128

/-- The body of an alignment marker block: the deskew pattern, which the spec does not give (R191). -/
opaque Config.deskewPattern : Bytes

/-- The tile-cycle stamp of a PROBE (R191): the part's free-running cycle count, which no rule fixes. -/
opaque Config.stamp : Nat → BitVec 32

/-- How many of the DMA buffer's lines are in use at a moment (R325): which of a descriptor's lines have come and gone is timing. -/
opaque Config.linesInUse : Nat → Nat

end Sys2Proof
end

