-- ==== Sys2Proof/Machine/Float.lean ====
section
/-! DEFINITION. The storage formats of R36 and R37, exact values, the exponent of a value (R39), rounding (R40, R42) and
sidecar codes (R46). -/

set_option Elab.async false

namespace Sys2Proof.Machine

/-- A floating-point storage format (R36). -/
inductive Fmt where
  | bf16 | e4m3 | e5m2 | e2m1 | fp32
  deriving DecidableEq, Repr

/-- The 4-bit format codes of R72; 5 to 15 are undefined. -/
def fmtOf : Nat → Option Fmt
  | 0 => some .bf16 | 1 => some .e4m3 | 2 => some .e5m2 | 3 => some .e2m1 | 4 => some .fp32 | _ => none

/-- Bits of one element. -/
def Fmt.width : Fmt → Nat
  | .bf16 => 16 | .e4m3 => 8 | .e5m2 => 8 | .e2m1 => 4 | .fp32 => 32

/-- Fraction bits. -/
def Fmt.frac : Fmt → Nat
  | .bf16 => 7 | .e4m3 => 3 | .e5m2 => 2 | .e2m1 => 1 | .fp32 => 23

/-- Exponent bias. -/
def Fmt.bias : Fmt → Nat
  | .bf16 => 127 | .e4m3 => 7 | .e5m2 => 15 | .e2m1 => 1 | .fp32 => 127

/-- The encoding, without sign, of the largest finite value. -/
def Fmt.maxCode : Fmt → Nat
  | .bf16 => 0x7F7F | .e4m3 => 0x7E | .e5m2 => 0x7B | .e2m1 => 0x7 | .fp32 => 0x7F7FFFFF

/-- What an overflow stores, without sign (R42): infinity, or the largest finite value where the format saturates. -/
def Fmt.ovfCode : Fmt → Nat
  | .bf16 => 0x7F80 | .e4m3 => 0x7E | .e5m2 => 0x7B | .e2m1 => 0x7 | .fp32 => 0x7F800000

/-- The canonical NaN; E2M1 has none (R36). -/
def Fmt.nanCode : Fmt → Nat
  | .bf16 => 0x7FC0 | .e4m3 => 0x7F | .e5m2 => 0x7E | .e2m1 => 0 | .fp32 => 0x7FC00000

/-- Bytes of one element of a byte-sized format. -/
def Fmt.bytes (f : Fmt) : Nat := f.width / 8

/-- An exact value: NaN, an infinity, or (−1)^neg · m · 2^e. -/
inductive FVal where
  | nan
  | inf (neg : Bool)
  | fin (neg : Bool) (m : Nat) (e : Int)
  deriving DecidableEq, Repr

/-- The exact value of an encoding (R36). -/
def Fmt.decode (f : Fmt) (v : Nat) : FVal :=
  let neg := bit v (f.width - 1)
  let mag := v % 2 ^ (f.width - 1)
  let ex := mag / 2 ^ f.frac
  let fr := mag % 2 ^ f.frac
  let low : Int := 1 - (f.bias : Int) - (f.frac : Int)
  let special := decide (f.maxCode < mag)
  if special then (if f = .e4m3 then .nan else if fr = 0 then .inf neg else .nan)
  else if ex = 0 then .fin neg fr low
  else .fin neg (fr + 2 ^ f.frac) (low + (ex : Int) - 1)

/-- Whether a value is a NaN or an infinity (R43). -/
def FVal.special : FVal → Bool
  | .fin _ _ _ => false
  | _ => true

/-- Whether a finite value is zero. -/
def FVal.zero : FVal → Bool
  | .fin _ m _ => decide (m = 0)
  | _ => false

/-- The sign of a value; a NaN has none. -/
def FVal.neg : FVal → Bool
  | .fin n _ _ => n
  | .inf n => n
  | .nan => false

/-- E(x) of a finite non-zero m · 2^e (R39). -/
def expOf (m : Nat) (e : Int) : Int := (Nat.log2 m : Int) + e

/-- The R46 code of one value: 0x00 zero, 0xFF NaN or infinity, 0x01 for E ≤ −126, else E + 127. An E above 127 has code
0xFF (R237). -/
def codeOf : FVal → Nat
  | .fin _ 0 _ => 0
  | .fin _ (m + 1) e =>
    let x := expOf (m + 1) e
    if x ≤ -126 then 1 else if 127 < x then 0xFF else (x + 127).toNat
  | _ => 0xFF

/-- The exponent that R46 assigns to a code from 0x01 to 0xFE. -/
def codeExp (c : Nat) : Int := if c = 1 then -126 else (c : Int) - 127

/-- m · 2^e, m > 0, rounded to a multiple of 2^q by RNE: the multiplier (R40). -/
def rneQ (m : Nat) (e q : Int) : Nat :=
  if q ≤ e then m * 2 ^ (e - q).toNat
  else
    let d := (q - e).toNat
    let k := m / 2 ^ d
    let r := m % 2 ^ d
    let half := 2 ^ (d - 1)
    if half < r ∨ (r = half ∧ k % 2 = 1) then k + 1 else k

/-- What rounding a value to a format gives: the encoding, whether it overflowed (R42), whether it is a canonical NaN made
from a NaN or an infinity (R43), and whether it is ±0 although the value is not. -/
structure Rounded where
  code  : Nat
  ovf   : Bool := false
  nan   : Bool := false
  under : Bool := false
  deriving DecidableEq, Repr

/-- (−1)^neg · m · 2^e rounded once to a format by RNE with subnormals kept (R40, R42, R44). -/
def Fmt.roundFin (f : Fmt) (neg : Bool) (m : Nat) (e : Int) : Rounded :=
  let sign := if neg then 2 ^ (f.width - 1) else 0
  if m = 0 then { code := sign }
  else
    let low : Int := 1 - (f.bias : Int) - (f.frac : Int)
    let top := expOf m e - (f.frac : Int)
    let q := if top < low then low else top
    let k := rneQ m e q
    let mag := (q - low).toNat * 2 ^ f.frac + k
    if f.maxCode < mag then { code := sign + f.ovfCode, ovf := true }
    else { code := sign + mag, under := decide (mag = 0) }

/-- A value rounded to a format; a NaN or an infinity gives the canonical NaN (R42, R43). -/
def Fmt.round (f : Fmt) : FVal → Rounded
  | .fin n m e => f.roundFin n m e
  | _ => { code := f.nanCode, nan := true }

/-- An exact integer S on unit 2^e rounded once to a format (R54): zero is +0, and a non-zero sum keeps its sign (R44). -/
def Fmt.roundInt (f : Fmt) (s : Int) (e : Int) : Rounded := f.roundFin (decide (s < 0)) s.natAbs e

/-- A word as an fp32 value. -/
def f32 (w : Word) : FVal := Fmt.fp32.decode w.toNat

/-- The canonical fp32 NaN. -/
def nan32 : Word := 0x7FC00000

/-- The signed significand and exponent of a finite value; none for a NaN or an infinity. -/
def FVal.opnd : FVal → Option (Int × Int)
  | .fin n m e => some (if n then -(m : Int) else m, e)
  | _ => none

/-- Scale of an MXFP4 scale code (R37): none for a NaN block. -/
def mxScale (c : Nat) : Option Int := if c ≤ 0xFC then some ((c : Int) - 127) else none

/-- The value of an E2M1 element under a scale code (R37). -/
def mxElem (nib scale : Nat) : FVal :=
  match mxScale scale, Fmt.e2m1.decode nib with
  | some x, .fin n m e => .fin n m (e + x)
  | _, _ => .nan

/-- A value with its exponent moved by an exact power of two. -/
def FVal.scale (x : FVal) (c : Int) : FVal :=
  match x with
  | .fin n m e => .fin n m (e + c)
  | y => y

/-- The scale code and element codes of an MXFP4 block made from 32 values, by the steps after R38. With scale code 0xFF the
elements are 0 (DESIGN CHOICE, log 124). -/
def mxBlock (vs : List FVal) : Nat × List Nat :=
  if vs.any FVal.special then (0xFF, vs.map fun _ => 0)
  else
    let m := vs.foldl (fun (acc : Option Int) v =>
      match v with
      | .fin _ 0 _ => acc
      | .fin _ (k + 1) e =>
        let x := expOf (k + 1) e
        match acc with
        | none => some x
        | some y => some (if y < x then x else y)
      | _ => acc) none
    match m with
    | none => (0, vs.map fun v => (Fmt.e2m1.round v).code)
    | some x =>
      let sx := if x - 2 < -127 then -127 else if 125 < x - 2 then 125 else x - 2
      ((sx + 127).toNat, vs.map fun v => (Fmt.e2m1.round (v.scale (-sx))).code)

/-- fp32 ADD, exact then rounded once (R40, R43, R44). Zero signs follow IEEE 754 under RNE. -/
def fAddExact (x y : FVal) : FVal :=
  match x, y with
  | .fin nx mx ex, .fin ny my ey =>
    let e := if ex < ey then ex else ey
    let a : Int := (if nx then -(mx : Int) else mx) * 2 ^ (ex - e).toNat
    let b : Int := (if ny then -(my : Int) else my) * 2 ^ (ey - e).toNat
    let s := a + b
    if s = 0 then .fin (nx && ny) 0 e else .fin (decide (s < 0)) s.natAbs e
  | _, _ => .nan

/-- The exact product of two finite values. -/
def fMulExact (x y : FVal) : FVal :=
  match x, y with
  | .fin nx mx ex, .fin ny my ey => .fin (nx != ny) (mx * my) (ex + ey)
  | _, _ => .nan

/-- The value with its sign changed. -/
def FVal.negate : FVal → FVal
  | .fin n m e => .fin (!n) m e
  | .inf n => .inf (!n)
  | .nan => .nan

/-- Whether x < y for finite values. -/
def fLt (x y : FVal) : Bool :=
  match x, y with
  | .fin nx mx ex, .fin ny my ey =>
    let e := if ex < ey then ex else ey
    let a : Int := (if nx then -(mx : Int) else mx) * 2 ^ (ex - e).toNat
    let b : Int := (if ny then -(my : Int) else my) * 2 ^ (ey - e).toNat
    decide (a < b)
  | .inf nx, .fin _ _ _ => nx
  | .fin _ _ _, .inf ny => !ny
  | .inf nx, .inf ny => nx && !ny
  | _, _ => false

/-- Whether x = y as values, −0 equal to +0 (R102). -/
def fEq (x y : FVal) : Bool :=
  match x, y with
  | .nan, _ => false
  | _, .nan => false
  | .inf a, .inf b => a == b
  | .fin _ _ _, .fin _ _ _ => !fLt x y && !fLt y x
  | _, _ => false

/-- MIN of two finite values; −0 lies below +0 (R102). -/
def fMin (x y : FVal) : FVal :=
  if x.special || y.special then .nan
  else if x.zero && y.zero then (if x.neg then x else y)
  else if fLt y x then y else x

/-- MAX of two finite values; −0 lies below +0 (R102). -/
def fMax (x y : FVal) : FVal :=
  if x.special || y.special then .nan
  else if x.zero && y.zero then (if x.neg then y else x)
  else if fLt x y then y else x

/-- n / d rounded toward zero with a sticky last bit, at least 40 significant bits: a value that rounds as the exact
quotient does. -/
def quotSticky (n d : Nat) : Nat × Int :=
  let k := 80 + Nat.log2 d
  let q := n * 2 ^ k / d
  (2 * q + (if n * 2 ^ k % d = 0 then 0 else 1), -(k : Int) - 1)

/-- The exact quotient of finite x and non-zero finite y, up to a sticky bit (R104). -/
def fDivExact (x y : FVal) : FVal :=
  match x, y with
  | .fin nx mx ex, .fin ny my ey =>
    if mx = 0 then .fin (nx != ny) 0 0
    else
      let q := quotSticky mx my
      .fin (nx != ny) q.1 (q.2 + ex - ey)
  | _, _ => .nan

/-- Integer square root by bits from `k` down: the largest r ≤ r0 + 2^(k+1) − 1 with r² ≤ n. -/
def isqrtFrom (n : Nat) : Nat → Nat → Nat
  | 0, r => if (r + 1) * (r + 1) ≤ n then r + 1 else r
  | k + 1, r => isqrtFrom n k (if (r + 2 ^ (k + 1)) * (r + 2 ^ (k + 1)) ≤ n then r + 2 ^ (k + 1) else r)

/-- The integer square root. -/
def isqrt (n : Nat) : Nat := isqrtFrom n (Nat.log2 n / 2 + 1) 0

/-- √(m · 2^e) with a sticky last bit: a value that rounds as the exact root does. -/
def sqrtSticky (m : Nat) (e : Int) : Nat × Int :=
  let sh : Nat := 80 + (if e % 2 = 0 then 0 else 1)
  let n := m * 2 ^ sh
  let r := isqrt n
  (2 * r + (if r * r = n then 0 else 1), (e - (sh : Int)) / 2 - 1)

/-- f(x) rounded to fp32 as a word. -/
def to32 (x : FVal) : Rounded := Fmt.fp32.round x

/-- A finite value rounded to an integer by RNE. -/
def rneInt (neg : Bool) (m : Nat) (e : Int) : Int :=
  let k := rneQ m e 0
  if neg then -(k : Int) else k

/-- An integer as an exact value. -/
def ofInt (i : Int) : FVal := .fin (decide (i < 0)) i.natAbs 0

end Sys2Proof.Machine
end

