-- ==== Sys2Proof/Machine/State.lean ====
section
/-! DEFINITION. The state of one BV2 part as plain data, and the part right after reset. Registers of the office space
live in one sparse store keyed by office address (R413, R421); what an unlisted address reads as is the register's
Reset entry (`Reg` of Machine/Regs.lean). Everything else a chapter gives the part has a field here. -/

set_option Elab.async false

namespace Sys2Proof.Machine

/-- Why a step stops with a fault. -/
inductive Fault where
  /-- Raised by every command that names a tile, port, channel, pigeonhole, ring, stage or partition the part does not
  have (R6, R9, R293, R305, R312). Safe: no such unit exists to act on. -/
  | noSuchUnit
  deriving DecidableEq, Repr

/-- Why a step gives no meaning. -/
inductive Refusal where
  /-- An arm of exec whose instruction has no meaning yet. -/
  | notModelled (mnemonic : String)
  /-- Raised by a tile instruction whose word the part rejects with code 0x0005 at lesson load (R72, R97, R132, R217):
  a lesson that holds it never starts, so the word never issues. Safe. -/
  | wordRejected
  /-- Raised by a matrix run whose operand formats are a pairing outside R65, which the array does not accept and for
  which the spec gives no result. Safe. -/
  | pairing
  deriving DecidableEq, Repr

/-! ### The tile -/

/-- What an element or grid lane has recorded with its sum: nothing since reset (R426), the anchor codes of R48, or a
tally grid entry with its G and k (R87, R91); an MX.PADD records G and k alone. -/
inductive Recorded where
  | none
  | anchor (ca cb : Byte)
  | grid (entry : Option (BitVec 4)) (g : Byte) (k : BitVec 6)
  deriving DecidableEq, Repr, Inhabited

/-- One output element of an accumulator group (R64): the 96-bit chunk accumulator, the 128-bit partial register, the
12-bit residue accumulator, the products in the open chunk (R52), the non-finite flag (R88, R425), the products
clamped since start = 1 and not yet counted (R52, R285) and what is recorded. -/
structure Elem where
  chunk  : BitVec 96 := 0
  total  : BitVec 128 := 0
  res    : BitVec 12 := 0
  terms  : Nat := 0
  nonfin : Bool := false
  clamps : Nat := 0
  rcd    : Recorded := .none
  deriving DecidableEq, Repr, Inhabited

/-- An accumulator group (R64): elements keyed 20·row + column, its kind (none; some true for tally, R426) and its
64-byte sidecar register. -/
structure Group where
  elems : Bank Elem := []
  kind  : Option Bool := none
  side  : Bank Byte := []
  deriving DecidableEq, Repr, Inhabited

/-- A weight block of the array (R64, R69, R83): whether an MX.LDW loaded it, its format, whether it came through the
cross-read port, its stored bytes, its sidecar codes, how far into an MXFP4 block its first K index lies, and how many of
its rows of K an E2M1 tensor has: the elements past them read +0 (R37). Bytes beyond the lists read 0. -/
structure WBlock where
  loaded : Bool := false
  fmt    : BitVec 4 := 0
  cross  : Bool := false
  data   : Bytes := []
  codes  : Bytes := []
  off    : BitVec 5 := 0
  depth  : Nat := 80
  deriving DecidableEq, Repr, Inhabited

/-- The row hold of R86: the rows' format and their bytes. -/
structure RowHold where
  fmt  : BitVec 4
  rows : List Bytes
  deriving DecidableEq, Repr, Inhabited

/-- The matrix array of a tile (R64, R86); `inject` is a pending TILE_MXINJ (R81). -/
structure MArray where
  active : WBlock := {}
  shadow : WBlock := {}
  grpA   : Group := {}
  grpB   : Group := {}
  hold   : Option RowHold := none
  inject : Bool := false
  deriving DecidableEq, Repr, Inhabited

/-- One lane of a grid register (R95): chunk accumulator, total, the two anchor codes, the chunk term count, whether
codes are recorded, and the non-finite flag of R425. -/
structure GLane where
  chunk  : BitVec 96 := 0
  total  : BitVec 128 := 0
  ca     : Byte := 0
  cb     : Byte := 0
  terms  : Nat := 0
  rcd    : Bool := false
  nonfin : Bool := false
  deriving DecidableEq, Repr, Inhabited

/-- The vector engine of a tile (R95): V registers keyed 64·register + lane, S0 to S15, M1 to M7, VL, grid registers
keyed 64·register + lane, sidecar registers keyed 64·register + lane. -/
structure Engine where
  v  : Bank Word := []
  s  : Bank Word := []
  m  : Bank DWord := []
  vl : BitVec 7 := 64
  q  : Bank GLane := []
  vs : Bank Byte := []
  deriving DecidableEq, Repr, Inhabited

/-- One 64-byte flit in a stream buffer or in flight (R148). `sender` names whose credit its reading returns: 16·tile +
stream for a tile's outbound stream, 2^20 + 192·port + queue index for a port gate (R424). -/
structure Flit where
  data   : Bytes
  sender : Nat
  deriving DecidableEq, Repr, Inhabited

/-- One request of a tile's decoupling queue (R131): a write or a read, its local space and byte address, the
partition-relative stash byte address of each of its lines after the window rule (R221), the token counter it raises if
any, the lines of a write, taken when it was enqueued (log 114), and for a request of an AGET (R133, R137) `fetch`: the AGET
itself on its last request, none on those before. -/
structure StashReq where
  write : Bool
  shelf : Bool
  laddr : Nat
  saddr : List Nat
  ctr   : Option (BitVec 2)
  data  : Option Bytes
  fetch : Option (Option StashArgs) := none
  deriving DecidableEq, Repr, Inhabited

/-- A directory entry of the activation stash (R136); `lines` 0: no record. -/
structure DirEnt where
  spilled : Bool := false
  addr    : Nat := 0
  lines   : Nat := 0
  deriving DecidableEq, Repr, Inhabited

/-- A wait of a unit, as a holdover record attributes it (R160, R161): cause code, cycle offset at which it began,
cycles, queue, port, lane, seat and room of origin, the tile that waits, and the tile that feeds the stream it waits on
(0xFFFF: none, and the search stops). -/
structure Wait where
  cause : Byte := 0
  cyc   : Nat := 0
  len   : Nat := 0
  queue : BitVec 16 := 0xFFFF
  port  : Byte := 0xFF
  lane  : Byte := 0xFF
  seat  : Byte := 0xFF
  room  : BitVec 16 := 0xFFFF
  tile  : BitVec 16 := 0xFFFF
  src   : BitVec 16 := 0xFFFF
  deriving DecidableEq, Repr, Inhabited

/-- One physical tile but its window registers (which lie in the office space). Desk and shelf bytes (R118, R119);
`errs` marks 64-bit words keyed 2^20·space + word: 1 a correctable error, 2 uncorrectable, 3 poisoned (R125);
stream buffers (R148); credits of outbound streams (R150); the decoupling queue and its fence (R124, R131); the stash
directory and its allocation pointers in lines (R136, R139); mark causes of the period (R254); slip, the stalled
instruction, what it has read of its stream, the flits it still has to send and the requests it still has to enqueue,
and the instructions held behind it (R75, R131, R147, R150); words whose corrected value waits to be written back in a
recess cycle, and whether the stalled instruction is a memory instruction (R127); the fence of R271; the free-substitute flag of
R275. -/
structure Tile where
  arr      : MArray := {}
  eng      : Engine := {}
  desk     : Bank Byte := []
  shelf    : Bank Byte := []
  errs     : Bank (BitVec 2) := []
  inb      : Bank (List Flit) := []
  outCred  : Bank Nat := []
  queue    : List StashReq := []
  qFenced  : Bool := false
  dir      : Bank DirEnt := []
  planPtr  : Nat := 0
  spillPtr : Nat := 0
  causes   : BitVec 32 := 0
  slip     : Nat := 0
  stall    : Option Instr := none
  got      : List Bytes := []
  unsent   : List (Nat × Bytes) := []
  unqueued : List StashReq := []
  wb       : List Nat := []
  wait     : Wait := {}
  held     : List Instr := []
  memStall : Bool := false
  fenced   : Bool := false
  spare    : Bool := false
  deriving DecidableEq, Repr, Inhabited

/-! ### The lesson of a partition (R179 to R185, R429) -/

/-- A tensor table entry (R181). -/
structure TensorEnt where
  n     : Nat
  watch : Nat
  kind  : Nat
  fmt   : Nat
  flags : BitVec 8
  lag   : Nat
  count : Nat
  rows  : Nat
  cols  : Nat
  edition : BitVec 32
  g0    : Byte
  h     : Nat
  k     : Nat
  slot  : Nat
  maxN  : Nat
  grad  : Nat
  saddr : Nat
  deriving DecidableEq, Repr, Inhabited

/-- A queue binding (R182). -/
structure QueueBind where
  idx    : Nat
  far    : Bool
  q      : Nat
  peer   : Nat
  row    : Nat
  col    : Nat
  stream : Nat
  fmt    : Nat
  deriving DecidableEq, Repr, Inhabited

/-- A slot binding (R182). -/
structure SlotBind where
  idx     : Nat
  recv    : Bool
  slot    : Nat
  period  : Nat
  quantum : Nat
  flits   : Nat
  deriving DecidableEq, Repr, Inhabited

/-- A stream binding (R429). -/
structure StreamBind where
  row    : Nat
  col    : Nat
  out    : Nat
  toQueue : Bool
  dRow   : Nat
  dCol   : Nat
  bind   : Nat
  dStream : Nat
  deriving DecidableEq, Repr, Inhabited

/-- A region entry of the memory plan (R183). -/
structure RegionEnt where
  row    : Nat
  col    : Nat
  region : Nat
  frozen : Bool
  base   : Nat
  size   : Nat
  deriving DecidableEq, Repr, Inhabited

/-- A placement entry of the memory plan (R183). -/
structure Placement where
  tensor : Nat
  role   : Nat
  mem    : Nat
  row    : Nat
  col    : Nat
  region : Nat
  row0   : Nat
  nrows  : Nat
  col0   : Nat
  ncols  : Nat
  addr   : Nat
  deriving DecidableEq, Repr, Inhabited

/-- A tile entry of the memory plan (R183). -/
structure TilePlan where
  row    : Nat
  col    : Nat
  aplan  : Word
  spillB : Word
  spillS : Word
  deriving DecidableEq, Repr, Inhabited

/-- A watch code entry of the memory plan (R183, R289). -/
structure WatchCode where
  watch : Nat
  row   : Nat
  col   : Nat
  addr  : Nat
  deriving DecidableEq, Repr, Inhabited

/-- What a lesson's image says of one logical part's stash memory (R183): its pages, CHECK_BANK.BASE and CHECK_BANKSIZE. -/
structure StashPlan where
  pages : List (Nat × Bool)
  bank  : Nat
  size  : Nat
  deriving DecidableEq, Repr, Inhabited

/-- A loaded lesson: header fields, the common sections, the derivation periods (R223), the sections of the logical part
this part holds, and the stash plans of all logical parts, in their order (R250). -/
structure Lesson where
  flags   : BitVec 16
  cols    : Nat
  parts   : Nat
  periods : Nat
  digest  : Bytes
  pdigest : Bytes
  classes : List (Nat × Nat × Nat)
  plan    : List (Nat × BitVec 8)
  deriv   : List Nat
  tensors : List TensorEnt
  me      : Nat
  standby : Bool
  queues  : List QueueBind
  slots   : List SlotBind
  streams : List StreamBind
  tilePlans : List TilePlan
  regions : List RegionEnt
  places  : List Placement
  pages   : List (Nat × Bool)
  codes   : List WatchCode
  admBase : Nat
  admLen  : Nat
  bank    : Word
  bankSize : Word
  mbase   : Word
  mstage  : Word
  init    : Bytes
  stashPlans : List StashPlan := []
  deriving DecidableEq, Repr, Inhabited

/-! ### Marks, recall, counts -/

/-- The payload of a mark frame (R257), with the port it came on (none: this part's own). -/
structure Mark where
  from_   : Option Nat := none
  period  : BitVec 48 := 0
  attempt : Byte := 0
  bad     : Bool := false
  mirror  : Bool := false
  notice  : Bool := false
  causes  : BitVec 32 := 0
  cover   : BitVec 16 := 1
  badParts : BitVec 16 := 0
  seat    : Byte := 0xFF
  room    : BitVec 16 := 0
  tile    : BitVec 16 := 0
  level   : Byte := 0
  twin    : BitVec 64 := 0
  cstep   : BitVec 64 := 0
  mstep   : BitVec 64 := 0
  deriving DecidableEq, Repr, Inhabited

/-- Where a recall stands (R266 to R268). -/
inductive RecallPhase where
  | agreement   -- stopped, the agreement round runs
  | rebuild     -- the rebuild of R228 runs
  | hold        -- coverage short: held for substitution (R267, R274)
  deriving DecidableEq, Repr, Inhabited

/-- A recall in progress: its period, causes, whether management chose halt, its phase, the target step, and whether a
part failure is among its causes. -/
structure Recall where
  period : BitVec 48
  causes : BitVec 32
  halt   : Bool
  phase  : RecallPhase
  target : BitVec 64
  failed : Bool
  deriving DecidableEq, Repr, Inhabited

/-- The counters of one declared tensor in one step (R285), with the G used in the step and the flags of R287. -/
structure Counts where
  writes   : Nat := 0
  trueZero : Nat := 0
  bgZero   : Nat := 0
  sat      : Nat := 0
  nonfin   : Nat := 0
  zeroElem : Nat := 0
  maxCode  : Byte := 0
  laneRange : Nat := 0
  g        : Byte := 0
  flags    : Byte := 0
  deriving DecidableEq, Repr, Inhabited

/-- The running figures of a step's pace report (R164) that no register holds: holdover quanta by cause group, periods
held over, timetabled quanta so far, stale frames, and late quanta by sender (seat, room, port, quanta). -/
structure Pace where
  quanta : Nat := 0
  inside : Nat := 0
  links  : Nat := 0
  other  : Nat := 0
  held   : Nat := 0
  stale  : Nat := 0
  late   : List (Byte × BitVec 16 × Byte × Nat) := []
  deriving DecidableEq, Repr, Inhabited

/-- A record ring in the principal's working memory: entries by index, entries not yet read, and, for a ring without a
head register, the next index. -/
structure Ring where
  ents   : Bank Bytes := []
  unread : Nat := 0
  head   : Nat := 0
  lost   : Nat := 0
  deriving DecidableEq, Repr, Inhabited

/-- One DMA channel but its registers (R313 to R323): the descriptor it executes, that a halt or a disable waits for
the boundary, that a pre-emption paused it, whether management issued the chain, the bytes that the descriptor has moved, and
whether management issued the chain that is pending. -/
structure Channel where
  cur    : Option Descriptor := none
  done   : Bool := false
  mgmt   : Bool := false
  moved  : Nat := 0
  halt   : Bool := false
  off    : Bool := false
  paused : Bool := false
  next   : Bool := false
  deriving DecidableEq, Repr, Inhabited

/-- What pre-emption saved beside the desk and shelf images in the save slots (R123, R346): the partition's tiles without their
memories, the registers of their windows and of its DMA channels, and the channels (R322). -/
structure Saved where
  tiles : Bank Tile
  regs  : Bank Word
  chans : Bank Channel
  deriving DecidableEq, Repr, Inhabited

/-- A manifest entry of a WEIGHT_LOAD (R328); `staged` once a stage mode load has put it into the staging area. -/
structure LoadEnt where
  tensor : Nat
  role   : Nat
  conv   : Bool
  set    : Nat
  conn   : Nat
  lr     : Nat
  lc     : Nat
  remote : BitVec 64
  length : Nat
  staged : Bool := false
  deriving DecidableEq, Repr, Inhabited

/-- A WEIGHT_LOAD in progress (R331 to R333): expected roots, node files by set (address, connection), entries, mode, staging
base, bytes ingested, the leaves hashed (entry, leaf, hash), the leaves of a CONV band that wait for the rest of it (entry,
leaf, bytes), and, of leaves read again (R228, R339), which are awaited. -/
structure WLoad where
  cmd     : Nat
  roots   : List Bytes
  ents    : List LoadEnt
  stage   : Bool
  base    : Nat
  bytes   : Nat
  leaves  : List (Nat × Nat × Bytes)
  nodes   : List (Nat × Nat) := []
  src     : List (Nat × Nat × Bytes) := []
  want    : List (Nat × Nat) := []
  deriving DecidableEq, Repr, Inhabited

/-- A wave of serving mode (R336): the step S of the switch and the regions (lag, tile, region, tensor) not yet
sealed; `opened` marks those the engine has opened. -/
structure Wave where
  s      : BitVec 64
  turned : Bool
  left   : List (Nat × Nat × Nat × Nat)
  opened : List (Nat × Nat)
  deriving DecidableEq, Repr, Inhabited

/-- The scope of an eraser pass (R349, R352): fields, tenant pages, ports. -/
structure Scope where
  fields : BitVec 4
  base   : Nat
  count  : Nat
  ports  : BitVec 22
  deriving DecidableEq, Repr, Inhabited

/-- One partition but its registers (R342). Of a rebuild: whether a stalled tile holds its period (R154). Of a recall: the
substitutes that
still have to take their seats, the streams that this part sends for the restoration (port, source, position), and how far its own
active bank has come back (R129, R231). -/
structure Part where
  lesson   : Option Lesson := none
  loading  : Option (Bytes × Bool × Nat) := none
  idx      : Nat := 0
  curLen   : Nat := 0
  further  : Bool := false
  pend     : Nat := 0
  inRecess : Bool := false
  holdQ    : Nat := 0
  held     : Bool := false
  skew     : Bool := false
  noMax    : Bool := false
  causes   : BitVec 32 := 0
  marks    : List Mark := []
  level4   : List Mark := []
  twinOwn  : List Mark := []
  rcl      : Option Recall := none
  heldNote : Option (BitVec 32 × BitVec 48 × Bool) := none
  subst    : List (Nat × Nat) := []
  awaited  : List Nat := []
  restores : List (Nat × Nat × Nat) := []
  healPos  : Option Nat := none
  comEd    : Bank Word := []
  prevEd   : Bank Word := []
  prevBank : Bool := false
  fenceSwept : Bool := false
  flip     : Option (BitVec 64) := none
  inDone   : Bool := false
  allHeld  : Bool := false
  refill   : Bool := false
  unmirrored : Bool := false
  txPos    : Nat := 0
  rxPos    : Nat := 0
  scalars  : List (Nat × BitVec 64 × Word) := []
  gExp     : Bank (BitVec 10) := []
  watch    : Bank Counts := []
  zeroRun  : Bank Nat := []
  prevRun  : Bank Nat := []
  flipRun  : Bank Nat := []
  mirRun   : Bank Nat := []
  pace     : Pace := {}
  late     : Wait := {}
  eff      : Nat := 0
  holdRing : Ring := {}
  paceRing : Ring := {}
  watchRing : Ring := {}
  eventRing : Ring := {}
  ec       : Bank Nat := []
  xt       : Nat := 0
  remap    : List Nat := []
  preReq   : Option Nat := none
  saving   : Option Nat := none
  saved    : Option Saved := none
  fwStop   : Bool := false
  haltReq  : Bool := false
  scope    : Option Scope := none
  load     : Option WLoad := none
  failedSets : List Bytes := []
  roots    : List (Bytes × Bytes) := []
  kept     : List (LoadEnt × List (Nat × Bytes)) := []
  fix      : Option WLoad := none
  sides    : List (Nat × Nat) := []
  stagedEd : Option (BitVec 32) := none
  stageBase : Nat := 0
  wave     : Option Wave := none
  released : Bool := false
  reshard  : Option (BitVec 32 × Bool) := none
  shardIn  : List (Nat × Nat × Bytes) := []
  image    : Bytes := []
  flipEd   : Bank Word := []
  mirEd    : Bank Word := []
  closed   : Bool := false
  telePow  : Nat := 0
  teleTemp : Nat := 0
  frozenPow  : Nat := 0
  frozenTemp : Nat := 0
  peak     : Nat := 0
  digFrames : List (Nat × Nat × Bytes) := []
  digLines : List (Nat × Nat × Bytes) := []
  deriving DecidableEq, Repr, Inhabited

/-! ### Ports, channels, firmware, retained state -/

/-- A roll-call identity received on a port (R208). -/
structure Peer where
  port    : Nat
  seat    : Nat
  room    : BitVec 9
  flags   : Byte
  grade   : Byte
  step    : Byte
  serial  : Bytes
  digest  : Bytes
  verdict : Option Byte
  deriving DecidableEq, Repr, Inhabited

/-- A frame whose slot has passed before all its flits reached the gate (R170): queue index, flits, and the period and
sequence number of its header. -/
structure LateFrame where
  q      : Nat
  flits  : Nat
  period : BitVec 48
  seq    : BitVec 16
  deriving DecidableEq, Repr, Inhabited

/-- One near or far port but its registers: the link layer's receive and send state (R190 to R196: the failed blocks of the
last 64 by lane, what waits to be sent, the blocks sent since the last marker, link-control entries handed on), lane
states, roll call progress (R207), the link queues' waiting frames, credits and sequence numbers (R150, R151), flits
at the gate, the flits of delivered frames not yet read by queue, the frames whose flits are late (R170, R171), and the own
MEASURED and PAD while a relay holds LINK_DELAY (R211). -/
structure Port where
  rxSeq    : BitVec 12 := 0
  rxTop    : BitVec 12 := 0
  reorder  : Bank (Option Block) := []
  fails    : Bank Nat := []
  bads     : List (Nat × Nat) := []
  rxCount  : Nat := 0
  rxBytes  : Bytes := []
  txSeq    : BitVec 12 := 0
  txBytes  : Bytes := []
  txFrames : List Frame := []
  txControl : List (Byte × BitVec 32) := []
  txReplay : List Block := []
  unmarked : Nat := 0
  control  : List (Byte × BitVec 32) := []
  sent     : List Block := []
  mapgen   : BitVec 2 := 0
  switching : Option (Nat × Bool) := none
  degraded : Option Nat := none
  handed   : List Frame := []
  trained  : BitVec 5 := 0
  peer     : Option Peer := none
  probes   : Nat := 0
  verdictSent : Bool := false
  waiting  : List Frame := []
  credits  : Bank Nat := []
  gateCred : Bank Nat := []
  nextSeq  : Bank (BitVec 16) := []
  sendSeq  : Bank (BitVec 16) := []
  gate     : Bank (List Flit) := []
  gateOut  : Bank (List Nat) := []
  late     : List LateFrame := []
  ownDelay : Option Nat := none
  parked   : Bool := false
  deriving DecidableEq, Repr, Inhabited

/-- An outstanding command (R294, R300): its number, issuer, ring, opcode, sequence number, IRQ flag, the partition it
acts on, and one operand. -/
structure Outstanding where
  id     : Nat
  issuer : Issuer
  ring   : Nat
  opcode : BitVec 16
  seq    : BitVec 16
  irq    : Bool
  part   : Option Bool
  arg    : Nat
  deriving DecidableEq, Repr, Inhabited

/-- An activation, a fallback or a firmware restart under way (R366 to R373): its command, the named steps, which partitions
still have to stop and which have stopped, whether it is a fallback, and whether any bell stops (R371, R373). -/
structure Activation where
  cmd      : Option Nat
  step0    : BitVec 64
  step1    : BitVec 64
  wait0    : Bool
  wait1    : Bool
  stopped0 : Bool
  stopped1 : Bool
  fallback : Bool
  anyBell  : Bool
  started  : Bool
  deriving DecidableEq, Repr, Inhabited

/-- Firmware slots and update state (R361 to R371): `before` holds the ports that were up before the pause, `due0` and `due1`
whether a partition whose bells ran before it has still to commit a step (R370). -/
structure Firmware where
  slotA    : Bytes := []
  slotB    : Bytes := []
  writing  : Option (Nat × Bytes) := none
  act      : Option Activation := none
  trialCmd : Option Nat := none
  before   : BitVec 20 := 0
  due0     : Bool := false
  due1     : Bool := false
  deriving DecidableEq, Repr, Inhabited

/-- A location entry of the transcript (R278, R279). -/
structure LocEnt where
  key   : Bytes
  first : BitVec 64
  times : List (BitVec 64)
  count : Nat
  perm  : Bool
  deriving DecidableEq, Repr, Inhabited

/-- Retained state that no register holds (R378): the campus plan and one
that waits for the next roll call, the substitution map as excluded tiles and strips,
the storage connections, the transcript, the lanes' equalisation, and the scope that an accepted debug token asks for (R356). -/
structure Retained where
  plan    : Bytes := []
  newPlan : Bytes := []
  exTiles : List Nat := []
  exStrips : List Nat := []
  conns   : Bank Bytes := []
  locs    : List LocEnt := []
  faults  : Ring := {}
  equal   : Bank Word := []
  armScope : BitVec 3 := 0
  deriving DecidableEq, Repr, Inhabited

/-- What the fuses hold (R354, R355, R420): grade (true: B), stepping (true: B1), the -T fuse, the serial number and
the MAC address, the owner digest, the anti-rollback counters and the factory substitution map. -/
structure Fuses where
  gradeB  : Bool := false
  stepB1  : Bool := false
  twin    : Bool := false
  serial  : BitVec 128 := 0
  mac     : BitVec 48 := 0
  owner   : Option Bytes := none
  svnMon  : Nat := 0
  svnPri  : Nat := 0
  exTiles : List Nat := []
  exStrips : List Nat := []
  deriving DecidableEq, Repr, Inhabited

/-- Pins and interface states: RESET_N and PGOOD_N levels, the strap inputs, ALERT_N held low, the part held in its
internal reset with what the digests of the two retained copies gave, which interfaces have left reset, host power states (R308,
R374, R398 to R401, R411, R412). -/
structure Pins where
  resetN    : Bool := false
  pgoodN    : Bool := true
  early     : Bool := false
  seat      : BitVec 5 := 0
  testmode  : BitVec 2 := 0
  alertHeld : Bool := false
  copyA     : Bool := true
  copyB     : Bool := true
  perstA    : Bool := false
  perstB    : Bool := false
  hostA     : Bool := false
  hostB     : Bool := false
  asleepA   : Bool := false
  asleepB   : Bool := false
  mgmt      : Bool := false
  storage0  : Bool := false
  storage1  : Bool := false
  refclk    : Bool := true
  fenced    : Bool := false
  inputOk   : Bool := true
  armed     : Option (BitVec 3) := none
  deriving DecidableEq, Repr, Inhabited

/-- What the part reports to management beside its records: a seat of its room that is missing, one without a substitute, a substitute
that a lesson shuts out (R5, R274), a port's roll-call outcome with the identity seen and the one expected (seat, room, serial number),
a swapped pair of ports with the identities they see, a port without a spare, and a lane that is permanent (R209, R280). -/
inductive Report where
  | missingSeat (p : Bool) (n : Nat)
  | noSubstitute (p : Bool) (n : Nat)
  | ineligible (p : Bool) (n : Nat)
  | port (l outcome : Nat) (seen expected : Nat × Nat × Bytes)
  | swapped (l k : Nat) (seenL seenK : Nat × Nat × Bytes)
  | noSpare (l : Nat)
  | permanentLane (l n : Nat)
  deriving DecidableEq, Repr

/-- Something the part sends to the outside: a reply, a write into host memory, a vector, a frame or a link-control
entry on a port, a register value read, an alert, a report, a datagram, an SPDM response, an RDMA read. -/
inductive Out where
  | reply (dst : Issuer) (ring : Nat) (bytes : Bytes)
  | hostWrite (h : Bool) (addr : Nat) (bytes : Bytes)
  | vector (h : Bool) (v : Nat)
  | frame (port : Nat) (f : Frame)
  | block (port : Nat) (b : Block)
  | laneRequest (port : Nat) (lane : Nat)
  | laneAck (port : Nat) (lane : Nat)
  | value (dst : Issuer) (addr : Nat) (w : Word)
  | unsupported (h : Bool) (addr : Nat)
  | alert
  | report (r : Report)
  | mctp (bytes : Bytes)
  | datagram (bytes : Bytes)
  | spdm (dst : Issuer) (code : Nat) (bytes : Bytes)
  | mgmtRecords (bytes : Bytes)
  | rdmaRead (conn : Nat) (addr : BitVec 64) (length : Nat)
  deriving DecidableEq, Repr

/-- One BV2 part. `badLines`: stash lines classed permanent at the latest start (R280); `replies`: replies that stand in each reply
ring, keyed 256·host + ring (R294, R295). -/
structure State where
  fuses    : Fuses := {}
  pins     : Pins := {}
  office   : Bank Word := []
  staged   : Bank (Option Word) := []
  writer   : Bank (BitVec 2) := []
  latch    : Bank (BitVec 33) := []
  retained : Retained := {}
  tiles    : Bank Tile := []
  stash    : Bank Byte := []
  stashErr : Bank (BitVec 2) := []
  mesh     : List (Nat × Nat × Flit) := []
  meshCred : Bank Nat := []
  part0    : Part := {}
  part1    : Part := {}
  ports    : Bank Port := []
  rollMask : BitVec 20 := 0
  rollCmd  : Option Nat := none
  chans    : Bank Channel := []
  bells    : Bank Bool := []
  cmds     : List Outstanding := []
  replies  : Bank Nat := []
  nextCmd  : Nat := 0
  peerMsg  : Bank (Option (Nat × BitVec 16)) := []
  peerSent : List (BitVec 16) := []
  peerDone : List (BitVec 16 × Byte) := []
  roomNow  : BitVec 9 := 0
  errRing  : Ring := {}
  fw       : Firmware := {}
  nonce    : Option (BitVec 128) := none
  half     : Option (Byte × Bytes) := none
  sensors  : Bank Nat := []
  fresh0   : Option Nat := none
  fresh1   : Option Nat := none
  badLines : List Nat := []
  dawnMs   : Nat := 0
  testing  : List Nat := []
  moving   : List Nat := []
  deferred : List Nat := []
  wall     : BitVec 64 := 0
  free     : Nat := 0
  out      : List Out := []
  pending  : List Instr := []
  deriving DecidableEq, Repr

/-- The part right after reset: every register at its Reset entry (factory values where the entry is "ret.", straps
0), every memory empty, no lesson, no field assigned, nothing waiting. -/
def State.reset : State := {}

end Sys2Proof.Machine
end

