-- ==== Sys2Proof/Machine/Grid.lean ====
section
/-! DEFINITION. Grid accumulators (R50 to R54), the residue channel (R78, R79), tally conversion and addition (R59, R60),
and the record words of an element (R238). -/

set_option Elab.async false

namespace Sys2Proof.Machine

/-- The floor of x · 2^s (R51). -/
def floorShift (x s : Int) : Int := if 0 ≤ s then x * 2 ^ s.toNat else x / 2 ^ (-s).toNat

/-- The integer part of x · 2^s taken toward zero (R59). -/
def truncShift (x s : Int) : Int :=
  if 0 ≤ s then x * 2 ^ s.toNat
  else if x < 0 then -((-x) / 2 ^ (-s).toNat) else x / 2 ^ (-s).toNat

/-- The residue of an integer modulo 4095. -/
def residue (x : Int) : Nat := (x % 4095).toNat

/-- The residue of a two's-complement value of 12·j bits by its digits: the sum of the digits minus the sign bit (R79). -/
def digitRes (j : Nat) (v : Nat) : Nat :=
  residue (((List.range j).map (fun i => ((v / 4096 ^ i % 4096 : Nat) : Int))).sum - ((v / 2 ^ (12 * j - 1) % 2 : Nat) : Int))

/-- R79's residue of a chunk accumulator. -/
def chunkRes (v : BitVec 96) : Nat := digitRes 8 v.toNat

/-- R79's residue of a total, sign-extended to 132 bits. -/
def totalRes (v : BitVec 128) : Nat := digitRes 11 (v.signExtend 132).toNat

/-- The channel's residue of an aligned integer q of m·2^s, m = sx·sw, with r the remainder the aligner discards (R78). -/
def channelRes (sx sw s q : Int) : Nat :=
  let r : Int := if 0 ≤ s then 0 else sx * sw - q * 2 ^ (-s).toNat
  residue (((residue sx * residue sw : Nat) - residue r : Int) * 2 ^ (s % 12).toNat)

/-- The exact integer that an element holds: its total and its open chunk (R53). -/
def Elem.sum (e : Elem) : Int := e.total.toInt + e.chunk.toInt

/-- DIFF of an element: accumulator residue minus channel residue, modulo 4095 (R81). -/
def Elem.diff (e : Elem) : Nat := (totalRes e.total + chunkRes e.chunk + 4095 - e.res.toNat % 4095) % 4095

/-- An element after its chunk is added on the 128-bit path (R53). -/
def Elem.closed (e : Elem) : Elem :=
  { e with total := e.total + e.chunk.signExtend 128, chunk := 0, terms := 0 }

/-- A cleared element with what it records (R72, R87). The clamps not yet counted stay until they count (R52). -/
def Elem.fresh (e : Elem) (r : Recorded) : Elem := { rcd := r, clamps := e.clamps }

/-- An element whose clamps have counted (R52, R285). -/
def Elem.counted (e : Elem) : Elem := { e with clamps := 0 }

/-- The failed checks of one instruction: STAGE, element index, DIFF; one entry per stage, its first element (R81). -/
abbrev Fails := List (Nat × Nat × Nat)

/-- Adds a failed check, keeping the first element of each stage (R81). -/
def addFail (fs : Fails) (stage idx diff : Nat) : Fails :=
  match fs with
  | [] => [(stage, idx, diff)]
  | (g, i, d) :: rest =>
    if g = stage then (if idx < i then (stage, idx, diff) :: rest else (g, i, d) :: rest)
    else if stage < g then (stage, idx, diff) :: (g, i, d) :: rest
    else (g, i, d) :: addFail rest stage idx diff

/-- The limit of R52 in units: 2^80, and what a clamped product adds. -/
def clampUnits (q : Int) : Int := if q < 0 then -(2 ^ 80 - 1) else 2 ^ 80 - 1

/-- One product sx·sw·2^e entering an element on anchor a, with `inj` added to its residue: R51, R52, R78. A chunk of 32,768
products closes first, with R79's check. A value that R52 clamps enters the residue channel as clamped (DESIGN CHOICE, log 118).
-/
def Elem.enter (e : Elem) (idx : Nat) (a sx sw ex : Int) (inj : Bool) (fs : Fails) : Elem × Fails :=
  let full := decide (e.terms = 32768)
  let fs := if full && decide (e.diff ≠ 0) then addFail fs 0 idx e.diff else fs
  let e := if full then e.closed else e
  let s := ex - (a - 78)
  let q := floorShift (sx * sw) s
  let big := decide (2 ^ 80 ≤ (sx * sw).natAbs * 2 ^ s.toNat / 2 ^ (-s).toNat)
  let v := if big then clampUnits q else q
  let r := if big then residue v else channelRes sx sw s q
  let e' := { e with
    chunk := e.chunk + BitVec.ofInt 96 v
    res := BitVec.ofNat 12 ((e.res.toNat + r + b2n inj) % 4095)
    terms := e.terms + 1
    clamps := if big then e.clamps + 1 else e.clamps }
  (e', if big then addFail fs 6 idx 0 else fs)

/-! ### Tallies -/

/-- The non-finite marker of a tally (R58). -/
def marker : BitVec 64 := 0x8000000000000000

/-- g = G + k − 62 (R58). -/
def tallyG (g k : Int) : Int := g + k - 62

/-- What a contribution counts as (R285). -/
inductive TallyCount where
  | normal | zero | below | sat | nonfin
  deriving DecidableEq, Repr

/-- A finite contribution sig·2^e on grid (G, k): its integer and how it counts (R59). -/
def tallyIn (G k sig e : Int) : Int × TallyCount :=
  if sig = 0 then (0, .zero)
  else if G + 1 ≤ expOf sig.natAbs e then
    let v : Int := 2 ^ (63 - k).toNat - 1
    (if sig < 0 then -v else v, .sat)
  else
    let t := truncShift sig (e - tallyG G k)
    (t, if t = 0 then .below else .normal)

/-- The tally addition of R60: the marker absorbs, and a sum outside −(2^63 − 1) to 2^63 − 1 stores the marker. The Bool
says that the sum left the range. -/
def tallyAdd (x y : BitVec 64) : BitVec 64 × Bool :=
  if x = marker ∨ y = marker then (marker, false)
  else
    let s := x.toInt + y.toInt
    if s < -(2 ^ 63 - 1) ∨ 2 ^ 63 - 1 < s then (marker, true) else (BitVec.ofInt 64 s, false)

/-- An exact element sum as the tally it adds: an integer outside the range adds as out of range (R60). -/
def tallyAddInt (x : BitVec 64) (v : Int) : BitVec 64 × Bool :=
  if x = marker then (marker, false)
  else
    let s := x.toInt + v
    if s < -(2 ^ 63 - 1) ∨ 2 ^ 63 - 1 < s then (marker, true) else (BitVec.ofInt 64 s, false)

/-- The R46 code of |t · 2^g|, the marker excluded (R237). -/
def tallyCode (t : BitVec 64) (g : Int) : Nat := if t = marker then 0 else codeOf (.fin false t.toInt.natAbs g)

/-- One contribution of a tally-mode product entering an element with unit 2^g (R59, R87, R91). -/
def Elem.enterTally (e : Elem) (idx : Nat) (G k sx sw ex : Int) (inj : Bool) (fs : Fails) : Elem × TallyCount × Fails :=
  let full := decide (e.terms = 32768)
  let fs := if full && decide (e.diff ≠ 0) then addFail fs 0 idx e.diff else fs
  let e := if full then e.closed else e
  let c := tallyIn G k (sx * sw) ex
  let s := ex - tallyG G k
  let r := match c.2 with
    | .normal | .below | .zero => channelRes sx sw s c.1
    | _ => residue c.1
  ({ e with
     chunk := e.chunk + BitVec.ofInt 96 c.1
     res := BitVec.ofNat 12 ((e.res.toNat + r + b2n inj) % 4095)
     terms := e.terms + 1 }, c.2, fs)

/-- R62's choice of G from the combined code, the G of the step before, h: the new G and whether it was clamped. -/
def nextG (code : Nat) (old h : Int) : Int × Bool :=
  let raw : Option Int := if code = 0 then some old else if code = 0xFF then none else some (codeExp code + h)
  match raw with
  | none => (127, true)
  | some g => if g < -110 then (-110, true) else if 127 < g then (127, true) else (g, false)

end Sys2Proof.Machine
end

