-- ==== Sys2Proof/Machine/Regs.lean ====
section
/-! DEFINITION. The office space's register list (R413, R421): every register by name, its address, its access codes
and Reset entry (R15, R16) from the register tables of its chapter, and reading and writing the value in effect. -/

set_option Elab.async false

namespace Sys2Proof.Machine

/-- The registers of R421. `h` is a host port or firmware slot (false A), `p` a partition, `r` a ring, `g` a pigeonhole
and `k` its data word, `c` a DMA channel, `l` a port, `t` a physical tile index, `n` an index within the register. -/
inductive Reg where
  | officeId
  | officeSerial (n : Nat)
  | officeStrap
  | officeMacLo
  | officeMacHi
  | officeAccerr
  | officeAccaddr
  | officeStashCe
  | officeStashUe
  | cmdDoorbell (h : Bool)
  | cmdStat (h : Bool)
  | cmdDbpend (h : Bool) (n : Nat)
  | cmdCbaseLo (h : Bool) (r : Nat)
  | cmdCbaseHi (h : Bool) (r : Nat)
  | cmdRbaseLo (h : Bool) (r : Nat)
  | cmdRbaseHi (h : Bool) (r : Nat)
  | cmdRctl (h : Bool) (r : Nat)
  | cmdCtail (h : Bool) (r : Nat)
  | cmdChead (h : Bool) (r : Nat)
  | cmdRhead (h : Bool) (r : Nat)
  | pigeonData (k : Nat) (g : Nat)
  | pigeonSend (g : Nat)
  | pigeonStat (g : Nat)
  | pigeonTake (g : Nat)
  | pigeonFrom (g : Nat)
  | pigeonOwn (g : Nat)
  | pigeonTimeout
  | pigeonPendLo
  | pigeonPendHi
  | pigeonCommit
  | dmaChctl (c : Nat)
  | dmaChstat (c : Nat)
  | dmaChstartLo (c : Nat)
  | dmaChstartHi (c : Nat)
  | dmaChcurLo (c : Nat)
  | dmaChcurHi (c : Nat)
  | dmaChtag (c : Nat)
  | dmaChoff (c : Nat)
  | dmaStat
  | dmaLdstat
  | dmaLdconn (n : Nat)
  | bellStat (p : Bool)
  | bellPnumLo (p : Bool)
  | bellPnumHi (p : Bool)
  | bellHcount (p : Bool)
  | bellLcount (p : Bool)
  | bellMargin (p : Bool)
  | bellHoldmax (p : Bool)
  | bellLoghead (p : Bool)
  | bellCommit (p : Bool)
  | bellPeriod (p : Bool) (n : Nat)
  | bellRecess (p : Bool) (n : Nat)
  | bellWork (p : Bool) (n : Nat)
  | linkStat (l : Nat)
  | linkLanemap (l : Nat)
  | linkErr (l : Nat)
  | linkLanece (l : Nat)
  | linkDelay (l : Nat)
  | linkRelay (l : Nat)
  | linkRoll
  | linkRoom
  | linkLanethr
  | linkCommit
  | watchStat (p : Bool)
  | watchZerothr (p : Bool)
  | watchZerorun (p : Bool)
  | watchRechead (p : Bool)
  | watchEvhead (p : Bool)
  | watchCommit (p : Bool)
  | checkMark (p : Bool)
  | checkMarkpnum (p : Bool)
  | checkRecall (p : Bool)
  | checkRpnum (p : Bool)
  | checkBank (p : Bool)
  | checkBanksize (p : Bool)
  | checkMirror (p : Bool)
  | checkMbase (p : Bool)
  | checkMstage (p : Bool)
  | checkSeedLo (p : Bool)
  | checkSeedHi (p : Bool)
  | checkStepLo (p : Bool)
  | checkStepHi (p : Bool)
  | checkCstepLo (p : Bool)
  | checkCstepHi (p : Bool)
  | checkMstepLo (p : Bool)
  | checkMstepHi (p : Bool)
  | checkEdptr (p : Bool)
  | checkEdwave (p : Bool)
  | checkEdstepLo (p : Bool)
  | checkEdstepHi (p : Bool)
  | checkTest
  | checkErrlog
  | checkTrans
  | powerStat
  | powerLimit
  | powerTherm
  | powerInput
  | powerStretch (p : Bool)
  | powerPart (p : Bool)
  | secPartmap
  | secPortown
  | secBoot
  | secDebug
  | secCommit
  | secPstat (p : Bool)
  | secPagebase (p : Bool)
  | secPagecnt (p : Bool)
  | fwStat
  | fwMonstat
  | fwSlot (h : Bool)
  | testStat
  | testDawn
  | testDusk
  | testItem
  | testRetain
  | tileMxres (t : Nat)
  | tileMxinj (t : Nat)
  | tileMemerr (t : Nat)
  | tileMemaddr (t : Nat)
  | tileAplan (t : Nat)
  | tileAspillb (t : Nat)
  | tileAspills (t : Nat)
  | tileAstat (t : Nat)
  | tileVxflags (t : Nat)
  | tilePad (t : Nat)
  | tileTgrid (t : Nat) (n : Nat)
  | tileToken (t : Nat) (n : Nat)
  | tileCommit (t : Nat)
  | tileRegion (t : Nat) (n : Nat)
  | tileReged (t : Nat) (n : Nat)
  | tileRegcnt (t : Nat) (n : Nat)
  | tileEdslot (t : Nat) (n : Nat)
  | tileEdslotr (t : Nat) (n : Nat)
  deriving DecidableEq, Repr

/-- The office address of a register (R413, R421). -/
def Reg.addr : Reg → Nat
  | .officeId => 0x0000
  | .officeSerial n => 0x0004 + 4 * n
  | .officeStrap => 0x0014
  | .officeMacLo => 0x0018
  | .officeMacHi => 0x001C
  | .officeAccerr => 0x0020
  | .officeAccaddr => 0x0024
  | .officeStashCe => 0x0100
  | .officeStashUe => 0x0104
  | .cmdDoorbell h => 0x10000 + 0x8000 * b2n h
  | .cmdStat h => 0x10004 + 0x8000 * b2n h
  | .cmdDbpend h n => 0x10100 + 0x8000 * b2n h + 4 * n
  | .cmdCbaseLo h r => 0x11000 + 0x8000 * b2n h + 32 * r
  | .cmdCbaseHi h r => 0x11004 + 0x8000 * b2n h + 32 * r
  | .cmdRbaseLo h r => 0x11008 + 0x8000 * b2n h + 32 * r
  | .cmdRbaseHi h r => 0x1100C + 0x8000 * b2n h + 32 * r
  | .cmdRctl h r => 0x11010 + 0x8000 * b2n h + 32 * r
  | .cmdCtail h r => 0x11014 + 0x8000 * b2n h + 32 * r
  | .cmdChead h r => 0x11018 + 0x8000 * b2n h + 32 * r
  | .cmdRhead h r => 0x1101C + 0x8000 * b2n h + 32 * r
  | .pigeonData k g => 0x20000 + 0x80 * g + 4 * k
  | .pigeonSend g => 0x20040 + 0x80 * g
  | .pigeonStat g => 0x20044 + 0x80 * g
  | .pigeonTake g => 0x20048 + 0x80 * g
  | .pigeonFrom g => 0x2004C + 0x80 * g
  | .pigeonOwn g => 0x20050 + 0x80 * g
  | .pigeonTimeout => 0x22000
  | .pigeonPendLo => 0x22004
  | .pigeonPendHi => 0x22008
  | .pigeonCommit => 0x220FC
  | .dmaChctl c => 0x30000 + 32 * c
  | .dmaChstat c => 0x30004 + 32 * c
  | .dmaChstartLo c => 0x30008 + 32 * c
  | .dmaChstartHi c => 0x3000C + 32 * c
  | .dmaChcurLo c => 0x30010 + 32 * c
  | .dmaChcurHi c => 0x30014 + 32 * c
  | .dmaChtag c => 0x30018 + 32 * c
  | .dmaChoff c => 0x3001C + 32 * c
  | .dmaStat => 0x34000
  | .dmaLdstat => 0x34010
  | .dmaLdconn n => 0x34100 + 4 * n
  | .bellStat p => 0x40000 + 0x0800 * b2n p
  | .bellPnumLo p => 0x40004 + 0x0800 * b2n p
  | .bellPnumHi p => 0x40008 + 0x0800 * b2n p
  | .bellHcount p => 0x40010 + 0x0800 * b2n p
  | .bellLcount p => 0x40014 + 0x0800 * b2n p
  | .bellMargin p => 0x40018 + 0x0800 * b2n p
  | .bellHoldmax p => 0x4001C + 0x0800 * b2n p
  | .bellLoghead p => 0x40020 + 0x0800 * b2n p
  | .bellCommit p => 0x400FC + 0x0800 * b2n p
  | .bellPeriod p n => 0x40100 + 0x0800 * b2n p + 4 * n
  | .bellRecess p n => 0x40140 + 0x0800 * b2n p + 4 * n
  | .bellWork p n => 0x40180 + 0x0800 * b2n p + 4 * n
  | .linkStat l => 0x50000 + 0x40 * l
  | .linkLanemap l => 0x50004 + 0x40 * l
  | .linkErr l => 0x50008 + 0x40 * l
  | .linkLanece l => 0x5000C + 0x40 * l
  | .linkDelay l => 0x50010 + 0x40 * l
  | .linkRelay l => 0x50014 + 0x40 * l
  | .linkRoll => 0x50800
  | .linkRoom => 0x50804
  | .linkLanethr => 0x50808
  | .linkCommit => 0x508FC
  | .watchStat p => 0x60000 + 0x0800 * b2n p
  | .watchZerothr p => 0x60004 + 0x0800 * b2n p
  | .watchZerorun p => 0x60008 + 0x0800 * b2n p
  | .watchRechead p => 0x6000C + 0x0800 * b2n p
  | .watchEvhead p => 0x60010 + 0x0800 * b2n p
  | .watchCommit p => 0x600FC + 0x0800 * b2n p
  | .checkMark p => 0x70000 + 0x0800 * b2n p
  | .checkMarkpnum p => 0x70004 + 0x0800 * b2n p
  | .checkRecall p => 0x70008 + 0x0800 * b2n p
  | .checkRpnum p => 0x7000C + 0x0800 * b2n p
  | .checkBank p => 0x70400 + 0x0800 * b2n p
  | .checkBanksize p => 0x70404 + 0x0800 * b2n p
  | .checkMirror p => 0x70408 + 0x0800 * b2n p
  | .checkMbase p => 0x7040C + 0x0800 * b2n p
  | .checkMstage p => 0x70410 + 0x0800 * b2n p
  | .checkSeedLo p => 0x70414 + 0x0800 * b2n p
  | .checkSeedHi p => 0x70418 + 0x0800 * b2n p
  | .checkStepLo p => 0x70420 + 0x0800 * b2n p
  | .checkStepHi p => 0x70424 + 0x0800 * b2n p
  | .checkCstepLo p => 0x70428 + 0x0800 * b2n p
  | .checkCstepHi p => 0x7042C + 0x0800 * b2n p
  | .checkMstepLo p => 0x70430 + 0x0800 * b2n p
  | .checkMstepHi p => 0x70434 + 0x0800 * b2n p
  | .checkEdptr p => 0x70500 + 0x0800 * b2n p
  | .checkEdwave p => 0x70504 + 0x0800 * b2n p
  | .checkEdstepLo p => 0x70508 + 0x0800 * b2n p
  | .checkEdstepHi p => 0x7050C + 0x0800 * b2n p
  | .checkTest => 0x71000
  | .checkErrlog => 0x71004
  | .checkTrans => 0x71008
  | .powerStat => 0x80000
  | .powerLimit => 0x80004
  | .powerTherm => 0x80008
  | .powerInput => 0x8000C
  | .powerStretch p => 0x80010 + 0x0800 * b2n p
  | .powerPart p => 0x80100 + 0x0800 * b2n p
  | .secPartmap => 0x90000
  | .secPortown => 0x90004
  | .secBoot => 0x90010
  | .secDebug => 0x90018
  | .secCommit => 0x900FC
  | .secPstat p => 0x90100 + 0x0800 * b2n p
  | .secPagebase p => 0x90104 + 0x0800 * b2n p
  | .secPagecnt p => 0x90108 + 0x0800 * b2n p
  | .fwStat => 0xA0000
  | .fwMonstat => 0xA0004
  | .fwSlot h => 0xA0010 + 0x10 * b2n h
  | .testStat => 0xB0000
  | .testDawn => 0xB0004
  | .testDusk => 0xB0008
  | .testItem => 0xB000C
  | .testRetain => 0xB0010
  | .tileMxres t => 0x100000 + 0x1000 * t + 0x40
  | .tileMxinj t => 0x100000 + 0x1000 * t + 0x44
  | .tileMemerr t => 0x100000 + 0x1000 * t + 0x48
  | .tileMemaddr t => 0x100000 + 0x1000 * t + 0x4C
  | .tileAplan t => 0x100000 + 0x1000 * t + 0x50
  | .tileAspillb t => 0x100000 + 0x1000 * t + 0x54
  | .tileAspills t => 0x100000 + 0x1000 * t + 0x58
  | .tileAstat t => 0x100000 + 0x1000 * t + 0x5C
  | .tileVxflags t => 0x100000 + 0x1000 * t + 0x60
  | .tilePad t => 0x100000 + 0x1000 * t + 0x64
  | .tileTgrid t n => 0x100000 + 0x1000 * t + 0x80 + 4 * n
  | .tileToken t n => 0x100000 + 0x1000 * t + 0xC0 + 4 * n
  | .tileCommit t => 0x100000 + 0x1000 * t + 0xFC
  | .tileRegion t n => 0x100000 + 0x1000 * t + 0x200 + 16 * n
  | .tileReged t n => 0x100000 + 0x1000 * t + 0x204 + 16 * n
  | .tileRegcnt t n => 0x100000 + 0x1000 * t + 0x208 + 16 * n
  | .tileEdslot t n => 0x100000 + 0x1000 * t + 0x600 + 8 * n
  | .tileEdslotr t n => 0x100000 + 0x1000 * t + 0x604 + 8 * n

/-- The access codes of a register's bits and its Reset entry: `rw`, `w1c`, `wo` and `st` masks (every other bit is RO,
R15), the retained bits, the reset value (factory value for retained bits, R378), and whether its RW bits ignore writes
while the partition's bells run (R175, R232, R233, R282). -/
structure RegInfo where
  rw    : Word := 0
  w1c   : Word := 0
  wo    : Word := 0
  st    : Word := 0
  ret   : Word := 0
  reset : Word := 0
  busy  : Bool := false
  deriving DecidableEq, Repr

/-- The register tables of the spec, one row a register. -/
def Reg.info : Reg → RegInfo
  | .officeId => { reset := 0x0B020000 }
  | .officeSerial _ => {}
  | .officeStrap => {}
  | .officeMacLo => {}
  | .officeMacHi => {}
  | .officeAccerr => { w1c := 0xE0000000 }
  | .officeAccaddr => {}
  | .officeStashCe => {}
  | .officeStashUe => { w1c := 0x80000000 }
  | .cmdDoorbell _ => { wo := 0x00001FFF }
  | .cmdStat _ => { w1c := 0x80000000 }
  | .cmdDbpend _ _ => {}
  | .cmdCbaseLo _ _ => { rw := 0xFFFFFFFF }
  | .cmdCbaseHi _ _ => { rw := 0xFFFFFFFF }
  | .cmdRbaseLo _ _ => { rw := 0xFFFFFFFF }
  | .cmdRbaseHi _ _ => { rw := 0xFFFFFFFF }
  | .cmdRctl _ _ => { rw := 0xBFFFC000, reset := 0x11000000 }
  | .cmdCtail _ _ => { rw := 0x00000FFF }
  | .cmdChead _ _ => { reset := 0x80000000 }
  | .cmdRhead _ _ => { rw := 0x00000FFF }
  | .pigeonData _ _ => { rw := 0xFFFFFFFF }
  | .pigeonSend _ => { wo := 0x00000007 }
  | .pigeonStat _ => { w1c := 0x38000000 }
  | .pigeonTake _ => { wo := 0x00000001 }
  | .pigeonFrom _ => { reset := 0xF0000000 }
  | .pigeonOwn _ => { st := 0xFF80FFFF }
  | .pigeonTimeout => { rw := 0x0000FFFF, reset := 0x000003E8 }
  | .pigeonPendLo => {}
  | .pigeonPendHi => {}
  | .pigeonCommit => { rw := 0x00000002, wo := 0x00000001 }
  | .dmaChctl _ => { rw := 0xBFE00000, wo := 0x40000000 }
  | .dmaChstat _ => { w1c := 0x04000000 }
  | .dmaChstartLo _ => { rw := 0xFFFFFFFF }
  | .dmaChstartHi _ => { rw := 0xFFFFFFFF }
  | .dmaChcurLo _ => {}
  | .dmaChcurHi _ => {}
  | .dmaChtag _ => {}
  | .dmaChoff _ => {}
  | .dmaStat => {}
  | .dmaLdstat => { w1c := 0x40000000 }
  | .dmaLdconn _ => { ret := 0x20000000 }
  | .bellStat _ => { w1c := 0x18000000 }
  | .bellPnumLo _ => {}
  | .bellPnumHi _ => {}
  | .bellHcount _ => {}
  | .bellLcount _ => {}
  | .bellMargin _ => { reset := 0x00FFFFFF }
  | .bellHoldmax _ => { rw := 0x00FFFFFF, reset := 0x0003B9AC }
  | .bellLoghead _ => {}
  | .bellCommit _ => { rw := 0x00000002, wo := 0x00000001 }
  | .bellPeriod _ _ => { st := 0x0000FFFF }
  | .bellRecess _ _ => { st := 0x0000FFFF }
  | .bellWork _ _ => {}
  | .linkStat _ => { reset := 0x00003E00 }
  | .linkLanemap _ => { ret := 0x00007FFF, reset := 0x00003444 }
  | .linkErr _ => {}
  | .linkLanece _ => {}
  | .linkDelay _ => {}
  -- R211: ports 0 to 16 read 0 and ignore writes
  | .linkRelay l => if 17 ≤ l then { st := 0xC000001F } else {}
  | .linkRoll => {}
  | .linkRoom => { rw := 0x000001FF, ret := 0x000001FF }
  | .linkLanethr => { rw := 0x0000FFFF, ret := 0x0000FFFF, reset := 0x00000800 }
  | .linkCommit => { rw := 0x00000002, wo := 0x00000001 }
  | .watchStat _ => { w1c := 0xC0000000, reset := 0x0000FFFF }
  | .watchZerothr _ => { st := 0x000FFFFF, ret := 0x000FFFFF, reset := 0x000F3E58 }
  | .watchZerorun _ => { st := 0x8000FFFF, ret := 0x8000FFFF, reset := 0x80000040 }
  | .watchRechead _ => {}
  | .watchEvhead _ => {}
  | .watchCommit _ => { rw := 0x00000002, wo := 0x00000001 }
  | .checkMark _ => { w1c := 0x90000000 }
  | .checkMarkpnum _ => {}
  | .checkRecall _ => { rw := 0x00FF0000, reset := 0x00080000, busy := true }
  | .checkRpnum _ => {}
  | .checkBank _ => { rw := 0x001FFFFF, busy := true }
  | .checkBanksize _ => { rw := 0x001FFFFF, busy := true }
  | .checkMirror _ => { rw := 0xFFFF0000, reset := 0x00010400, busy := true }
  | .checkMbase _ => { rw := 0x001FFFFF, busy := true }
  | .checkMstage _ => { rw := 0x001FFFFF, busy := true }
  | .checkSeedLo _ => { rw := 0xFFFFFFFF, busy := true }
  | .checkSeedHi _ => { rw := 0xFFFFFFFF, busy := true }
  | .checkStepLo _ => {}
  | .checkStepHi _ => {}
  | .checkCstepLo _ => {}
  | .checkCstepHi _ => {}
  | .checkMstepLo _ => {}
  | .checkMstepHi _ => {}
  | .checkEdptr _ => {}
  | .checkEdwave _ => { w1c := 0x20000000 }
  | .checkEdstepLo _ => {}
  | .checkEdstepHi _ => {}
  | .checkTest => { rw := 0xFFFFF000, w1c := 0x00000800, ret := 0xFFFFF000, reset := 0x180A8000 }
  | .checkErrlog => {}
  | .checkTrans => { ret := 0xFFFF7FFF }
  | .powerStat => { w1c := 0x08000000, reset := 0x80000000 }
  | .powerLimit => { rw := 0x0000FFFF, ret := 0x0000FFFF, reset := 0x08980898 }
  | .powerTherm => { rw := 0xFF000000, reset := 0x5A000000 }
  | .powerInput => {}
  | .powerStretch _ => { rw := 0x0000FFFF }
  | .powerPart _ => {}
  | .secPartmap => { w1c := 0x80000000 }
  | .secPortown => { st := 0x003FFFFF }
  | .secBoot => {}
  | .secDebug => { ret := 0x4000FFFF }
  | .secCommit => { rw := 0x00000002, wo := 0x00000001 }
  | .secPstat _ => { ret := 0x08000000 }
  | .secPagebase _ => { st := 0x001FFFFF }
  | .secPagecnt _ => { st := 0x001FFFFF }
  | .fwStat => { w1c := 0x10000000, ret := 0x20000000 }
  | .fwMonstat => {}
  | .fwSlot _ => { ret := 0xE07FFFFF }
  | .testStat => { ret := 0x0000FFFF }
  | .testDawn => {}
  | .testDusk => { ret := 0xC00000FF }
  | .testItem => { reset := 0xFF000000 }
  | .testRetain => { ret := 0x8000001F }
  | .tileMxres _ => { w1c := 0x80000000 }
  | .tileMxinj _ => { wo := 0x00000001 }
  | .tileMemerr _ => { w1c := 0x80000000 }
  | .tileMemaddr _ => {}
  | .tileAplan _ => { st := 0x83FF03FF }
  | .tileAspillb _ => { st := 0x001FFFFF }
  | .tileAspills _ => { st := 0x0000FFFF }
  | .tileAstat _ => { w1c := 0x00000020 }
  | .tileVxflags _ => { w1c := 0xF8000000 }
  | .tilePad _ => { rw := 0x000000FF, busy := true }
  | .tileTgrid _ _ => {}
  | .tileToken _ _ => {}
  | .tileCommit _ => { rw := 0x00000002, wo := 0x00000001 }
  | .tileRegion _ _ => { rw := 0xFFF803FF, busy := true }
  | .tileReged _ _ => { rw := 0xFFFFFFFF, busy := true }
  | .tileRegcnt _ _ => {}
  | .tileEdslot _ _ => {}
  | .tileEdslotr _ _ => {}

/-- The register that lies at offset `o` of tile window `t` (R418, R421). -/
def tileRegAt (t o : Nat) : Option Reg :=
  if o < 0x80 then
    match o with
    | 0x40 => some (.tileMxres t) | 0x44 => some (.tileMxinj t) | 0x48 => some (.tileMemerr t)
    | 0x4C => some (.tileMemaddr t) | 0x50 => some (.tileAplan t) | 0x54 => some (.tileAspillb t)
    | 0x58 => some (.tileAspills t) | 0x5C => some (.tileAstat t) | 0x60 => some (.tileVxflags t)
    | 0x64 => some (.tilePad t) | _ => none
  else if o < 0xC0 then some (.tileTgrid t ((o - 0x80) / 4))
  else if o < 0xD0 then some (.tileToken t ((o - 0xC0) / 4))
  else if o = 0xFC then some (.tileCommit t)
  else if o < 0x200 then none
  else if o < 0x600 then
    match o % 16 with
    | 0 => some (.tileRegion t ((o - 0x200) / 16)) | 4 => some (.tileReged t ((o - 0x200) / 16))
    | 8 => some (.tileRegcnt t ((o - 0x200) / 16)) | _ => none
  else if 0x608 ≤ o ∧ o < 0x700 then
    if o % 8 = 0 then some (.tileEdslot t ((o - 0x600) / 8)) else some (.tileEdslotr t ((o - 0x600) / 8))
  else none

/-- The registers of a block that exist once per partition, by the offset within the copy. -/
def partRegAt (blk o : Nat) (p : Bool) : Option Reg :=
  match blk with
  | 4 =>
    if 0x100 ≤ o ∧ o < 0x140 then some (.bellPeriod p ((o - 0x100) / 4))
    else if 0x140 ≤ o ∧ o < 0x180 then some (.bellRecess p ((o - 0x140) / 4))
    else if 0x180 ≤ o ∧ o < 0x1C0 then some (.bellWork p ((o - 0x180) / 4))
    else match o with
      | 0x00 => some (.bellStat p) | 0x04 => some (.bellPnumLo p) | 0x08 => some (.bellPnumHi p)
      | 0x10 => some (.bellHcount p) | 0x14 => some (.bellLcount p) | 0x18 => some (.bellMargin p)
      | 0x1C => some (.bellHoldmax p) | 0x20 => some (.bellLoghead p) | 0xFC => some (.bellCommit p) | _ => none
  | 6 =>
    match o with
    | 0x00 => some (.watchStat p) | 0x04 => some (.watchZerothr p) | 0x08 => some (.watchZerorun p)
    | 0x0C => some (.watchRechead p) | 0x10 => some (.watchEvhead p) | 0xFC => some (.watchCommit p) | _ => none
  | 7 =>
    match o with
    | 0x000 => some (.checkMark p) | 0x004 => some (.checkMarkpnum p) | 0x008 => some (.checkRecall p)
    | 0x00C => some (.checkRpnum p) | 0x400 => some (.checkBank p) | 0x404 => some (.checkBanksize p)
    | 0x408 => some (.checkMirror p) | 0x40C => some (.checkMbase p) | 0x410 => some (.checkMstage p)
    | 0x414 => some (.checkSeedLo p) | 0x418 => some (.checkSeedHi p) | 0x420 => some (.checkStepLo p)
    | 0x424 => some (.checkStepHi p) | 0x428 => some (.checkCstepLo p) | 0x42C => some (.checkCstepHi p)
    | 0x430 => some (.checkMstepLo p) | 0x434 => some (.checkMstepHi p) | 0x500 => some (.checkEdptr p)
    | 0x504 => some (.checkEdwave p) | 0x508 => some (.checkEdstepLo p) | 0x50C => some (.checkEdstepHi p)
    | _ => none
  | 8 => match o with | 0x10 => some (.powerStretch p) | 0x100 => some (.powerPart p) | _ => none
  | 9 =>
    match o with
    | 0x100 => some (.secPstat p) | 0x104 => some (.secPagebase p) | 0x108 => some (.secPagecnt p) | _ => none
  | _ => none

/-- The registers that exist once in their block, by block and offset. -/
def sharedRegAt (blk o : Nat) : Option Reg :=
  match blk with
  | 0 =>
    match o with
    | 0x00 => some .officeId | 0x04 => some (.officeSerial 0) | 0x08 => some (.officeSerial 1)
    | 0x0C => some (.officeSerial 2) | 0x10 => some (.officeSerial 3) | 0x14 => some .officeStrap
    | 0x18 => some .officeMacLo | 0x1C => some .officeMacHi | 0x20 => some .officeAccerr
    | 0x24 => some .officeAccaddr | 0x100 => some .officeStashCe | 0x104 => some .officeStashUe | _ => none
  | 1 =>
    let h := decide (0x8000 ≤ o)
    let q := o % 0x8000
    if q = 0 then some (.cmdDoorbell h)
    else if q = 4 then some (.cmdStat h)
    else if 0x100 ≤ q ∧ q < 0x140 then some (.cmdDbpend h ((q - 0x100) / 4))
    else if 0x1000 ≤ q ∧ q < 0x3000 then
      let r := (q - 0x1000) / 32
      match q % 32 with
      | 0x00 => some (.cmdCbaseLo h r) | 0x04 => some (.cmdCbaseHi h r) | 0x08 => some (.cmdRbaseLo h r)
      | 0x0C => some (.cmdRbaseHi h r) | 0x10 => some (.cmdRctl h r) | 0x14 => some (.cmdCtail h r)
      | 0x18 => some (.cmdChead h r) | 0x1C => some (.cmdRhead h r) | _ => none
    else none
  | 2 =>
    if o < 0x2000 then
      let g := o / 0x80
      let q := o % 0x80
      if q < 0x40 then some (.pigeonData (q / 4) g)
      else match q with
        | 0x40 => some (.pigeonSend g) | 0x44 => some (.pigeonStat g) | 0x48 => some (.pigeonTake g)
        | 0x4C => some (.pigeonFrom g) | 0x50 => some (.pigeonOwn g) | _ => none
    else match o with
      | 0x2000 => some .pigeonTimeout | 0x2004 => some .pigeonPendLo | 0x2008 => some .pigeonPendHi
      | 0x20FC => some .pigeonCommit | _ => none
  | 3 =>
    if o < 0x4000 then
      let c := o / 32
      match o % 32 with
      | 0x00 => some (.dmaChctl c) | 0x04 => some (.dmaChstat c) | 0x08 => some (.dmaChstartLo c)
      | 0x0C => some (.dmaChstartHi c) | 0x10 => some (.dmaChcurLo c) | 0x14 => some (.dmaChcurHi c)
      | 0x18 => some (.dmaChtag c) | 0x1C => some (.dmaChoff c) | _ => none
    else if o = 0x4000 then some .dmaStat
    else if o = 0x4010 then some .dmaLdstat
    else if 0x4100 ≤ o ∧ o < 0x4140 then some (.dmaLdconn ((o - 0x4100) / 4))
    else none
  | 5 =>
    if o < 0x500 then
      let l := o / 0x40
      match o % 0x40 with
      | 0x00 => some (.linkStat l) | 0x04 => some (.linkLanemap l) | 0x08 => some (.linkErr l)
      | 0x0C => some (.linkLanece l) | 0x10 => some (.linkDelay l) | 0x14 => some (.linkRelay l) | _ => none
    else match o with
      | 0x800 => some .linkRoll | 0x804 => some .linkRoom | 0x808 => some .linkLanethr
      | 0x8FC => some .linkCommit | _ => none
  | 7 =>
    match o with
    | 0x1000 => some .checkTest | 0x1004 => some .checkErrlog | 0x1008 => some .checkTrans | _ => none
  | 8 =>
    match o with
    | 0x00 => some .powerStat | 0x04 => some .powerLimit | 0x08 => some .powerTherm | 0x0C => some .powerInput
    | _ => none
  | 9 =>
    match o with
    | 0x00 => some .secPartmap | 0x04 => some .secPortown | 0x10 => some .secBoot | 0x18 => some .secDebug
    | 0xFC => some .secCommit | _ => none
  | 10 =>
    match o with
    | 0x00 => some .fwStat | 0x04 => some .fwMonstat | 0x10 => some (.fwSlot false) | 0x20 => some (.fwSlot true)
    | _ => none
  | 11 =>
    match o with
    | 0x00 => some .testStat | 0x04 => some .testDawn | 0x08 => some .testDusk | 0x0C => some .testItem
    | 0x10 => some .testRetain | _ => none
  | _ => none

/-- The register at an office address; none where the space holds no register (R413, R415). -/
def regAt (a : Nat) : Option Reg :=
  if a % 4 ≠ 0 then none
  else if 0x100000 ≤ a then (if a < 0xAC4000 then tileRegAt ((a - 0x100000) / 0x1000) (a % 0x1000) else none)
  else
    match sharedRegAt (a / 0x10000) (a % 0x10000) with
    | some r => some r
    | none =>
      let o := a % 0x10000
      if o < 0x800 then partRegAt (a / 0x10000) o false
      else if o < 0x1000 then partRegAt (a / 0x10000) (o - 0x800) true
      else none

/-- The Reset entry of the word at an office address (R16); 0 where no register lies (R415). -/
def resetWord (a : Nat) : Word :=
  match regAt a with
  | some r => r.info.reset
  | none => 0

/-- The value in effect of the word at an office address. -/
def State.word (s : State) (a : Nat) : Word := Bank.get resetWord s.office a

/-- The part with the value in effect at an office address changed. -/
def State.setWord (s : State) (a : Nat) (w : Word) : State :=
  { s with office := Bank.set resetWord s.office a w }

/-- The value in effect of a register. -/
def State.reg (s : State) (r : Reg) : Word := s.word r.addr

/-- The part with a register's value in effect changed. -/
def State.setReg (s : State) (r : Reg) (w : Word) : State := s.setWord r.addr w

/-- Field [hi:lo] of a register. -/
def State.regFld (s : State) (r : Reg) (hi lo : Nat) : Nat := fld (s.reg r) hi lo

/-- Bit n of a register. -/
def State.regBit (s : State) (r : Reg) (n : Nat) : Bool := (s.reg r).toNat.testBit n

/-- The part with field [hi:lo] of a register set. -/
def State.setRegFld (s : State) (r : Reg) (hi lo v : Nat) : State := s.setReg r (setFld (s.reg r) hi lo v)

/-- The part with bit n of a register set. -/
def State.setRegBit (s : State) (r : Reg) (n : Nat) (b : Bool) : State := s.setRegFld r n n (b2n b)

/-- A 64-bit register as its two words (R233). -/
def State.reg64 (s : State) (lo hi : Reg) : BitVec 64 := (s.reg hi) ++ (s.reg lo)

/-- The part with a 64-bit register set. -/
def State.setReg64 (s : State) (lo hi : Reg) (v : BitVec 64) : State :=
  (s.setReg lo (v.extractLsb' 0 32)).setReg hi (v.extractLsb' 32 32)

/-- CHECK_STEP of a partition (R233). -/
def State.step64 (s : State) (p : Bool) : BitVec 64 := s.reg64 (.checkStepLo p) (.checkStepHi p)
/-- CHECK_CSTEP of a partition (R233). -/
def State.cstep64 (s : State) (p : Bool) : BitVec 64 := s.reg64 (.checkCstepLo p) (.checkCstepHi p)
/-- CHECK_MSTEP of a partition (R233). -/
def State.mstep64 (s : State) (p : Bool) : BitVec 64 := s.reg64 (.checkMstepLo p) (.checkMstepHi p)
/-- The part with CHECK_STEP set. -/
def State.setStep64 (s : State) (p : Bool) (v : BitVec 64) : State := s.setReg64 (.checkStepLo p) (.checkStepHi p) v
/-- The part with CHECK_CSTEP set. -/
def State.setCstep64 (s : State) (p : Bool) (v : BitVec 64) : State := s.setReg64 (.checkCstepLo p) (.checkCstepHi p) v
/-- The part with CHECK_MSTEP set. -/
def State.setMstep64 (s : State) (p : Bool) (v : BitVec 64) : State := s.setReg64 (.checkMstepLo p) (.checkMstepHi p) v

end Sys2Proof.Machine
end

