-- ==== Sys2Proof/Machine/Ops.lean ====
section
/-! DEFINITION. Operations shared by the meanings: units, partitions and the grid mapping (R130, R177), marks (R254,
R255), error records, the transcript (R276 to R279), record rings, and the watch counters (R284, R285). -/

set_option Elab.async false

namespace Sys2Proof.Machine

/-! ### Units -/

/-- A tile that the store does not list. -/
def noTile : Nat → Tile := fun _ => {}
/-- A port that the store does not list. -/
def noPort : Nat → Port := fun _ => {}
/-- A DMA channel that the store does not list. -/
def noChan : Nat → Channel := fun _ => {}

/-- Physical tile t (R130). -/
def State.tile (s : State) (t : Nat) : Tile := Bank.get noTile s.tiles t
/-- The part with physical tile t changed. -/
def State.setTile (s : State) (t : Nat) (x : Tile) : State := { s with tiles := Bank.set noTile s.tiles t x }
/-- Partition p: false 0, true 1. -/
def State.part (s : State) (p : Bool) : Part := if p then s.part1 else s.part0
/-- The part with partition p changed. -/
def State.setPart (s : State) (p : Bool) (x : Part) : State := if p then { s with part1 := x } else { s with part0 := x }
/-- Port l. -/
def State.port (s : State) (l : Nat) : Port := Bank.get noPort s.ports l
/-- The part with port l changed. -/
def State.setPort (s : State) (l : Nat) (x : Port) : State := { s with ports := Bank.set noPort s.ports l x }
/-- DMA channel c. -/
def State.chan (s : State) (c : Nat) : Channel := Bank.get noChan s.chans c
/-- The part with DMA channel c changed. -/
def State.setChan (s : State) (c : Nat) (x : Channel) : State := { s with chans := Bank.set noChan s.chans c x }
/-- The part with something sent to the outside. -/
def State.emit (s : State) (o : Out) : State := { s with out := s.out ++ [o] }
/-- The part with one more free value drawn. -/
def State.draw (s : State) : State := { s with free := s.free + 1 }

/-! ### Partitions and mapping -/

/-- The partition that field f belongs to (SEC_PARTMAP, R360). -/
def State.fieldPart (s : State) (f : Nat) : Option Bool :=
  if s.regBit .secPartmap f then some false
  else if s.regBit .secPartmap (4 + f) then some true else none

/-- The partition of physical tile t. -/
def State.tilePart (s : State) (t : Nat) : Option Bool := s.fieldPart (t / 625)

/-- Whether partition p's bells run (R167). -/
def State.running (s : State) (p : Bool) : Bool := s.regBit (.bellStat p) 31

/-- Whether the principal is being restarted, by an activation, a fallback or a watchdog lapse (R367, R371, R373). -/
def State.fwPaused (s : State) : Bool := s.fw.act.any (·.started)

/-- Whether partition p runs the rebuild of R228. -/
def State.rebuilding (s : State) (p : Bool) : Bool :=
  match (s.part p).rcl with
  | some r => decide (r.phase = .rebuild)
  | none => false

/-- Whether the substitution map excludes physical tile t: retained, or fused at the factory (R177, R272). -/
def State.tileExcluded (s : State) (t : Nat) : Bool := s.retained.exTiles.contains t || s.fuses.exTiles.contains t

/-- Spare tiles of a strip: 1 on grade A, 3 on grade B (R6). -/
def State.spares (s : State) : Nat := if s.fuses.gradeB then 3 else 1

/-- Whether the map excludes strip n = 25·f + s: named, or with more excluded tiles than its spares cover (R177). -/
def State.stripExcluded (s : State) (n : Nat) : Bool :=
  s.retained.exStrips.contains n || s.fuses.exStrips.contains n ||
    decide (s.spares < ((List.range 25).filter (fun k => s.tileExcluded (25 * n + k))).length)

/-- The strips of field f that the map does not exclude, north to south. -/
def State.usableStrips (s : State) (f : Nat) : List Nat :=
  ((List.range 25).map (25 * f + ·)).filter (fun n => !s.stripExcluded n)

/-- The tiles of strip n that the map does not exclude, west to east. -/
def State.usableTiles (s : State) (n : Nat) : List Nat :=
  ((List.range 25).map (25 * n + ·)).filter (fun t => !s.tileExcluded t)

/-- Columns of a field for a virtual grid of `cols` columns (R168, R177). -/
def gridW (cols : Nat) : Nat := cols / 2

/-- The tiles of field f that a grid of w columns a field uses, in grid order (R177). -/
def State.fieldTiles (s : State) (f w : Nat) : List Nat :=
  ((s.usableStrips f).take 24).flatMap fun n => (s.usableTiles n).take w

/-- The physical tile of grid (row, col) for a lesson of `cols` columns (R177). -/
def State.physTile (s : State) (cols row col : Nat) : Option Nat :=
  let w := gridW cols
  if 48 ≤ row ∨ 2 * w ≤ col then none
  else
    match (s.usableStrips (2 * (row / 24) + col / w))[row % 24]? with
    | some n => (s.usableTiles n)[col % w]?
    | none => none

/-- The grid place of physical tile t for a lesson of `cols` columns; none for a spare or an excluded tile. -/
def State.gridOf (s : State) (cols t : Nat) : Option (Nat × Nat) :=
  let f := t / 625
  match (s.usableStrips f).findIdx? (· == t / 25), (s.usableTiles (t / 25)).findIdx? (· == t) with
  | some i, some j =>
    if i < 24 ∧ j < gridW cols then some (24 * (f / 2) + i, gridW cols * (f % 2) + j) else none
  | _, _ => none

/-- The lesson that partition p has loaded. -/
def State.lesson (s : State) (p : Bool) : Option Lesson := (s.part p).lesson

/-- The physical tiles that partition p's lesson uses, in grid row-major order; only tiles of p's own fields. -/
def State.lessonTiles (s : State) (p : Bool) : List Nat :=
  match s.lesson p with
  | none => []
  | some l => ((List.range 48).flatMap fun r => (List.range l.cols).filterMap fun c => s.physTile l.cols r c).filter
      fun t => decide (s.tilePart t = some p)

/-- The fields of partition p as a 4-bit set. -/
def State.partFields (s : State) (p : Bool) : Nat := if p then s.regFld .secPartmap 7 4 else s.regFld .secPartmap 3 0

/-- Every physical tile of partition p's fields. -/
def State.partTiles (s : State) (p : Bool) : List Nat :=
  (List.range 2500).filter fun t => decide (s.tilePart t = some p)

/-- Applies a change to every tile of a list. -/
def State.mapTiles (s : State) (ts : List Nat) (f : Tile → Tile) : State :=
  ts.foldl (fun acc t => acc.setTile t (f (acc.tile t))) s

/-- The period number of partition p (R151, R167). -/
def State.pnum (s : State) (p : Bool) : BitVec 48 :=
  BitVec.ofNat 48 (s.regFld (.bellPnumHi p) 15 0 * 2 ^ 32 + (s.reg (.bellPnumLo p)).toNat)

/-- The part with partition p's period number changed. -/
def State.setPnum (s : State) (p : Bool) (n : BitVec 48) : State :=
  (s.setReg (.bellPnumLo p) (BitVec.ofNat 32 (n.toNat % 2 ^ 32))).setRegFld (.bellPnumHi p) 15 0 (n.toNat / 2 ^ 32)

/-- The attempt number of partition p (R151). -/
def State.attempt (s : State) (p : Bool) : Nat := s.regFld (.bellPnumHi p) 31 24

/-- The part's seat strap (R411). -/
def State.seat (s : State) : Nat := s.regFld .officeStrap 4 0

/-- The part's room, packed as in R161: LINK_ROOM as the latest roll call found it (R199). -/
def State.room (s : State) : Nat := s.roomNow.toNat

/-! ### Record rings -/

/-- A ring with an entry written at its next index; counts an unread entry that this overwrites (R163). -/
def Ring.push (r : Ring) (cap maxLost : Nat) (e : Bytes) : Ring :=
  { ents := Bank.set (fun _ => []) r.ents r.head e
    head := (r.head + 1) % cap
    unread := if r.unread < cap then r.unread + 1 else cap
    lost := if r.unread < cap then r.lost else satAdd maxLost r.lost 1 }

/-! ### Transcript -/

/-- Thirty days of R279 in nanoseconds. -/
def thirtyDays : Nat := 30 * 24 * 3600 * 1000000000

/-- A wall time [63:30] seconds, [29:0] nanoseconds, in nanoseconds (R276). -/
def wallNs (w : BitVec 64) : Nat := bits w.toNat 63 30 * 1000000000 + bits w.toNat 29 0

/-- Whether a fault at b lies within 30 days of one at a; wall time 0 lies within 30 days of every other (R279). -/
def within30 (a b : BitVec 64) : Bool := a == 0 || b == 0 || decide (wallNs b ≤ wallNs a + thirtyDays)

/-- A location entry with one more fault (R278, R279); `now` forces the class (a failed test). -/
def LocEnt.fault (e : LocEnt) (wall : BitVec 64) (now : Bool) : LocEnt :=
  { e with
    times := (wall :: e.times).take 3
    count := e.count + 1
    perm := e.perm || now || (decide (2 ≤ e.count) && within30 e.first wall) }

/-- The index of the transient entry whose last fault is the oldest (R278). -/
def oldestTransient (ls : List LocEnt) : Option Nat :=
  ((ls.zipIdx).foldl (fun (acc : Option (Nat × Nat)) x =>
    if x.1.perm then acc
    else
      let w := wallNs (x.1.times.headD 0)
      match acc with
      | some (b, i) => if w < b then some (w, x.2) else some (b, i)
      | none => some (w, x.2)) none).map (·.2)

/-- The location table with a fault at a key: the entry updated, or a new one, the oldest transient giving way in a full
table (R278, R279). -/
def faultAt (ls : List LocEnt) (key : Bytes) (wall : BitVec 64) (now : Bool) : List LocEnt :=
  if ls.any (fun e => e.key == key) then
    ls.map (fun e => if e.key == key then e.fault wall now else e)
  else
    let fresh : LocEnt := { key := key, first := wall, times := [wall], count := 1, perm := now }
    if ls.length < 16384 then ls ++ [fresh]
    else
      match oldestTransient ls with
      | some i => ls.eraseIdx i ++ [fresh]
      | none => ls

/-- CHECK_TRANS from the location table (R282). -/
def transWord (ls : List LocEnt) : Word :=
  BitVec.ofNat 32 (((ls.filter (·.perm)).length % 65536) * 65536 + ls.length % 32768)

/-! ### Error records -/

/-- What an error record says of its event (R276, R277); `part` none is 0xFF. -/
structure ErrEv where
  code : Nat
  cls  : Nat
  kind : Nat
  unit : Bytes := [0, 0, 0]
  part : Option Bool := none
  op   : Nat := 0xFFFF
  cyc  : Nat := 0
  loc  : Nat := 0
  syn  : Bytes := []
  deriving DecidableEq, Repr

/-- The event codes that count as faults (R277). -/
def faultCode (c : Nat) : Bool :=
  [0x01, 0x02, 0x10, 0x11, 0x20, 0x21, 0x50, 0x52, 0x81, 0x83, 0x85, 0x90, 0x91].contains c

/-- The 64 bytes of an error record (R276). -/
def State.errBytes (s : State) (e : ErrEv) : Bytes :=
  let per := match e.part with | some p => (s.pnum p).toNat | none => 0
  let att := match e.part with | some p => s.attempt p | none => 0
  padTo 64 (toLE 2 e.code ++ toLE 1 e.cls ++ toLE 1 e.kind ++ padTo 3 e.unit
    ++ toLE 1 (match e.part with | some p => b2n p | none => 0xFF)
    ++ toLE 2 e.op ++ toLE 6 per ++ toLE 1 att ++ [0] ++ toLE 4 e.cyc
    ++ toLE 2 (Config.localTemp s.free).toNat ++ toLE 8 s.wall.toNat ++ toLE 2 (Config.localVolts s.free).toNat
    ++ toLE 1 s.seat ++ [0] ++ toLE 2 s.room ++ [0, 0] ++ toLE 8 e.loc ++ padTo 16 e.syn)

/-- Writes an error record to its ring (CHECK_ERRLOG) and a fault to the transcript (R276, R278, R279). -/
def State.logErr (s : State) (e : ErrEv) : State :=
  let b := s.errBytes e
  let ring := { s.errRing with head := s.regFld .checkErrlog 15 0, lost := s.regFld .checkErrlog 31 16 }.push 65536 65535 b
  let s1 := { s with errRing := ring, free := s.free + 1 }
  let s2 := s1.setReg .checkErrlog (BitVec.ofNat 32 (ring.lost * 65536 + ring.head))
  if faultCode e.code then
    let key := toLE 1 e.kind ++ padTo 3 e.unit ++ toLE 8 e.loc
    let locs := faultAt s2.retained.locs key s2.wall (decide (e.code = 0x81 ∧ e.kind = 0))
    { s2 with retained := { s2.retained with locs := locs, faults := s2.retained.faults.push 131072 65535 b } }.setReg
      .checkTrans (transWord locs)
  else s2

/-- The unit bytes of a tile: field, strip, tile (R276). -/
def tileUnit (t : Nat) : Bytes := toLE 1 (t / 625) ++ toLE 1 (t / 25 % 25) ++ toLE 1 (t % 25)

/-- A fence as an error record (R271, R277): the scope's place in R271's table (0 queue, 1 tile, 2 port, 3 partition, 4 part) and a
cause field of R255. -/
def State.fenceRec (s : State) (p : Option Bool) (kind : Nat) (unit : Bytes) (scope causes : Nat) : State :=
  s.logErr { code := 0x0080, cls := 2, kind := kind, unit := unit, part := p, loc := scope, syn := toLE 4 causes }

/-- Fences a tile (R271, R275). -/
def State.fenceTile (s : State) (t : Nat) : State :=
  (s.setTile t { s.tile t with fenced := true }).fenceRec (s.tilePart t) 0 (tileUnit t) 1 0

/-- The context of a tile instruction: tile, cycle offset (its issue cycle plus the tile's slip), operation bytes 8–9 of
R276. -/
structure Ctx where
  t   : Nat
  cyc : Nat
  op  : Nat
  deriving DecidableEq, Repr

/-- Operation bytes of R276: major opcode, function, pipe. -/
def opBytes (major fn pipe : Nat) : Nat := major * 1024 + fn * 16 + pipe * 4

/-- An error record of a tile event. -/
def State.tileErr (s : State) (c : Ctx) (code cls loc : Nat) (syn : Bytes) : State :=
  s.logErr { code := code, cls := cls, kind := 0, unit := tileUnit c.t, part := s.tilePart c.t, op := c.op, cyc := c.cyc,
             loc := loc, syn := syn }

/-! ### Marks -/

/-- Sets a cause bit of R255 in a tile's mark for the period. -/
def State.markTile (s : State) (t cause : Nat) : State :=
  let x := s.tile t
  s.setTile t { x with causes := x.causes ||| BitVec.ofNat 32 (2 ^ cause) }

/-- Sets a cause bit of the part's own events in partition p's mark for the period (R256). -/
def State.markPart (s : State) (p : Bool) (cause : Nat) : State :=
  let x := s.part p
  s.setPart p { x with causes := x.causes ||| BitVec.ofNat 32 (2 ^ cause) }

/-! ### Numeric watch -/

/-- What one counted value adds to its tensor's counters (R285). -/
structure Tick where
  write   : Bool := false
  tz      : Bool := false
  bz      : Bool := false
  sat     : Nat := 0
  nonfin  : Bool := false
  zeroEl  : Bool := false
  code    : Nat := 0
  lr      : Bool := false
  deriving DecidableEq, Repr

/-- The largest value of the 64-bit counters, and of ZEROELEM and LANERANGE (R287). -/
def counterMax : Nat := 2 ^ 64 - 1

/-- The counters of a tensor with one counted value added; a counter that stops at its maximum sets flag [2]. -/
def Counts.tick (c : Counts) (k : Tick) : Counts :=
  let past := decide (counterMax < c.writes + b2n k.write) || decide (counterMax < c.trueZero + b2n k.tz)
    || decide (counterMax < c.bgZero + b2n k.bz) || decide (counterMax < c.sat + k.sat)
    || decide (counterMax < c.nonfin + b2n k.nonfin) || decide (0xFFFFFFFF < c.zeroElem + b2n k.zeroEl)
    || decide (0xFFFFFFFF < c.laneRange + b2n k.lr)
  { c with
    writes := satAdd counterMax c.writes (b2n k.write)
    trueZero := satAdd counterMax c.trueZero (b2n k.tz)
    bgZero := satAdd counterMax c.bgZero (b2n k.bz)
    sat := satAdd counterMax c.sat k.sat
    nonfin := satAdd counterMax c.nonfin (b2n k.nonfin)
    zeroElem := satAdd 0xFFFFFFFF c.zeroElem (b2n k.zeroEl)
    laneRange := satAdd 0xFFFFFFFF c.laneRange (b2n k.lr)
    maxCode := if c.maxCode.toNat < k.code then BitVec.ofNat 8 k.code else c.maxCode
    flags := if past then c.flags ||| 4 else c.flags }

/-- The key of a tensor's counters in a step. -/
def watchKey (step : BitVec 64) (w : Nat) : Nat := step.toNat * 4096 + w

/-- The counters that the store does not list. -/
def noCounts : Nat → Counts := fun _ => {}

/-- Whether the lesson declares watch number w (R283). -/
def Lesson.watches (l : Lesson) (w : Nat) : Bool := l.tensors.any fun e => e.watch == w && decide (w < 4096)

/-- Counts values against watch number w of partition p in the present step; an undeclared number sets UNDECL and counts
nothing (R284, R285, R292), and a rebuild's repeated work belongs to no record (R286). -/
def State.count (s : State) (p : Bool) (w : Nat) (ks : List Tick) : State :=
  match s.lesson p with
  | some l =>
    if l.watches w then
      if s.rebuilding p then s
      else
      let key := watchKey (s.step64 p) w
      let x := s.part p
      let c := ks.foldl Counts.tick (Bank.get noCounts x.watch key)
      s.setPart p { x with watch := Bank.set noCounts x.watch key c }
    else if ks.isEmpty then s else s.setRegBit (.watchStat p) 30 true
  | none => if ks.isEmpty then s else s.setRegBit (.watchStat p) 30 true

/-- Counts values of a tile instruction. -/
def State.countTile (s : State) (t w : Nat) (ks : List Tick) : State :=
  match s.tilePart t with
  | some p => s.count p w ks
  | none => s

/-- The counting tick of a value written in a format: exact value zero or not, and how it rounded. -/
def tickOf (exactZero : Bool) (r : Rounded) (stored : FVal) : Tick :=
  { write := true
    tz := exactZero && !r.nan
    bz := !exactZero && !r.nan && stored.zero
    sat := b2n (r.ovf && !r.nan)
    nonfin := r.nan
    code := codeOf stored }

end Sys2Proof.Machine
end

