-- ==== Sys2Proof/Machine/Mem.lean ====
section
/-! DEFINITION. Desk, shelf and stash memory: reads and writes with the outcomes of R125, R126, R219 and R423, the stash
controllers (R122, R128, R422), page translation (R124, R318) and the bank windows (R221). -/

set_option Elab.async false

namespace Sys2Proof.Machine

/-! ### Desk and shelf -/

/-- The canonical form of a memory: addresses strictly rising, nothing listed that an unlisted address reads as. -/
abbrev Memory.wf (m : Bank Byte) : Prop := Bank.wf zeroByte m

/-- Bytes of desk (false) or shelf (true) memory (R118, R119). -/
def memSize (shelf : Bool) : Nat := if shelf then 0x400000 else 0x100000

/-- The bytes of a tile's desk or shelf memory. -/
def Tile.mem (x : Tile) (shelf : Bool) : Bank Byte := if shelf then x.shelf else x.desk

/-- A tile with its desk or shelf memory changed. -/
def Tile.setMem (x : Tile) (shelf : Bool) (m : Bank Byte) : Tile := if shelf then { x with shelf := m } else { x with desk := m }

/-- K elements of a weight block of 20 columns (R69). -/
def blockDepth (fmt : Nat) : Nat := match fmt with | 0 => 20 | 3 => 80 | 4 => 20 | _ => 40

/-- Bytes of a weight block (R69). -/
def blockSize (fmt : Nat) : Nat := match fmt with | 3 => 880 | 4 => 1600 | _ => 800

/-- From one weight block of a placement to the next: each begins on a 64-byte boundary (R69). -/
def blockStride (fmt : Nat) : Nat := (blockSize fmt + 63) / 64 * 64

/-- The key of a 64-bit word in a tile's error marks. -/
def errKey (shelf : Bool) (addr : Nat) : Nat := 2 ^ 20 * b2n shelf + addr / 8

/-- The mark of a word: 0 none, 1 a correctable error, 2 an uncorrectable one, 3 poisoned. -/
def noErr : Nat → BitVec 2 := fun _ => 0

/-- A memory address as an error record's location: bit 63 the space (R277). -/
def memLoc (shelf : Bool) (addr : Nat) : Nat := 2 ^ 63 * b2n shelf + addr

/-- The range fault of R423: mark bad, cause bit 3, record 0x0031 with the first byte address beyond the memory. -/
def State.rangeFault (s : State) (c : Ctx) (shelf : Bool) (addr : Nat) : State :=
  let at_ := if addr < memSize shelf then memSize shelf else addr
  (s.markTile c.t 3).tileErr c 0x0031 1 (memLoc shelf at_) []

/-- The context of an engine's or a queue's access to a tile's memory: no instruction. -/
def queueCtx (t : Nat) : Ctx := { t := t, cyc := 0, op := 0xFFFF }

/-- The outcome of reading a word that is marked (R125): an uncorrectable one always sets TILE_MEMERR and TILE_MEMADDR
(R142). `bad` says that the tile's mark changes (a scrub's and a DMA channel's read do not change it: R127, R321). -/
def State.wordRead (s : State) (c : Ctx) (shelf : Bool) (addr : Nat) (bad : Bool) : State :=
  let k := errKey shelf addr
  let x := s.tile c.t
  let w := addr / 8 * 8
  if Bank.get noErr x.errs k = 0 then s
  else if Bank.get noErr x.errs k = 1 then
    let s1 := (s.tileErr c 0x0001 0 (memLoc shelf w) (toLE 16 (Config.eccSyndrome s.free).toNat)).draw
    let f := if shelf then s1.regFld (.tileMemerr c.t) 11 0 else s1.regFld (.tileMemerr c.t) 23 12
    let s2 := if shelf then s1.setRegFld (.tileMemerr c.t) 11 0 (satAdd 4095 f 1)
              else s1.setRegFld (.tileMemerr c.t) 23 12 (satAdd 4095 f 1)
    let y := s2.tile c.t
    s2.setTile c.t { y with wb := if y.wb.contains k then y.wb else y.wb ++ [k] }
  else
    let s1 := s.setTile c.t { x with errs := Bank.set noErr x.errs k 3 }
    let s2 := (s1.tileErr c 0x0002 1 (memLoc shelf w) (toLE 16 (Config.eccSyndrome s1.free).toNat)).draw
    let s3 := s2.setReg (.tileMemerr c.t) (setFld (setFld (s2.reg (.tileMemerr c.t)) 31 31 1) 30 30 (b2n shelf))
    let s4 := s3.setReg (.tileMemaddr c.t) (BitVec.ofNat 32 (2 ^ 31 * b2n shelf + w))
    if bad then s4.markTile c.t 1 else s4

/-- The marked words of a range, lowest address first. -/
def Tile.markedIn (x : Tile) (shelf : Bool) (addr n : Nat) : List Nat :=
  (x.errs.filter fun e => decide (errKey shelf addr ≤ e.1) && decide (e.1 ≤ errKey shelf (addr + n - 1))).map
    fun e => (e.1 - 2 ^ 20 * b2n shelf) * 8

/-- The range check of one instruction or request over its accesses: the first that leaves the memory faults (R423). -/
def State.rangeCheck (s : State) (c : Ctx) (shelf : Bool) (accs : List (Nat × Nat)) : State :=
  match accs.find? fun x => decide (0 < x.2) && decide (memSize shelf < x.1 + x.2) with
  | some x => s.rangeFault c shelf x.1
  | none => s

/-- A read of `n` bytes but its range check: what lies beyond the memory reads 0 (R423), and each marked word has the
outcome of R125. -/
def State.readCore (s : State) (c : Ctx) (shelf : Bool) (addr n : Nat) : Bytes × State :=
  let x := s.tile c.t
  let size := memSize shelf
  let got := (List.range n).map fun i => if addr + i < size then Bank.byte (x.mem shelf) (addr + i) else 0
  (got, if n = 0 then s else (x.markedIn shelf addr (Nat.min n (size - addr))).foldl
    (fun acc w => acc.wordRead c shelf w true) s)

/-- A read of `n` bytes by an instruction or a queue. -/
def State.readMem (s : State) (c : Ctx) (shelf : Bool) (addr n : Nat) : Bytes × State :=
  let r := s.readCore c shelf addr n
  (r.1, r.2.rangeCheck c shelf [(addr, n)])

/-- A word's mark gone, and its write-back with it. -/
def State.cleanWord (s : State) (t k : Nat) : State :=
  let x := s.tile t
  s.setTile t { x with errs := Bank.set noErr x.errs k 0, wb := x.wb.filter (· != k) }

/-- What a write does to a marked word: one that it covers whole is clean after it; a partly written one is read first: a
correctable error is gone with the write, an uncorrectable or poisoned word stays poisoned with the outcome of R125 (R126). -/
def State.coverWord (s : State) (c : Ctx) (shelf : Bool) (w : Nat) (whole : Bool) : State :=
  let k := errKey shelf w
  if whole then s.cleanWord c.t k
  else if Bank.get noErr (s.tile c.t).errs k = 1 then (s.wordRead c shelf w true).cleanWord c.t k
  else s.wordRead c shelf w true

/-- The marked words that a write of n bytes reaches (R126). -/
def State.coverWords (s : State) (c : Ctx) (shelf : Bool) (addr n : Nat) : State :=
  ((s.tile c.t).markedIn shelf addr n).foldl (fun acc w =>
    acc.coverWord c shelf w (decide (addr ≤ w) && decide (w + 8 ≤ addr + n))) s

/-- The marked words that an engine's write reaches, given as the half-bytes that it writes: 2·address, + 1 for the high
nibble (R126). One leaf, one region copy or one image is one write (DESIGN CHOICE, log 107). -/
def State.coverHalves (s : State) (t : Nat) (shelf : Bool) (hs : List Nat) : State :=
  ((s.tile t).markedIn shelf 0 (memSize shelf)).foldl (fun acc w =>
    if hs.any (fun h => h / 16 * 8 == w) then
      acc.coverWord (queueCtx t) shelf w ((List.range 16).all fun i => hs.contains (2 * w + i))
    else acc) s

/-- The bytes of desk or shelf memory changed, nothing else. -/
def State.putMem (s : State) (t : Nat) (shelf : Bool) (addr : Nat) (b : Bytes) : State :=
  let x := s.tile t
  s.setTile t (x.setMem shelf (Bank.putBytes (x.mem shelf) addr b))

/-- A write but its range check: bytes beyond the memory are not written (R423). -/
def State.writeCore (s : State) (c : Ctx) (shelf : Bool) (addr : Nat) (b : Bytes) : State :=
  let kept := b.take (memSize shelf - addr)
  if kept.isEmpty then s else (s.coverWords c shelf addr kept.length).putMem c.t shelf addr kept

/-- A write by an instruction or a queue. -/
def State.writeMem (s : State) (c : Ctx) (shelf : Bool) (addr : Nat) (b : Bytes) : State :=
  (s.writeCore c shelf addr b).rangeCheck c shelf [(addr, b.length)]

/-- Adjacent segments of one write as one. -/
def mergeSegs : List (Nat × Bytes) → List (Nat × Bytes)
  | [] => []
  | (a, x) :: rest =>
    match mergeSegs rest with
    | (b, y) :: more => if a + x.length = b then (a, x ++ y) :: more else (a, x) :: (b, y) :: more
    | [] => [(a, x)]

/-- One register's or row's write to desk memory in segments of rising addresses, but its range check. -/
def State.writeSegs (s : State) (c : Ctx) (segs : List (Nat × Bytes)) : State :=
  (mergeSegs segs).foldl (fun acc x => acc.writeCore c false x.1 x.2) s

/-- Reads in segments of rising addresses of desk memory, each marked word once, but their range check. -/
def State.readSegs (s : State) (c : Ctx) (segs : List (Nat × Nat)) : List Bytes × State :=
  let x := s.tile c.t
  let hit := (x.errs.map (·.1)).filter fun k =>
    segs.any fun g => decide (0 < g.2) && decide (errKey false g.1 ≤ k) && decide (k ≤ errKey false (g.1 + g.2 - 1))
  (segs.map fun g => (List.range g.2).map fun i =>
      if g.1 + i < memSize false then Bank.byte x.desk (g.1 + i) else 0,
   hit.foldl (fun acc k => acc.wordRead c false (8 * k) true) s)

/-- Poisons the words of a range (R128). -/
def State.poison (s : State) (t : Nat) (shelf : Bool) (addr n : Nat) : State :=
  let x := s.tile t
  let e := (List.range ((n + 7) / 8)).foldl (fun e i => Bank.set noErr e (errKey shelf (addr + 8 * i)) 3) x.errs
  s.setTile t { x with errs := e }

/-! ### Weight regions (R216, R219, R232) -/

/-- The valid region of a tile that holds a shelf byte address. -/
def State.regionAt (s : State) (t addr : Nat) : Option Nat :=
  (List.range 64).find? fun n =>
    let w := s.reg (.tileRegion t n)
    bit w.toNat 31 && decide (fld w 9 0 * 4096 ≤ addr) && decide (addr < (fld w 9 0 + fld w 29 19) * 4096)

/-- An edition fault: mark bad, cause bit 2, record 0x0030 with region, slot, EDITION and COUNT (R219, R277). -/
def State.editionFault (s : State) (c : Ctx) (region slot : Nat) : State :=
  (s.markTile c.t 2).tileErr c 0x0030 1 region
    (toLE 4 slot ++ toLE 4 (s.reg (.tileReged c.t region)).toNat ++ toLE 4 (s.regFld (.tileRegcnt c.t region) 15 0))

/-- The valid closed regions of a tile that a shelf range of n bytes reaches. -/
def State.closedIn (s : State) (t addr n : Nat) : List Nat :=
  (List.range 64).filter fun r =>
    let w := s.reg (.tileRegion t r)
    bit w.toNat 31 && decide (fld w 9 0 * 4096 < addr + n) && decide (addr < (fld w 9 0 + fld w 29 19) * 4096)
      && !s.regBit (.tileRegcnt t r) 31

/-- An edition fault for each closed region that a shelf write of n bytes lands in (R219). -/
def State.closedFault (s : State) (c : Ctx) (addr n : Nat) : State :=
  if n = 0 then s else (s.closedIn c.t addr n).foldl (fun acc r => acc.editionFault c r 0) s

/-- A shelf write by a timetabled instruction: performed, and bad where it lands in a closed region (R219). -/
def State.writeShelf (s : State) (c : Ctx) (addr : Nat) (b : Bytes) : State :=
  (s.writeMem c true addr b).closedFault c addr b.length

/-- A write to either memory by a timetabled instruction. -/
def State.writeLocal (s : State) (c : Ctx) (shelf : Bool) (addr : Nat) (b : Bytes) : State :=
  if shelf then s.writeShelf c addr b else s.writeMem c false addr b

/-! ### Stash -/

/-- Bytes of stash memory (R122). -/
def stashSize : Nat := 0x1800000000

/-- The base of partition p's page table (R318). -/
def pageTable (p : Bool) : Nat := 0x03C0000000 + 0x01000000 * b2n p

/-- The stash line that holds the page-table entry of a partition-relative address. -/
def tableLine (p : Bool) (a : Nat) : Nat := (pageTable p + 8 * (a / 65536)) / 64

/-- The page-table entry of a partition-relative address; the read of an uncorrectable line fails and gives an invalid one (R422). -/
def State.pageEntry (s : State) (p : Bool) (a : Nat) : Nat :=
  if Bank.get noErr s.stashErr (tableLine p a) = 2 then 0 else leNat (Bank.bytes s.stash (pageTable p + 8 * (a / 65536)) 8)

/-- Whether a physical page holds a stash line that is classed permanent, and so is withheld (R280). -/
def State.withheld (s : State) (page : Nat) : Bool := s.badLines.any fun n => n / 1024 == page

/-- Whether a physical page is assigned to partition p (SEC_PAGEBASE and SEC_PAGECNT, R345, R360). -/
def State.pageOf (s : State) (p : Bool) (page : Nat) : Bool :=
  let base := s.regFld (.secPagebase p) 20 0
  decide (base ≤ page) && decide (page < base + s.regFld (.secPagecnt p) 20 0) && !s.withheld page

/-- Translation of a partition-relative stash address: none for an unmapped page, one not writable where a write asks, or
an address beyond the stacks (R122, R124, R318). -/
def State.translate (s : State) (p : Bool) (a : Nat) (write : Bool) : Option Nat :=
  let e := s.pageEntry p a
  let page := bits e 20 0
  if a / 65536 < 2 ^ 21 ∧ bit e 63 ∧ bits e 61 21 = 0 ∧ 0x40000 ≤ page ∧ s.pageOf p page ∧ (write → bit e 62)
      ∧ page * 65536 + a % 65536 < stashSize then
    some (page * 65536 + a % 65536)
  else none

/-- The address that the bank windows reach: window w at offset o reaches bank w XOR SEL (R221). `swap` exchanges the
windows (R228). -/
def State.window (s : State) (p : Bool) (swap : Bool) (a : Nat) : Nat :=
  let b := s.regFld (.checkBank p) 20 0 * 65536
  let z := s.regFld (.checkBanksize p) 20 0 * 65536
  let flip := s.regBit (.checkBank p) 31 != swap
  if b ≤ a ∧ a < b + z then (if flip then a + z else a)
  else if b + z ≤ a ∧ a < b + 2 * z then (if flip then a - z else a)
  else a

/-- The stack of a physical stash address (R122). -/
def stackOf (a : Nat) : Nat := bits a 13 12

/-- The error mark of a stash line: 1 correctable, 2 uncorrectable. -/
def State.lineErr (s : State) (line : Nat) : BitVec 2 := Bank.get noErr s.stashErr line

/-- An error record of a stash line (R128, R277), unit kind 3. -/
def State.stashRec (s : State) (code cls line : Nat) (p : Option Bool) : State :=
  (s.logErr { code := code, cls := cls, kind := 3, unit := toLE 1 (stackOf (line * 64)), part := p, loc := line,
              syn := toLE 16 (Config.eccSyndrome s.free).toNat }).draw

/-- What a stash controller does at a read or a scrub of a line: a correctable error is counted, recorded and written back
(R128, R143, R422); an uncorrectable one sets OFFICE_STASHUE. The Bool says that the line is uncorrectable. -/
def State.stashLine (s : State) (line : Nat) (p : Option Bool) : Bool × State :=
  if s.lineErr line = 0 then (false, s)
  else if s.lineErr line = 1 then
    let k := stackOf (line * 64)
    let n := s.regFld .officeStashCe (8 * k + 7) (8 * k)
    let s1 := s.setRegFld .officeStashCe (8 * k + 7) (8 * k) (satAdd 255 n 1)
    (false, { (s1.stashRec 0x0010 0 line p) with stashErr := Bank.set noErr s1.stashErr line 0 })
  else
    let s1 := s.setReg .officeStashUe (BitVec.ofNat 32 (2 ^ 31 + line % 2 ^ 31))
    (true, s1.stashRec 0x0011 1 line p)

/-- The reads of the page table that translate some addresses, one a line: each has the outcome of R128. -/
def State.walk (s : State) (p : Bool) (as : List Nat) : State :=
  ((as.map (tableLine p)).eraseDups).foldl (fun (acc : State) n => (acc.stashLine n (some p)).2) s

/-- One address in each 64 KiB page that a range meets. -/
def pagesOf (a n : Nat) : List Nat := (List.range ((a + n + 65535) / 65536 - a / 65536)).map fun i => 65536 * (a / 65536 + i)

/-- A read of whole stash lines at a physical address: the bytes as the stacks deliver them, which lines were
uncorrectable, and the part after it. -/
def State.readStash (s : State) (phys lines : Nat) (p : Option Bool) : Bytes × List Bool × State :=
  let r := (List.range lines).foldl (fun (acc : List Bool × State) i =>
    let q := acc.2.stashLine ((phys + 64 * i) / 64) p
    (acc.1 ++ [q.1], q.2)) ([], s)
  (Bank.bytes s.stash phys (64 * lines), r.1, r.2)

/-- A read of stash lines at a partition-relative address by an engine or a stream, through the page table: the bytes (an
unmapped line reads as nothing stored), the lines that were uncorrectable, by partition-relative address, and the part
after the controllers' outcomes (R128, R422). -/
def State.readLines (s : State) (p : Bool) (a n : Nat) : Bytes × List Nat × State :=
  (List.range ((n + 63) / 64)).foldl (fun (acc : Bytes × List Nat × State) i =>
    match acc.2.2.translate p (a + 64 * i) false with
    | some x =>
      let r := acc.2.2.stashLine (x / 64) (some p)
      (acc.1 ++ Bank.bytes s.stash x 64, if r.1 then acc.2.1 ++ [a + 64 * i] else acc.2.1, r.2)
    | none => (acc.1 ++ List.replicate 64 0, acc.2.1, acc.2.2)) ([], [], s.walk p (pagesOf a n))

/-- A write of whole stash lines: data and ECC together, so every error of the lines is cleared (R422). -/
def State.writeStash (s : State) (phys : Nat) (b : Bytes) : State :=
  { s with
    stash := Bank.putBytes s.stash phys b
    stashErr := Bank.clear s.stashErr (phys / 64) ((phys + b.length + 63) / 64) }

end Sys2Proof.Machine
end

