-- ==== Sys2Proof/Machine/Layout.lean ====
section
/-! DEFINITION. Where the memory plan puts a tensor's elements (R69, R85, R140, R183, R329): block layout in desk and shelf
memory, row-major order in stash memory, one byte a row or column for sidecars. -/

set_option Elab.async false

namespace Sys2Proof.Machine

/-- The n bytes at o. -/
def cutAt (b : Bytes) (o n : Nat) : Bytes := (b.drop o).take n

/-- A byte address and, for an E2M1 element, which nibble of it (true: the high one). -/
structure Spot where
  addr : Nat
  high : Option Bool := none
  deriving DecidableEq, Repr

/-- Bytes of one element of a role and format; E2M1 elements of working copies and images are nibbles, 0 here (R37, R140,
R181, R328). -/
def elemSize (role fmt : Nat) : Nat :=
  match role with
  | 2 => 4 | 3 => 4 | 4 => 4 | 5 => 2 | 6 => 1 | 7 => 1 | 8 => 8
  | _ => match fmt with | 0 => 2 | 1 => 1 | 2 => 1 | 3 => 0 | 4 => 4 | _ => 8

/-- Rows and columns that a role's elements have in a placement: a row sidecar has one column, a column sidecar one row. -/
def placeDims (e : Placement) : Nat × Nat :=
  if e.role = 6 then (e.nrows, 1) else if e.role = 7 then (1, e.ncols) else (e.nrows, e.ncols)

/-- Whether a placement holds element (r, c) of its tensor (r or c 0 for the sidecars). -/
def Placement.holds (e : Placement) (r c : Nat) : Bool :=
  (e.role == 7 || (decide (e.row0 ≤ r) && decide (r < e.row0 + e.nrows)))
    && (e.role == 6 || (decide (e.col0 ≤ c) && decide (c < e.col0 + e.ncols)))

/-- The place of element (r, c), counted within a placement of R × C elements: row-major, or in the block layout, whose
blocks run down the K index and then across the columns, each from a 64-byte boundary. -/
def spotOf (e : Placement) (fmt r c : Nat) : Spot :=
  let z := elemSize e.role fmt
  let n := placeDims e
  if e.mem < 2 ∧ e.role < 2 then
    let d := blockDepth fmt
    let kb := (n.1 + d - 1) / d
    let base := e.addr + (c / 20 * kb + r / d) * blockStride fmt
    let i := c % 20 * d + r % d
    if z = 0 then { addr := base + i / 2, high := some (decide (i % 2 = 1)) } else { addr := base + z * i }
  else
    let i := r * n.2 + c
    if z = 0 then { addr := e.addr + i / 2, high := some (decide (i % 2 = 1)) } else { addr := e.addr + z * i }

/-- The place of the scale code of the MXFP4 block that holds element (r, c) of a placement (R37, R69). -/
def scaleSpots (e : Placement) (r c : Nat) : List Nat :=
  let n := placeDims e
  if e.mem < 2 then
    let kb := (n.1 + 79) / 80
    -- a weight block carries the codes of the four MXFP4 blocks from floor(k0 / 32) on; a code may stand in two blocks
    (List.range kb).filterMap fun b =>
      let k0 := (e.row0 + 80 * b) / 32
      let q := (e.row0 + r) / 32
      if k0 ≤ q ∧ q < k0 + 4 then some (e.addr + (c / 20 * kb + b) * blockStride 3 + 800 + 4 * (c % 20) + (q - k0)) else none
  else [e.addr + (n.1 * n.2 + 1) / 2 + ((e.row0 + r) / 32 - e.row0 / 32) * n.2 + c]

/-- Rows of scale codes of a placement of nrows rows from row0: one for each 32 rows of the tensor that it reaches (R37). -/
def scaleRowsOf (row0 nrows : Nat) : Nat := (row0 + nrows + 31) / 32 - row0 / 32

/-- The half-bytes that an element of a placement takes, 2·address, + 1 for the high nibble, with those of its scale codes. -/
def elemHalves (e : Placement) (fmt r c : Nat) : List Nat :=
  let q := spotOf e fmt r c
  match q.high with
  | some h => (2 * q.addr + b2n h) :: (scaleSpots e r c).flatMap fun a => [2 * a, 2 * a + 1]
  | none => (List.range (2 * elemSize e.role fmt)).map fun i => 2 * q.addr + i

/-- Bytes that a placement takes in stash memory. -/
def placeBytes (e : Placement) (fmt : Nat) : Nat :=
  let n := placeDims e
  let z := elemSize e.role fmt
  if z = 0 then (n.1 * n.2 + 1) / 2 + scaleRowsOf e.row0 n.1 * n.2 else z * n.1 * n.2

/-- A byte with one nibble replaced. -/
def putNibble (old new : Byte) (high : Bool) : Byte := if high then (old &&& 0x0F) ||| (new <<< 4) else (old &&& 0xF0) ||| (new &&& 0x0F)

/-- A byte of a partition's stash memory through the page table; an unmapped byte reads 0. -/
def State.stashByte (s : State) (p : Bool) (a : Nat) : Byte :=
  match s.translate p a false with
  | some x => Bank.byte s.stash x
  | none => 0

/-- The reads of the page table for n bytes of a placement in stash memory (R128). -/
def State.walkPlace (s : State) (p : Bool) (e : Placement) (n : Nat) : State :=
  if e.mem < 2 then s else s.walk p ((pagesOf e.addr n).map fun a => if e.mem = 2 then s.window p false a else a)

/-- One byte of a placement's memory written by the load engine: data and check bits together, so a stash line's error is
gone (R422). The rest of a line that a placement meets in part is written as it stands (log 133). -/
def State.putByte (s : State) (p : Bool) (l : Lesson) (e : Placement) (a : Nat) (b : Byte) : State :=
  if e.mem < 2 then
    match s.physTile l.cols e.row e.col with
    | some t => s.putMem t (e.mem == 1) a [b]
    | none => s
  else
    let a1 := if e.mem = 2 then s.window p false a else a
    match s.translate p a1 true with
    | some x => { s with stash := Bank.set zeroByte s.stash x b, stashErr := Bank.set noErr s.stashErr (x / 64) 0 }
    | none => s

/-- The marked words of a placement's tile that an engine's write of the given half-bytes reaches (R126). -/
def State.coverPlace (s : State) (l : Lesson) (e : Placement) (hs : List Nat) : State :=
  if e.mem < 2 then
    match s.physTile l.cols e.row e.col with
    | some t => s.coverHalves t (e.mem == 1) hs
    | none => s
  else s

/-- One byte of a placement's memory. -/
def State.getByte (s : State) (p : Bool) (l : Lesson) (e : Placement) (a : Nat) : Byte :=
  if e.mem < 2 then
    match s.physTile l.cols e.row e.col with
    | some t => Bank.byte ((s.tile t).mem (e.mem == 1)) a
    | none => 0
  else s.stashByte p (if e.mem = 2 then s.window p false a else a)

/-- An element of a placement written: its bytes, or a nibble. -/
def State.putElem (s : State) (p : Bool) (l : Lesson) (e : Placement) (fmt r c : Nat) (b : Bytes) : State :=
  let q := spotOf e fmt r c
  match q.high with
  | some h => s.putByte p l e q.addr (putNibble (s.getByte p l e q.addr) (b.headD 0) h)
  | none => (b.zipIdx).foldl (fun (acc : State) x => acc.putByte p l e (q.addr + x.2) x.1) s

/-- An element of a placement. -/
def State.getElem_ (s : State) (p : Bool) (l : Lesson) (e : Placement) (fmt r c : Nat) : Bytes :=
  let q := spotOf e fmt r c
  match q.high with
  | some h =>
    let b := s.getByte p l e q.addr
    [if h then b >>> 4 else b &&& 0x0F]
  | none => (List.range (elemSize e.role fmt)).map fun i => s.getByte p l e (q.addr + i)

/-- The scale codes of an element's block written. -/
def State.putScale (s : State) (p : Bool) (l : Lesson) (e : Placement) (r c : Nat) (b : Byte) : State :=
  (scaleSpots e r c).foldl (fun (acc : State) a => acc.putByte p l e a b) s

/-! ### Frozen regions restored from their images (R129, R228) -/

/-- The elements of a tile placement, with their places in an image placement that holds them. -/
def imageCells (e img : Placement) : List ((Nat × Nat) × (Nat × Nat)) :=
  let n := placeDims e
  (List.range n.1).flatMap fun r => (List.range n.2).filterMap fun c =>
    let gr := if e.role = 7 then img.row0 else e.row0 + r
    let gc := if e.role = 6 then img.col0 else e.col0 + c
    if img.holds gr gc then some ((r, c), (gr - img.row0, gc - img.col0)) else none

/-- Copies what an image placement holds of the rectangle of a tile placement. -/
def State.fromImage (s : State) (p : Bool) (l : Lesson) (fmt : Nat) (e img : Placement) : State :=
  let cells := imageCells e img
  let s1 := s.coverPlace l e (cells.flatMap fun x => elemHalves e fmt x.1.1 x.1.2)
  cells.foldl (fun (acc : State) x =>
    let a1 := acc.putElem p l e fmt x.1.1 x.1.2 (acc.getElem_ p l img fmt x.2.1 x.2.2)
    if elemSize e.role fmt = 0 then
      a1.putScale p l e x.1.1 x.1.2 (acc.getByte p l img ((scaleSpots img x.2.1 x.2.2).headD 0))
    else a1) s1

/-- The frozen regions of a tile that hold a poisoned word. -/
def State.poisonedFrozen (s : State) (t : Nat) : List Nat :=
  (List.range 64).filter fun n =>
    let w := s.reg (.tileRegion t n)
    let lo := fld w 9 0 * 4096
    bit w.toNat 31 && bit w.toNat 30
      && (s.tile t).errs.any fun e => decide (errKey true lo ≤ e.1) && decide (e.1 < errKey true (lo + fld w 29 19 * 4096))
        && e.2 == 3

/-- The tensor table entry of a tensor number. -/
def Lesson.tensor (l : Lesson) (n : Nat) : Option TensorEnt := l.tensors.find? fun e => e.n == n

/-- The format of a tensor of the lesson. -/
def Lesson.fmtOf (l : Lesson) (n : Nat) : Nat :=
  match l.tensor n with
  | some x => x.fmt
  | none => 0

/-- The placements of region n of tile t, each with an image that it is restored from. -/
def State.regionImages (s : State) (l : Lesson) (t n : Nat) : List (Placement × Placement) :=
  (l.places.filter fun e => e.mem == 1 && e.region == n && s.physTile l.cols e.row e.col == some t).flatMap fun e =>
    (l.places.filter fun i => i.mem == 3 && i.tensor == e.tensor && i.role == (if e.role = 0 then 1 else e.role)).map fun i => (e, i)

/-- The bytes of an image placement read by an engine: the lines that were uncorrectable, and the part after it. -/
def State.readImage (s : State) (p : Bool) (l : Lesson) (img : Placement) : List Nat × State :=
  let lo := img.addr / 64 * 64
  (s.readLines p lo (img.addr + placeBytes img (l.fmtOf img.tensor) - lo)).2

/-- Every image of some copies read: those with their uncorrectable lines, and the part after it. -/
def State.readImages (s : State) (p : Bool) (l : Lesson) (imgs : List Placement) : List (Placement × List Nat) × State :=
  imgs.foldl (fun (acc : List (Placement × List Nat) × State) i =>
    let r := acc.2.readImage p l i
    (if r.1.isEmpty then acc.1 else acc.1 ++ [(i, r.1)], r.2)) ([], s)

/-- Restores a frozen region of tile t: its placements from the images, and every word of the region clean (R129). -/
def State.restoreRegion (s : State) (p : Bool) (l : Lesson) (t n : Nat) : State :=
  let w := s.reg (.tileRegion t n)
  let lo := fld w 9 0 * 4096
  let s1 := (s.regionImages l t n).foldl (fun (acc : State) e => acc.fromImage p l (l.fmtOf e.1.tensor) e.1 e.2) s
  let x := s1.tile t
  s1.setTile t { x with errs := Bank.clear x.errs (errKey true lo) (errKey true (lo + fld w 29 19 * 4096)) }

/-! ### Mirror slots (R229) -/

/-- The partition-relative base of a mirror slot. -/
def State.slotBase (s : State) (p : Bool) (k : Nat) : Nat :=
  let z := s.regFld (.checkBanksize p) 20 0 * 65536
  match k with
  | 0 => s.regFld (.checkMbase p) 20 0 * 65536
  | 1 => s.regFld (.checkMbase p) 20 0 * 65536 + z
  | _ => s.regFld (.checkMstage p) 20 0 * 65536

/-- Whether M is 1. -/
def State.mirrorOne (s : State) (p : Bool) : Bool := s.regFld (.checkMirror p) 31 16 == 1

/-- The slot that is the own snapshot (R233). -/
def State.ownSlot (s : State) (p : Bool) : Nat :=
  let n := s.regFld (.checkMirror p) 12 11
  if s.mirrorOne p then 1 - n % 2 else 3 - n - s.regFld (.checkMirror p) 10 9

/-- The slot that an incoming stream lands in. -/
def State.targetSlot (s : State) (p : Bool) : Nat := if s.mirrorOne p then s.ownSlot p else s.regFld (.checkMirror p) 10 9

/-- Writes stash lines at a partition-relative address; an unmapped line is not written. -/
def State.putStash (s : State) (p : Bool) (a : Nat) (b : Bytes) : State :=
  (List.range ((b.length + 63) / 64)).foldl (fun (acc : State) i =>
    match acc.translate p (a + 64 * i) true with
    | some x => acc.writeStash x (padTo 64 (b.drop (64 * i)))
    | none => acc) (s.walk p (pagesOf a b.length))

/-- The marked lines of a physical page of stash memory. -/
def State.markedLines (s : State) (a : Nat) : List Nat :=
  (s.stashErr.filter fun e => decide (a / 64 ≤ e.1) && decide (e.1 < a / 64 + 1024)).map (·.1)

/-- Copies n 64 KiB pages of stash memory between partition-relative addresses. Every source line has the outcome of R128; one that
is uncorrectable is not copied: its target line keeps what it held (R422). The Bool says that there was one. -/
def State.copyPages (s : State) (p : Bool) (src dst n : Nat) : Bool × State :=
  (List.range n).foldl (fun (acc : Bool × State) i =>
    match acc.2.translate p (src + 65536 * i) false, acc.2.translate p (dst + 65536 * i) true with
    | some a, some b =>
      let r := (acc.2.markedLines a).foldl (fun (q : List Nat × State) line =>
        let y := q.2.stashLine line (some p)
        (if y.1 then q.1 ++ [line] else q.1, y.2)) ([], acc.2.walk p [src + 65536 * i, dst + 65536 * i])
      let old := r.1.map fun line =>
        let k := b / 64 + (line - a / 64)
        (k, r.2.lineErr k, Bank.bytes r.2.stash (64 * k) 64)
      let s1 := { r.2 with
        stash := Bank.copy zeroByte r.2.stash r.2.stash a b 65536
        stashErr := Bank.clear r.2.stashErr (b / 64) (b / 64 + 1024) }
      (acc.1 || !r.1.isEmpty, old.foldl (fun (z : State) e =>
        { z with stash := Bank.putBytes z.stash (64 * e.1) e.2.2, stashErr := Bank.set noErr z.stashErr e.1 e.2.1 }) s1)
    | _, _ => acc) (false, s)

/-- Uncorrectable lines of the active bank restored from the part's own snapshot, where that holds step n (R128, R129). -/
def State.healBank (s : State) (p : Bool) (n : BitVec 64) : State :=
  if s.regBit (.checkMirror p) 13 ∧ s.mstep64 p = n then
    let src := s.slotBase p (s.ownSlot p)
    let dst := s.window p false (s.regFld (.checkBank p) 20 0 * 65536)
    (List.range (s.regFld (.checkBanksize p) 20 0)).foldl (fun (acc : State) i =>
      match acc.translate p (src + 65536 * i) false, acc.translate p (dst + 65536 * i) true with
      | some a, some b =>
        let lost := (acc.markedLines b).filter fun k => acc.lineErr k == 2
        lost.foldl (fun (x : State) k =>
          let r := x.stashLine ((a + 64 * (k - b / 64)) / 64) (some p)
          if r.1 then r.2 else r.2.writeStash (64 * k) (Bank.bytes r.2.stash (a + 64 * (k - b / 64)) 64))
          (if lost.isEmpty then acc else acc.walk p [src + 65536 * i, dst + 65536 * i])
      | _, _ => acc) s
  else s

end Sys2Proof.Machine
end

