-- ==== Sys2Proof/Machine/Leaf.lean ====
section
/-! DEFINITION. The leaves of a stored tensor (R330) as the load engine reads, hashes, converts and places them (R329, R331,
R332), and the leaves that it reads again where a stash line failed (R228, R339). -/

set_option Elab.async false

namespace Sys2Proof.Machine

/-! ### Leaves (R330) -/

/-- Rows and columns of a stored tensor: a sidecar tensor has one row. -/
def Lesson.shape (l : Lesson) (e : LoadEnt) : Nat × Nat :=
  match l.tensor e.tensor with
  | some t => if e.role = 6 then (1, t.rows) else if e.role = 7 then (1, t.cols) else (t.rows, t.cols)
  | none => (0, 0)

/-- A leaf block: first row and column, rows, columns. -/
structure Leaf where
  r0 : Nat
  c0 : Nat
  nr : Nat
  nc : Nat
  deriving DecidableEq, Repr

/-- Leaf blocks across and down a stored tensor. -/
def leafGrid (sh : Nat × Nat) (e : LoadEnt) : Nat × Nat :=
  ((sh.1 + 2 ^ e.lr - 1) / 2 ^ e.lr, (sh.2 + 2 ^ e.lc - 1) / 2 ^ e.lc)

/-- Leaf n of a stored tensor, block-row by block-row. -/
def leafAt (sh : Nat × Nat) (e : LoadEnt) (n : Nat) : Leaf :=
  let g := leafGrid sh e
  let r0 := n / g.2 * 2 ^ e.lr
  let c0 := n % g.2 * 2 ^ e.lc
  { r0 := r0, c0 := c0, nr := Nat.min (2 ^ e.lr) (sh.1 - r0), nc := Nat.min (2 ^ e.lc) (sh.2 - c0) }

/-- Leaves of a stored tensor. -/
def leafCount (sh : Nat × Nat) (e : LoadEnt) : Nat := (leafGrid sh e).1 * (leafGrid sh e).2

/-- Bytes of one stored element: of the role and format, or of the source with CONV, whose length gives it; 0: nibbles. -/
def storedSize (t : TensorEnt) (sh : Nat × Nat) (e : LoadEnt) : Nat :=
  if e.conv then e.length / (Nat.max 1 (sh.1 * sh.2)) else elemSize e.role t.fmt

/-- Rows of scale codes that a leaf of MXFP4 blocks carries. -/
def Leaf.scaleRows (f : Leaf) : Nat := scaleRowsOf f.r0 f.nr

/-- Bytes of a leaf: its elements in row-major order; of nibbles, two a byte, then the scale codes of its blocks. -/
def leafBytes (t : TensorEnt) (sh : Nat × Nat) (e : LoadEnt) (f : Leaf) : Nat :=
  let z := storedSize t sh e
  if z = 0 then (f.nr * f.nc + 1) / 2 + f.scaleRows * f.nc else z * f.nr * f.nc

/-- The place of element (r, c) of a stored tensor in its placements' coordinates (R85). -/
def placeCoord (role r c : Nat) : Nat × Nat := if role = 6 then (c, 0) else (r, c)

/-- Whether a placement holds an element of a leaf. -/
def leafMeets (role : Nat) (f : Leaf) (e : Placement) : Bool :=
  match role with
  | 6 => decide (f.c0 < e.row0 + e.nrows) && decide (e.row0 < f.c0 + f.nc)
  | 7 => decide (f.c0 < e.col0 + e.ncols) && decide (e.col0 < f.c0 + f.nc)
  | _ => decide (f.r0 < e.row0 + e.nrows) && decide (e.row0 < f.r0 + f.nr)
      && decide (f.c0 < e.col0 + e.ncols) && decide (e.col0 < f.c0 + f.nc)

/-! ### Where a load writes (R329) -/

/-- The replaceable tensors' placements with their places in a staging area: row-major, in plan order, each 64-byte aligned. -/
def stageFrom (l : Lesson) (base : Nat) : List Placement → List (Placement × Placement)
  | [] => []
  | e :: es =>
    match l.tensor e.tensor with
    | some t =>
      if t.flags.toNat.testBit 0 ∧ (e.role = 0 ∨ e.role = 6 ∨ e.role = 7) ∧ e.mem = 1 then
        (e, { e with mem := 3, row := 0xFF, col := 0xFF, region := 0xFF, addr := base })
          :: stageFrom l (base + (placeBytes e t.fmt + 63) / 64 * 64) es
      else stageFrom l base es
    | none => stageFrom l base es

/-- The placements of an entry: the plan's, or, of a stage mode load and of an entry that one left staged, those of the staging
area. -/
def entPlaces (l : Lesson) (w : WLoad) (e : LoadEnt) : List Placement :=
  (if w.stage || e.staged then (stageFrom l w.base l.places).map (·.2) else l.places).filter fun q =>
    q.tensor == e.tensor && q.role == e.role

/-- A placement's rows out to whole MXFP4 blocks: what CONV needs of a tensor to convert the placement (R38; DEDUCED, log 107). -/
def Placement.banded (e : Placement) : Placement :=
  { e with row0 := e.row0 / 32 * 32, nrows := 32 * scaleRowsOf e.row0 e.nrows }

/-- The leaves of an entry that hold a byte placed on the part (R331); with CONV also those of the same 32-element blocks. -/
def entLeaves (l : Lesson) (w : WLoad) (e : LoadEnt) : List Nat :=
  let sh := l.shape e
  let ps := (entPlaces l w e).map fun q => if e.conv then q.banded else q
  (List.range (leafCount sh e)).filter fun n => ps.any (leafMeets e.role (leafAt sh e n))

/-- A read cut into requests of at most 1 MiB (R326). -/
def readPieces (conn : Nat) : Nat → Nat → Nat → List Out
  | 0, _, _ => []
  | k + 1, a, n => if n = 0 then [] else
      .rdmaRead conn (BitVec.ofNat 64 a) (Nat.min n 0x100000) :: readPieces conn k (a + 0x100000) (n - 0x100000)

/-- The reads of a leaf: its rows, and of a leaf of nibbles the rows of its scale codes, which follow the tensor's nibbles (R140,
R330). -/
def leafReads (l : Lesson) (t : TensorEnt) (e : LoadEnt) (n : Nat) : List Out :=
  let sh := l.shape e
  let z := storedSize t sh e
  let f := leafAt sh e n
  let piece := fun (a m : Nat) => readPieces e.conn (m / 0x100000 + 1) (e.remote.toNat + a) m
  ((List.range f.nr).flatMap fun i =>
      let el := (f.r0 + i) * sh.2 + f.c0
      if z = 0 then piece (el / 2) ((el % 2 + f.nc + 1) / 2) else piece (z * el) (z * f.nc))
    ++ (if z = 0 then
          (List.range f.scaleRows).flatMap fun q => piece ((sh.1 * sh.2 + 1) / 2 + (f.r0 / 32 + q) * sh.2 + f.c0) f.nc
        else [])

/-- The reads of an entry's leaves. -/
def entReads (l : Lesson) (w : WLoad) (e : LoadEnt) : List Out :=
  match l.tensor e.tensor with
  | none => []
  | some t => (entLeaves l w e).flatMap (leafReads l t e)

/-! ### One leaf -/

/-- The value of a stored source element under CONV: bfloat16 or fp32 by its size. -/
def sourceVal (z : Nat) (b : Bytes) (i : Nat) : FVal := (if z = 4 then Fmt.fp32 else Fmt.bf16).decode (field b (z * i) z)

/-- The element bytes of a leaf as the part stores them, with the scale code of each for MXFP4 (none otherwise). -/
def leafElems (t : TensorEnt) (sh : Nat × Nat) (e : LoadEnt) (f : Leaf) (b : Bytes) : List (Nat × Nat × Bytes × Option Byte) :=
  let z := storedSize t sh e
  let cells := (List.range f.nr).flatMap fun r => (List.range f.nc).map fun c => (r, c)
  if e.conv then
    cells.map fun x =>
      -- the column's elements of the same block: a leaf of whole blocks, or a band of leaves, holds them all
      let rows := (List.range f.nr).filter fun r => (f.r0 + r) / 32 == (f.r0 + x.1) / 32
      let m := mxBlock (rows.map fun r => sourceVal z b (r * f.nc + x.2))
      let k := (rows.findIdx? (· == x.1)).getD 0
      (x.1, x.2, [BitVec.ofNat 8 (m.2.getD k 0)], some (BitVec.ofNat 8 m.1))
  else if z = 0 then
    cells.map fun x =>
      let i := x.1 * f.nc + x.2
      let y := b.getD (i / 2) 0
      let q := (f.r0 + x.1) / 32 - f.r0 / 32
      (x.1, x.2, [if i % 2 = 1 then y >>> 4 else y &&& 0x0F], some (b.getD ((f.nr * f.nc + 1) / 2 + q * f.nc + x.2) 0))
  else cells.map fun x => (x.1, x.2, cutAt b (z * (x.1 * f.nc + x.2)) z, none)

/-- The format that a loaded element is placed in. -/
def placedFmt (t : TensorEnt) (e : LoadEnt) : Nat := if e.conv then 3 else t.fmt

/-- Writes a leaf into every placement of its entry (R329). -/
def State.placeLeaf (s : State) (p : Bool) (l : Lesson) (w : WLoad) (t : TensorEnt) (e : LoadEnt) (f : Leaf) (b : Bytes) : State :=
  let ps := entPlaces l w e
  let s := ps.foldl (fun (acc : State) q => acc.walkPlace p q (placeBytes q (placedFmt t e))) s
  let els := leafElems t (l.shape e) e f b
  let at_ := fun (q : Placement) (g : Nat × Nat) => (if e.role = 7 then 0 else g.1 - q.row0, if e.role = 6 then 0 else g.2 - q.col0)
  let s0 := ps.foldl (fun (acc : State) q => acc.coverPlace l q (els.flatMap fun x =>
    let g := placeCoord e.role (f.r0 + x.1) (f.c0 + x.2.1)
    if q.holds g.1 g.2 then elemHalves q (placedFmt t e) (at_ q g).1 (at_ q g).2 else [])) s
  els.foldl (fun (acc : State) x =>
    let g := placeCoord e.role (f.r0 + x.1) (f.c0 + x.2.1)
    ps.foldl (fun (acc : State) q =>
      if q.holds g.1 g.2 then
        let s1 := acc.putElem p l q (placedFmt t e) (at_ q g).1 (at_ q g).2 x.2.2.1
        match x.2.2.2 with
        | some k => s1.putScale p l q (at_ q g).1 (at_ q g).2 k
        | none => s1
      else acc) acc) s0

/-- SHA-384 of a leaf. -/
def leafHash (b : Bytes) : Bytes := sha384 (0x00 :: b)

/-- The leaves of the 32-row band of a leaf: those that CONV converts together. A leaf of whole bands stands alone (R38, R330). -/
def bandLeaves (sh : Nat × Nat) (e : LoadEnt) (n : Nat) : List Nat :=
  if e.conv ∧ e.lr < 5 then
    let g := leafGrid sh e
    let k := 2 ^ (5 - e.lr)
    let b := n / g.2 / k * k
    (List.range (Nat.min k (g.1 - b))).map fun i => (b + i) * g.2 + n % g.2
  else [n]

/-- A band's rows and columns. -/
def bandAt (sh : Nat × Nat) (e : LoadEnt) (ns : List Nat) : Leaf :=
  let f := leafAt sh e (ns.headD 0)
  { f with nr := ns.foldl (fun a n => a + (leafAt sh e n).nr) 0 }

/-- A leaf of a load has arrived: hashed and, once the leaves of its band are there, written where its entry's placements are. -/
def State.takeLeaf (s : State) (p : Bool) (l : Lesson) (w : WLoad) (t : TensorEnt) (i n : Nat) (e : LoadEnt) (data : Bytes) :
    State × WLoad :=
  let sh := l.shape e
  let src := (w.src.filter fun x => !(x.1 == i && x.2.1 == n)) ++ [(i, n, data)]
  let w1 := { w with
    bytes := w.bytes + data.length
    leaves := (w.leaves.filter fun x : Nat × Nat × Bytes => !(x.1 == i && x.2.1 == n)) ++ [(i, n, leafHash data)] }
  let band := bandLeaves sh e n
  let got := band.filterMap fun k => (src.find? fun x => x.1 == i && x.2.1 == k).map (·.2.2)
  if got.length = band.length then
    (s.placeLeaf p l w t e (bandAt sh e band) got.flatten, { w1 with src := src.filter fun x => !(x.1 == i && band.contains x.2.1) })
  else (s, { w1 with src := src })

/-! ### Leaves read again (R228, R339) -/

/-- The leaves of an entry, and with CONV of their bands, that put a byte on one of some stash lines of a placement. -/
def leavesOn (l : Lesson) (t : TensorEnt) (e : LoadEnt) (q : Placement) (bad : List Nat) : List Nat :=
  let sh := l.shape e
  ((List.range (leafCount sh e)).filter fun n =>
    let f := leafAt sh e n
    leafMeets e.role f q && (List.range f.nr).any fun r => (List.range f.nc).any fun c =>
      let g := placeCoord e.role (f.r0 + r) (f.c0 + c)
      q.holds g.1 g.2 && (elemHalves q (placedFmt t e) (if e.role = 7 then 0 else g.1 - q.row0) (if e.role = 6 then 0 else g.2 - q.col0)).any
        fun h => bad.contains (h / 128 * 64)).flatMap (bandLeaves sh e) |>.eraseDups

/-- The engine reads again from storage the leaves that uncorrectable lines of some stash placements hold, by the entries
that loaded them (R228, R339). A placement that no load left takes no read. -/
def State.readAgain (s : State) (p : Bool) (l : Lesson) (bad : List (Placement × List Nat)) : State :=
  let x := s.part p
  let w := x.fix.getD { cmd := 0, roots := [], ents := x.kept.map (·.1), stage := false, base := x.stageBase, bytes := 0
                        leaves := (x.kept.zipIdx).flatMap fun k => k.1.2.map fun y => (k.2, y.1, y.2) }
  let want := bad.flatMap fun b => (w.ents.zipIdx).flatMap fun e =>
    match l.tensor e.1.tensor with
    | some t =>
      if (entPlaces l w e.1).contains b.1 then (leavesOn l t e.1 b.1 b.2).map fun n => (e.2, n) else []
    | none => []
  let new := want.eraseDups.filter fun y => !w.want.contains y
  let s1 := s.setPart p { x with fix := if (w.want ++ new).isEmpty then none else some { w with want := w.want ++ new } }
  { s1 with out := s1.out ++ new.flatMap fun y =>
      match w.ents[y.1]? with
      | some e => (match l.tensor e.tensor with
        | some t => leafReads l t e y.2
        | none => [])
      | none => [] }

/-- Restores every frozen region of partition p that holds a poisoned word and whose images are whole; leaves of the others
are read again from storage (R129, R228). -/
def State.restoreFrozen (s : State) (p : Bool) (l : Lesson) : State :=
  (s.lessonTiles p).foldl (fun (acc : State) t => (acc.poisonedFrozen t).foldl (fun (a : State) n =>
    let r := a.readImages p l ((a.regionImages l t n).map (·.2)).eraseDups
    if r.1.isEmpty then r.2.restoreRegion p l t n else r.2.readAgain p l r.1) acc) s


end Sys2Proof.Machine
end

