-- ==== Sys2Proof/Machine/Route.lean ====
section
/-! DEFINITION. Where queues and streams lead: job geometry (R178, R199 to R203, R210, R258, R262), the physical ports of queue
bindings (R182, R200, R202), relays (R204) and the depths and credits of streams and link queues (R150, R173, R424). -/

set_option Elab.async false

namespace Sys2Proof.Machine

/-! ### Depths and credits -/

/-- Depth of an inbound stream, flits (R173). -/
def streamDepth : Nat := 32
/-- Depth of a link queue, frames (R173). -/
def linkDepth : Nat := 16
/-- Depth of a tile's decoupling queue, requests (R131). -/
def queueDepth : Nat := 32

/-- Credits that a store does not list: the full depth of a stream (R150). -/
def fullCredit : Nat → Nat := fun _ => streamDepth
/-- Credits that a link queue's store does not list (R150). -/
def fullLink : Nat → Nat := fun _ => linkDepth

/-- The sender key of a tile's outbound stream (R424). -/
def tileSender (t out : Nat) : Nat := 16 * t + out
/-- The sender key of a port gate's queue (R424). -/
def gateSender (port q : Nat) : Nat := 2 ^ 20 + 192 * port + q

/-! ### The step plan -/

/-- Whether period index i carries flag k of the step plan: 0 update, 1 first backward, 2 commit (R180). -/
def Lesson.planFlag (l : Lesson) (k i : Nat) : Bool :=
  match l.plan[i]? with
  | some e => e.2.toNat.testBit k
  | none => false

/-- The class of period index i. -/
def Lesson.classOf (l : Lesson) (i : Nat) : Nat :=
  match l.plan[i]? with
  | some e => e.1
  | none => 0

/-- The first update period u (R213). -/
def Lesson.firstUpdate (l : Lesson) : Nat := ((List.range l.periods).find? (l.planFlag 0)).getD l.periods

/-- Whether the lesson serves (R179). -/
def Lesson.serving (l : Lesson) : Bool := l.flags.toNat.testBit 2

/-- Whether the lesson binds the mirror's link queue 191 (R229, R230). -/
def Lesson.mirrors (l : Lesson) : Bool := l.queues.any fun q => q.q == 191 && !q.far

/-- Bytes of the committed state that a part streams: 14 for each trainable parameter it holds (R230). -/
def Lesson.mirrorBytes (l : Lesson) : Nat :=
  14 * ((l.places.filter fun e => e.role == 2 && (l.tensors.any fun t => t.n == e.tensor && t.kind == 0)).foldl
    (fun a e => a + e.nrows * e.ncols) 0)

/-! ### Seats -/

/-- Seats of a room that hold logical parts: 16, or 8 twin pairs (R178, R262). -/
def Lesson.twin (l : Lesson) : Bool := l.flags.toNat.testBit 1

/-- Logical parts that one room holds: S of R178. -/
def Lesson.perRoom (l : Lesson) : Nat := if l.twin then 8 else 16

/-- The seat of this room that acts for seat n: its substitute, or itself (R200, R203). -/
def State.actingSeat (s : State) (p : Bool) (n : Nat) : Nat :=
  match (s.part p).subst.find? (·.1 == n) with
  | some x => x.2
  | none => n

/-- The seat whose place this part takes: the one it substitutes, or its own (R203). -/
def State.homeSeat (s : State) (p : Bool) : Nat :=
  match (s.part p).subst.find? (·.2 == s.seat) with
  | some x => x.1
  | none => s.seat

/-- The seat that acts for the twin of this part's seat (R262). -/
def State.twinSeat (s : State) (p : Bool) : Nat :=
  let n := s.homeSeat p
  s.actingSeat p (if n % 2 = 0 then n + 1 else n - 1)

/-- The seat that holds logical part q, of this part's twin parity in twin mode (R178, R262). -/
def State.seatOf (s : State) (p : Bool) (l : Lesson) (q : Nat) : Nat :=
  s.actingSeat p (if l.twin then 2 * (q % 8) + s.homeSeat p % 2 else q % 16)

/-- The near port of seat n that leads to seat m (R199). -/
def nearPort (n m : Nat) : Nat := (m + 17 - n) % 18

/-- The physical port of a queue binding: near by the peer's seat, far by dimension (R182, R200, R202). -/
def State.bindPort (s : State) (p : Bool) (q : QueueBind) : Option Nat :=
  if q.far then (if q.peer < 3 then some (17 + q.peer) else none)
  else
    match s.lesson p with
    | none => none
    | some l =>
      let m := s.seatOf p l q.peer
      if m = s.seat then none else some (nearPort s.seat m)

/-! ### Geometry -/

/-- A dimension of the campus plan in retained state: Dx, Dy or Dz; 1 without a plan (R206). -/
def State.dim (s : State) (d : Nat) : Nat :=
  let v := field s.retained.plan (10 + d) 1
  if v = 0 then 1 else v

/-- A coordinate of a room packed as in R161. -/
def roomCoord (room d : Nat) : Nat := match d with | 0 => bits room 8 6 | 1 => bits room 5 3 | _ => bits room 2 0

/-- The index of a room: x + Dx·(y + Dy·z). -/
def State.roomIndex (s : State) (room : Nat) : Nat :=
  roomCoord room 0 + s.dim 0 * (roomCoord room 1 + s.dim 1 * roomCoord room 2)

/-- Rooms of the campus plan; without a plan, one. -/
def State.rooms (s : State) : Nat := s.dim 0 * s.dim 1 * s.dim 2

/-- Whether seat n of a room at coordinate c faces + in a dimension (R202). -/
def facesPlus (c n : Nat) : Bool := decide ((c + n) % 2 = 1)

/-- The seats of this part's room that hold logical parts, in place (before substitution) (R178). -/
def roomSeats (l : Lesson) : List Nat :=
  if l.parts ≤ l.perRoom then List.range (if l.twin then 2 * l.parts else l.parts) else List.range 16

/-- The parts of a job (R258): its logical parts, twice in twin mode. -/
def jobParts (l : Lesson) : Nat := if l.twin then 2 * l.parts else l.parts

/-- Whether a lesson stays within a room (R178). -/
def Lesson.roomLocal (l : Lesson) : Bool := decide (l.parts ≤ l.perRoom)

/-- Near ports to the other seats that act for the room's part of the job (R258). -/
def State.roomPorts (s : State) (p : Bool) (l : Lesson) : List Nat :=
  (((roomSeats l).map (s.actingSeat p)).filter (· != s.seat)).map (nearPort s.seat)

/-- The ports that a lesson names: its bindings' and its mark tree's (R210). -/
def State.namedPorts (s : State) (p : Bool) : List Nat :=
  match s.lesson p with
  | none => []
  | some l =>
    (l.queues.filterMap (s.bindPort p) ++ s.roomPorts p l ++
      (if l.roomLocal then [] else ([0, 1, 2].filter fun d => decide (1 < s.dim d)).map (17 + ·))).eraseDups

/-- Whether a port is up (R211); one that passed roll call again under a running lesson carries nothing of it (R210). -/
def State.portUp (s : State) (l : Nat) : Bool := s.regFld (.linkStat l) 31 28 == 3 && !(s.port l).parked

/-- Whether the relay register of far port l is in effect, in the given mode (false: originate). -/
def State.relayOn (s : State) (l : Nat) (forward : Bool) : Bool :=
  s.regBit (.linkRelay l) 31 && s.regBit (.linkRelay l) 30 == forward

/-- The port that a far port's traffic leaves by: its own, or VIA of a relay that originates here (R204, R211). -/
def State.txPort (s : State) (l : Nat) : Nat :=
  if 17 ≤ l ∧ s.regBit (.linkRelay l) 31 ∧ !s.regBit (.linkRelay l) 30 then s.regFld (.linkRelay l) 4 0 else l

/-- Whether a port carries lesson traffic: up, or relayed through a near port that is up (R204, R209, R271). -/
def State.carries (s : State) (port : Nat) : Bool := s.portUp (s.txPort port)

/-- The partition whose lesson names a port. -/
def State.portPart (s : State) (l : Nat) : Option Bool :=
  if (s.namedPorts false).contains l then some false
  else if (s.namedPorts true).contains l then some true else none

end Sys2Proof.Machine
end

