-- ==== Sys2Proof/Machine/Send.lean ====
section
/-! DEFINITION. What leaves on a port (R149 to R151, R170, R190 to R193, R196, R243, R245): frames in blocks, the order in which
waiting traffic leaves, data frames in their slots, and credits. -/

set_option Elab.async false

namespace Sys2Proof.Machine

/-! ### Frames and blocks -/

/-- The bytes of a frame: the token header of R151, then the payload. -/
def frameBytes (f : Frame) : Bytes :=
  toLE 4 f.digest.toNat ++ toLE 6 f.period.toNat ++ toLE 2 (f.kind.toNat * 8192 + f.queue.toNat) ++ toLE 2 f.seq.toNat
    ++ toLE 1 f.attempt.toNat ++ toLE 1 (f.seat.toNat * 8)
    ++ padTo (if f.kind = 0 ∨ f.kind = 5 ∨ f.kind = 6 then 256 else 48) f.payload

/-- Cuts n stream blocks off a byte stream, from SEQ on (R190, R191). -/
def cutBlocks (mapgen : BitVec 2) : Nat → BitVec 12 → Bytes → List Block
  | 0, _, _ => []
  | n + 1, seq, b => ⟨0, seq, mapgen, b.take 640⟩ :: cutBlocks mapgen n (seq + 1) (b.drop 640)

/-- An idle frame; with sweep marker while the port's partition erases (R151, R350). -/
def idleFrame (seat : Nat) (sweep : Bool) : Frame := ⟨0, 0, if sweep then 4 else 3, 0, 0, 0, BitVec.ofNat 5 seat, []⟩

/-- The 5,140 message bits of a block as a number (R190); body byte k fills bits 8·k + 7 to 8·k (R12). -/
def Block.message (b : Block) : Nat :=
  b.type.toNat * 2 ^ 5138 + b.seq.toNat * 2 ^ 5126 + b.mapgen.toNat * 2 ^ 5124 + leNat (padTo 640 b.body)

/-- The block that message bits spell; the reserved bits are not looked at. -/
def Block.ofMessage (n : Nat) : Block :=
  { type := BitVec.ofNat 2 (n / 2 ^ 5138), seq := BitVec.ofNat 12 (n / 2 ^ 5126), mapgen := BitVec.ofNat 2 (n / 2 ^ 5124),
    body := toLE 640 (n % 2 ^ 5120) }

/-- The lane pair that symbol i of a block of port l goes out on: that of active slot i mod 4 (R190, R211). -/
def State.symbolLane (s : State) (l i : Nat) : Nat := s.regFld (.linkLanemap l) (3 * (i % 4) + 5) (3 * (i % 4) + 3)

/-- The body of a link-control block of one entry (R191): its type in byte 0, a NAK's SEQ in bytes 2 and 3, a stamp in bytes 4
to 7; the other entries are empty. -/
def controlBody (type : Byte) (arg : BitVec 32) : Bytes :=
  padTo 640 (if type = 1 then [type, 0] ++ toLE 2 arg.toNat else [type, 0, 0, 0] ++ toLE 4 arg.toNat)

/-- Whether the bells of the partition whose lesson binds a port run (R191, R195). -/
def State.portRuns (s : State) (l : Nat) : Bool :=
  match s.portPart l with
  | some p => s.running p
  | none => false

/-- An alignment marker leaves: it carries the SEQ of the next stream block, and the deskew pattern (R190, R191). -/
def State.sendMarker (s : State) (l : Nat) : State :=
  let y := s.port l
  (s.setPort l { y with unmarked := 0 }).emit (.block l ⟨3, y.txSeq, y.mapgen, Config.deskewPattern⟩)

/-- A block leaves on a port; every 16,384 blocks while no bells run a marker follows (R191). -/
def State.putBlock (s : State) (l : Nat) (b : Block) : State :=
  let y := s.port l
  let n := if s.portRuns l then 0 else y.unmarked + 1
  let s1 := (s.setPort l { y with unmarked := n }).emit (.block l b)
  if n = 16384 then s1.sendMarker l else s1

/-- The order in which waiting frames leave: data in their slots, then credit, mark, roll call, management (R192). -/
def kindRank (k : Nat) : Nat := match k with | 0 => 0 | 1 => 1 | 2 => 2 | 5 => 3 | 6 => 4 | _ => 5

/-- Whether a frame may start now: roll-call, management and pigeonhole frames only while no lesson binds the port, or in a
slot that the lesson leaves unbound (R192); on a fenced port idle and roll-call frames alone (R209). -/
def State.mayStart (s : State) (l : Nat) (slot : Bool) (f : Frame) : Bool :=
  (!(f.kind == 5 || f.kind == 6) || slot || (s.portPart l).isNone)
    && ((f.kind == 3 || f.kind == 4 || f.kind == 5) || s.regFld (.linkStat l) 31 28 != 4)

/-- The frames that leave now, by rank and then in order; of roll-call, management and pigeonhole frames an unbound slot takes
one. -/
def State.leaving (s : State) (l : Nat) (slot : Bool) : List Frame :=
  let fs := (s.port l).txFrames
  let go := (List.range 6).flatMap fun k => fs.filter fun f => kindRank f.kind.toNat == k && s.mayStart l slot f
  if (s.portPart l).isNone then go
  else (go.filter fun f => !(f.kind == 5 || f.kind == 6)) ++ (go.filter fun f => f.kind == 5 || f.kind == 6).take 1

/-- Sends what waits on a port: replay blocks, link-control blocks, then the frames that may start, in stream blocks filled up
with idle frames (R192). None passes during a lane switch (R196). The sender keeps its last 1,024 stream blocks (R193). -/
def State.flushSlot (s : State) (l : Nat) (slot : Bool) : State :=
  let y := s.port l
  if y.switching.isSome then s
  else
    let go := s.leaving l slot
    let s1 := s.setPort l { y with txReplay := [], txControl := [], txFrames := y.txFrames.filter fun f => !go.contains f }
    let s2 := y.txReplay.foldl (fun (acc : State) b => acc.putBlock l { b with type := 1, mapgen := y.mapgen }) s1
    let s3 := y.txControl.foldl (fun (acc : State) e => acc.putBlock l ⟨2, y.txSeq, y.mapgen, controlBody e.1 e.2⟩) s2
    if go.isEmpty then s3
    else
      let b0 := y.txBytes ++ (go.map frameBytes).flatten
      let n := (b0.length + 639) / 640
      let fill := (640 * n - b0.length + 63) / 64
      let owner := s.regBit .secPortown l
      let b := b0 ++ ((List.range fill).map fun _ => frameBytes (idleFrame s.seat (s.regBit (.secPstat owner) 30))).flatten
      let blocks := cutBlocks y.mapgen n y.txSeq b
      let sent := y.sent ++ blocks
      let s4 := go.foldl (fun (acc : State) f => acc.emit (.frame l f)) s3
      let z := s4.port l
      let s5 := s4.setPort l { z with txBytes := b.drop (640 * n), sent := sent.drop (sent.length - 1024) }
      blocks.foldl (fun (acc : State) x => (acc.setPort l { acc.port l with txSeq := x.seq + 1 }).putBlock l x) s5

/-- Sends what waits on a port outside an unbound slot. -/
def State.flushPort (s : State) (l : Nat) : State := s.flushSlot l false

/-- Sends a frame on a port. Data, credit and mark frames leave only on a port that is up, pigeonhole frames only on one that passed
roll call: a fenced port carries idle and roll-call frames alone (R209). -/
def State.sendOn (s : State) (l : Nat) (f : Frame) : State :=
  if (f.kind.toNat ≤ 2 ∧ !s.portUp l) ∨ (f.kind = 6 ∧ s.regFld (.linkStat l) 31 28 ≠ 3) then s
  else (s.setPort l { s.port l with txFrames := (s.port l).txFrames ++ [f] }).flushPort l

/-- Sends a frame of a port's traffic: on the port, or on the near port of its relay (R204). -/
def State.sendFrame (s : State) (port : Nat) (f : Frame) : State := s.sendOn (s.txPort port) f

/-- Sends a link-control entry: 1 NAK, 2 PROBE, 3 ECHO (R191). -/
def State.sendControl (s : State) (l : Nat) (type : Byte) (arg : BitVec 32) : State :=
  (s.setPort l { s.port l with txControl := (s.port l).txControl ++ [(type, arg)] }).flushPort l

/-- A PROBE with a stamp of the sender's tile-cycle count, which no rule fixes (R191). -/
def State.sendProbe (s : State) (l : Nat) : State := (s.sendControl l 2 (Config.stamp s.free)).draw

/-- Sends a replay block ahead of every further stream block (R193). -/
def State.sendReplay (s : State) (l : Nat) (b : Block) : State :=
  (s.setPort l { s.port l with txReplay := (s.port l).txReplay ++ [b] }).flushPort l

/-! ### Frames of a lesson -/

/-- The first 32 bits of a digest, in digest order (R185). -/
def digest32 (b : Bytes) : BitVec 32 := BitVec.ofNat 32 (field b 0 4)

/-- The lesson digest in the frames of partition p; 0 outside a lesson (R151). -/
def State.lessonDigest (s : State) (p : Bool) : BitVec 32 :=
  match s.lesson p with
  | some l => digest32 l.digest
  | none => 0

/-- A credit returned to the sender of a link queue: a credit frame of one entry (R150, R192). -/
def State.linkCredit (s : State) (p : Bool) (port q : Nat) : State :=
  let f : Frame := ⟨s.lessonDigest p, s.pnum p, 1, BitVec.ofNat 13 (4096 + 192 * (if 17 ≤ port then port else 16 - port)), 0,
    BitVec.ofNat 8 (s.attempt p), BitVec.ofNat 5 s.seat, toLE 2 (q * 256 + 1)⟩
  s.sendFrame port f

/-! ### Data frames -/

/-- A sequence number that the store does not list. -/
def noSeq : Nat → BitVec 16 := fun _ => 0

/-- No flits at a gate. -/
def noFlits : Nat → List Flit := fun _ => []

/-- The first 16 bytes of a frame. -/
def headerBytes (f : Frame) : Bytes := (frameBytes f).take 16

/-- A tally packed to 48 bits, with whether it was out of range (R243, R245). -/
def packTally (v : BitVec 64) : Nat × Bool :=
  if v = marker then (0x800000000000, false)
  else if -(2 ^ 47) < v.toInt ∧ v.toInt < 2 ^ 47 then (v.toNat % 2 ^ 48, false)
  else (0x800000000000, true)

/-- The payload of a frame of flits under a transfer format, with whether a tally was out of range. -/
def payloadOf (fmt : Nat) (fl : List Bytes) : Bytes × Bool :=
  let b := fl.flatten
  if fmt = 2 then
    let ts := (List.range 40).map fun i => packTally (BitVec.ofNat 64 (field b (8 * i) 8))
    (padTo 256 (ts.flatMap fun x => toLE 6 x.1), ts.any (·.2))
  else (padTo 256 b, false)

/-- One data frame leaves on a queue with the header of its slot: period and sequence number; it spends a credit, and is noted
for the twin digest (R150, R151, R263). -/
def State.sendData (s : State) (p : Bool) (port : Nat) (q : QueueBind) (period : BitVec 48) (seq : BitVec 16) (b : Bytes) : State :=
  let y := s.port port
  let peer := if 17 ≤ port then port else 16 - port
  let f : Frame := ⟨s.lessonDigest p, period, 0, BitVec.ofNat 13 (4096 + 192 * peer + q.q), seq, BitVec.ofNat 8 (s.attempt p),
    BitVec.ofNat 5 s.seat, b⟩
  let s1 := s.setPort port { y with credits := Bank.set fullLink y.credits q.q (Bank.get fullLink y.credits q.q - 1) }
  let x := s1.part p
  let tw := match s.lesson p with
    | some l => Lesson.twin l
    | none => false
  (s1.setPart p { x with digFrames := if tw then x.digFrames ++ [(q.idx, seq.toNat, b)] else x.digFrames }).sendFrame port f

/-- The sequence number of a queue's next frame in the period, taken (R151). -/
def State.takeSeq (s : State) (port : Nat) (q : QueueBind) : BitVec 16 × State :=
  let y := s.port port
  let seq := Bank.get noSeq y.sendSeq q.q
  (seq, s.setPort port { y with sendSeq := Bank.set noSeq y.sendSeq q.q (seq + 1) })

/-- One data frame leaves on a queue at once. -/
def State.leave (s : State) (p : Bool) (port : Nat) (q : QueueBind) (b : Bytes) : State :=
  let r := s.takeSeq port q
  r.2.sendData p port q (s.pnum p) r.1 b

/-- A tally beyond the packed range: mark bit 7 and an error record that names the port and the queue, with the frame's header
bytes (R245, R277). -/
def State.packFault (s : State) (p : Bool) (port : Nat) (q : QueueBind) (period : BitVec 48) (seq : BitVec 16) : State :=
  let peer := if 17 ≤ port then port else 16 - port
  let f : Frame := ⟨s.lessonDigest p, period, 0, BitVec.ofNat 13 (4096 + 192 * peer + q.q), seq, BitVec.ofNat 8 (s.attempt p),
    BitVec.ofNat 5 s.seat, []⟩
  (s.markPart p 7).logErr { code := 0x0040, cls := 1, kind := 1, unit := toLE 1 port ++ [0xFF, 0], part := some p,
                            loc := 4096 + 192 * port + q.q, syn := headerBytes f }

/-- The frame of a slot whose flits have all reached the gate leaves (R170). -/
def State.slotGo (s : State) (p : Bool) (port : Nat) (q : QueueBind) (e : LateFrame) : State :=
  let y := s.port port
  let fl := Bank.get noFlits y.gate q.q
  let s1 := s.setPort port { y with gate := Bank.set noFlits y.gate q.q (fl.drop e.flits) }
  let b := payloadOf q.fmt ((fl.take e.flits).map (·.data))
  let s2 := if b.2 then s1.packFault p port q e.period e.seq else s1
  s2.sendData p port q e.period e.seq b.1

/-- Takes the slots of a queue that have passed, oldest first, as far as their flits have reached the gate: the flits that a slot
missed travel by the retry path, under the header of their slot (R170), and as far as credits of the receiver's queue last (R150). -/
def State.lateGo (s : State) (p : Bool) (port : Nat) (q : QueueBind) : Nat → State
  | 0 => s
  | n + 1 =>
    let y := s.port port
    match y.late.find? fun e => e.q == q.q with
    | none => s
    | some e =>
      if (Bank.get noFlits y.gate q.q).length < e.flits ∨ Bank.get fullLink y.credits q.q = 0 then s
      else ((s.setPort port { y with late := y.late.erase e }).slotGo p port q e).lateGo p port q n

/-- The slots of a queue that have passed without all their flits. -/
def State.lateOut (s : State) (p : Bool) (port : Nat) (q : QueueBind) : State := s.lateGo p port q (s.port port).late.length

/-- A slot of n flits of a queue starts: its frame takes its header and leaves, without the flits that are late (R151, R170). -/
def State.sendSlot (s : State) (p : Bool) (port : Nat) (q : QueueBind) (n : Nat) : State :=
  let r := s.takeSeq port q
  let y := r.2.port port
  (r.2.setPort port { y with late := y.late ++ [⟨q.q, n, s.pnum p, r.1⟩] }).lateOut p port q

/-- Flits of one frame of a queue: the largest count that the lesson's send slots bind to it; 4 where none does (R170, R182). -/
def Lesson.frameFlits (l : Lesson) (q : QueueBind) : Nat :=
  match (l.slots.filter fun b => !b.recv && b.idx == q.idx).foldl (fun m b => Nat.max m b.flits) 0 with
  | 0 => if q.fmt = 2 then 5 else 4
  | n => n

/-- Whether a queue's gate takes one more flit: a credit stands for the frame it belongs to (R150). -/
def State.gateRoom (s : State) (l : Lesson) (port : Nat) (q : QueueBind) : Bool :=
  let y := s.port port
  decide ((Bank.get noFlits y.gate q.q).length < l.frameFlits q * Bank.get fullLink y.credits q.q)

end Sys2Proof.Machine
end

