-- ==== Sys2Proof/Machine/Stream.lean ====
section
/-! DEFINITION. Mesh streams, flits and credits (R148, R150, R424, R429), the outcome of a tile instruction, its issue and
its stall (R75, R101, R147), and the decoupling queue's enqueue (R131). -/

set_option Elab.async false

namespace Sys2Proof.Machine

/-- What a unit's action leads to: it is done, or it waits (the part as it then stands, and the wait). -/
inductive Act where
  | done (s : State)
  | wait (s : State) (w : Wait)
  | refuse (r : Refusal)

/-- The stream binding of an outbound stream of tile t (R429). -/
def State.streamBind (s : State) (t out : Nat) : Option StreamBind :=
  match s.tilePart t with
  | none => none
  | some p =>
    match s.lesson p with
    | none => none
    | some l =>
      match s.gridOf l.cols t with
      | none => none
      | some (r, c) => l.streams.find? fun b => b.row == r && b.col == c && b.out == out

/-- One flit sent on an outbound stream. None: no credit is left (R150). An unbound stream discards it, marks the tile bad
and writes record 0x0031 (R429); a stream bound to a link queue enters the port gate, where it may complete a frame whose slot has
passed (R170). -/
def State.sendFlit (s : State) (c : Ctx) (out : Nat) (b : Bytes) : Option State :=
  match s.streamBind c.t out with
  | none => some ((s.markTile c.t 3).tileErr c 0x0031 1 out [])
  | some sb =>
    let x := s.tile c.t
    if sb.toQueue then
      match s.tilePart c.t with
      | none => some s
      | some p =>
        match s.lesson p with
        | none => some s
        | some l =>
          match l.queues.find? fun q => q.idx == sb.bind with
          | none => some ((s.markTile c.t 3).tileErr c 0x0031 1 out [])
          | some q =>
            match s.bindPort p q with
            | none => some ((s.markTile c.t 3).tileErr c 0x0031 1 out [])
            | some port =>
              if !s.gateRoom l port q then none
              else
                let y := s.port port
                let cur := Bank.get noFlits y.gate q.q
                some ((s.setPort port { y with gate := Bank.set noFlits y.gate q.q (cur ++ [⟨b, tileSender c.t out⟩]) }).lateOut p port q)
    else
      let cr := Bank.get fullCredit x.outCred out
      if cr = 0 then none
      else
        match s.tilePart c.t with
        | none => some s
        | some p =>
          match s.lesson p with
          | none => some s
          | some l =>
            match s.physTile l.cols sb.dRow sb.dCol with
            | none => some ((s.markTile c.t 3).tileErr c 0x0031 1 out [])
            | some d =>
              let s1 := s.setTile c.t { x with outCred := Bank.set fullCredit x.outCred out (cr - 1) }
              some { s1 with mesh := s1.mesh ++ [(d, sb.dStream, ⟨b, tileSender c.t out⟩)] }

/-- A wait on a stream or a credit (R160, R162). -/
def streamWait (c : Ctx) (cause : Nat) (q : BitVec 16) : Wait :=
  { cause := BitVec.ofNat 8 cause, cyc := c.cyc, queue := q, tile := BitVec.ofNat 16 c.t }

/-- The queue that feeds an inbound stream of tile t, for attribution: the link queue bound to it, with its port. -/
def State.feeder (s : State) (t st : Nat) : Option (Nat × Nat) :=
  match s.tilePart t with
  | none => none
  | some p =>
    match s.lesson p with
    | none => none
    | some l =>
      match s.gridOf l.cols t with
      | none => none
      | some (r, cc) =>
        match l.queues.find? fun q => q.row == r && q.col == cc && q.stream == st with
        | none => none
        | some q => (s.bindPort p q).map fun port => (4096 + 192 * port + q.q, port)

/-- The tile of this part whose outbound stream delivers to an inbound stream of tile t (R429). -/
def State.meshFeeder (s : State) (t st : Nat) : Option Nat :=
  match s.tilePart t with
  | none => none
  | some p =>
    match s.lesson p with
    | none => none
    | some l =>
      match s.gridOf l.cols t with
      | none => none
      | some (r, c) =>
        match l.streams.find? fun b => !b.toQueue && b.dRow == r && b.dCol == c && b.dStream == st with
        | none => none
        | some b => s.physTile l.cols b.row b.col

/-- A wait on a link queue of a port: the queue, the port, and the seat and room at its far end (R161, R162). -/
def State.portWait (s : State) (w : Wait) (port q : Nat) : Wait :=
  { w with
    queue := BitVec.ofNat 16 (4096 + 192 * port + q)
    port := BitVec.ofNat 8 port
    seat := BitVec.ofNat 8 (s.regFld (.linkStat port) 13 9)
    room := BitVec.ofNat 16 (s.regFld (.linkStat port) 8 0) }

/-- A late frame's cause as its wait begins: 0x02 with the lane while its port replays blocks or switches lanes (R157, R162). -/
def State.linkCause (s : State) (w : Wait) : Wait :=
  let y := s.port (s.txPort w.port.toNat)
  if w.cause ≠ 1 ∨ w.port = 0xFF then w
  else
    match y.switching with
    | some (lane, _) => { w with cause := 2, lane := BitVec.ofNat 8 lane }
    | none =>
      if y.rxSeq = y.rxTop then w
      else { w with cause := 2, lane := BitVec.ofNat 8 ((y.bads.getLast?.map (·.2)).getD 0xFF) }

/-- The wait of a tile on an inbound stream, with its origin where a link queue feeds it (R160 to R162). -/
def State.inWait (s : State) (c : Ctx) (st : Nat) : Wait :=
  match s.feeder c.t st with
  | some (q, port) => s.linkCause (s.portWait (streamWait c 1 0) port ((q - 4096) % 192))
  | none => { streamWait c 1 0xFFFF with src := BitVec.ofNat 16 ((s.meshFeeder c.t st).getD 0xFFFF) }

/-- The wait of a tile for a credit of an outbound stream, with the receiver where the stream leads to a link queue (R162). -/
def State.outWait (s : State) (c : Ctx) (out : Nat) : Wait :=
  let w := streamWait c 3 0xFFFF
  match s.streamBind c.t out, s.tilePart c.t with
  | some sb, some p =>
    if !sb.toQueue then w
    else
      match (s.lesson p).bind fun l => l.queues.find? fun q => q.idx == sb.bind with
      | some q =>
        match s.bindPort p q with
        | some port => s.portWait w port q.q
        | none => w
      | none => w
  | _, _ => w

/-- Sends the flits that a unit still has to send, as far as credits reach. -/
def State.drainSends (s : State) (c : Ctx) : List (Nat × Bytes) → State × List (Nat × Bytes)
  | [] => (s, [])
  | (o, b) :: rest =>
    match s.sendFlit c o b with
    | some s1 => s1.drainSends c rest
    | none => (s, (o, b) :: rest)

/-- Sends flits in order; the unit stalls on the first that finds no credit (R150). -/
def State.sendAll (s : State) (c : Ctx) (fs : List (Nat × Bytes)) : Act :=
  let r := s.drainSends c fs
  if r.2.isEmpty then .done r.1
  else
    let x := r.1.tile c.t
    .wait (r.1.setTile c.t { x with unsent := r.2 }) (r.1.outWait c (match r.2 with | e :: _ => e.1 | [] => 0))

/-- Returns the credit of a flit that its consumer has read: it travels back to its sender (R150, R424). -/
def State.returnCredit (s : State) (f : Flit) : State :=
  { s with meshCred := Bank.set (fun _ => 0) s.meshCred f.sender (Bank.get (fun _ => 0) s.meshCred f.sender + 1) }

/-- Moves up to `n` flits of an inbound stream into what the issuing unit has read, returning their credits. -/
def State.pull (s : State) (t st : Nat) : Nat → State
  | 0 => s
  | n + 1 =>
    let x := s.tile t
    match Bank.get (fun _ => []) x.inb st with
    | [] => s
    | f :: fs =>
      let s1 := s.setTile t { x with inb := Bank.set (fun _ => []) x.inb st fs, got := x.got ++ [f.data] }
      (s1.returnCredit f).pull t st n

/-- Reads `n` flits of an inbound stream: none while they have not all arrived (the unit keeps those it has). -/
def State.takeFlits (s : State) (t st n : Nat) : Option (List Bytes) × State :=
  let s1 := s.pull t st (n - (s.tile t).got.length)
  let x := s1.tile t
  if x.got.length < n then (none, s1) else (some (x.got.take n), s1.setTile t { x with got := [] })

/-- Whether the reads of an AGET have still to complete (R133). -/
def Tile.fetching (x : Tile) : Bool := (x.queue ++ x.unqueued).any (·.fetch.isSome)

/-- Whether a tile's instruction stream is stalled (R147). -/
def Tile.stalled (x : Tile) : Bool := x.stall.isSome || !x.unsent.isEmpty || !x.unqueued.isEmpty || x.fetching

/-- The memory instructions: majors 0x38 to 0x3D (R132, R217, R241). -/
def memInstr : Instr → Bool
  | .mmCopyToShelf .. | .mmCopyToDesk .. | .tfold .. | .mmSreqRead .. | .mmSreqWrite .. | .mmWait .. | .aput .. | .aget .. => true
  | .edTake .. | .edTakeWait .. | .edDrop .. | .edOpen .. | .edSeal .. | .edSet .. | .tsend .. | .trecv .. => true
  | _ => false

/-- Whether a memory instruction is in flight on a tile (R127): it stalls the tile's stream. -/
def Tile.memBusy (x : Tile) : Bool := x.stalled && x.memStall

/-- The context of an instruction of tile t issued at an offset: the tile's slip is added (R147). -/
def State.ctx (s : State) (a : Issue) (op : Nat) : Ctx := { t := a.tile, cyc := a.cyc + (s.tile a.tile).slip, op := op }

/-- Whether tile t takes timetabled instructions: its partition's bells run or it rebuilds from a window 0 that is whole (R228,
R265, R274), and it is not
fenced (R271). The further step after a run's last carries none (R215). -/
def State.tileLive (s : State) (t : Nat) : Bool :=
  !(s.tile t).fenced && !s.pins.fenced &&
    (match s.tilePart t with
     | some p => (s.running p && !(s.part p).further) || (s.rebuilding p && (s.part p).healPos.isNone)
     | none => false)

/-- The part after a unit's action: a wait stalls the tile's instruction stream on `i` (R75, R147); what the unit has
queued to send or enqueue is finished by the stall, and `i` does not run again. -/
def settle (t : Nat) (i : Instr) (r : Act) : Host.Outcome State Fault Refusal :=
  match r with
  | .done s => .next s
  | .refuse e => .refused e
  | .wait s w =>
    let x := s.tile t
    let again := x.unsent.isEmpty && x.unqueued.isEmpty && !x.fetching
    .next (s.setTile t { x with stall := if again then some i else none, wait := w, memStall := memInstr i })

/-- Issues a timetabled instruction `i` of a tile. No such tile: a fault. A word that the part rejects never issues. On a
tile that takes no instruction it has no effect; on a stalled tile it is held behind the stall (R147). -/
def issue (a : Issue) (i : Instr) (ok : Bool) (body : State → Act) (s : State) : Host.Outcome State Fault Refusal :=
  if 2500 ≤ a.tile then .fault .noSuchUnit
  else if !ok then .refused .wordRejected
  else if !s.tileLive a.tile then .next s
  else
    let x := s.tile a.tile
    if x.stalled then .next (s.setTile a.tile { x with held := x.held ++ [i] })
    else settle a.tile i (body s)

end Sys2Proof.Machine
end

