-- ==== Sys2Proof/Machine/Queue.lean ====
section
/-! DEFINITION. A tile's stash decoupling queue: enqueueing, completion, the fence, token counters (R124, R128, R131, R134,
R221). -/

set_option Elab.async false

namespace Sys2Proof.Machine

/-- The number of tile t's decoupling queue (R130). -/
def tileQueue (t : Nat) : Nat := 1536 + t

/-- The office die's stash decoupling queues (R130), 4036 to 4095: a field's pre-emption save, the load engine's on a storage port, the
mirror, refill and restore streams, the eraser's writes and its compare, and permute data (R229, R251, R326, R346, R349). -/
def saveQueue (f : Nat) : Nat := 4036 + f
def loadQueue (port n : Nat) : Nat := 4040 + 6 * port + n
def mirrorQueue : Nat := 4052
def eraserQueue (n : Nat) : Nat := 4060 + n
def permuteQueue (n : Nat) : Nat := 4064 + n

/-- The wait of an instruction on its tile's queue (R131, R133, R162). -/
def queueWait (c : Ctx) : Wait :=
  { cause := 4, cyc := c.cyc, queue := BitVec.ofNat 16 (tileQueue c.t), tile := BitVec.ofNat 16 c.t }

/-- Moves requests that wait for a slot into a tile's queue, as far as its 32 entries reach (R131). -/
def Tile.fillQueue (x : Tile) : Tile :=
  let k := queueDepth - x.queue.length
  { x with queue := x.queue ++ x.unqueued.take k, unqueued := x.unqueued.drop k }

/-- Notes the lines of a stash write for the twin digest of the period (R263): tile, partition-relative address, bytes. -/
def State.digestLines (s : State) (t : Nat) (q : StashReq) (b : Bytes) : State :=
  match s.tilePart t with
  | none => s
  | some p =>
    match s.lesson p with
    | none => s
    | some l =>
      if Lesson.twin l then
        let x := s.part p
        let ls := (q.saddr.zipIdx).map fun y : Nat × Nat => (t, y.1, padTo 64 (b.drop (64 * y.2)))
        s.setPart p { x with digLines := x.digLines ++ ls }
      else s

/-- The part with requests of an instruction at the end of a tile's queue, as far as its slots reach; the lines of writes enter the
period's twin digest (R131, R263). -/
def State.putReqs (s : State) (t : Nat) (rs : List StashReq) : State :=
  let s1 := rs.foldl (fun (acc : State) r => if r.write then acc.digestLines t r (r.data.getD []) else acc) s
  s1.setTile t { s1.tile t with unqueued := rs }.fillQueue

/-- Enqueues requests in order; the instruction stream stalls while some wait for a slot (R131, R133). -/
def State.enqueue (s : State) (c : Ctx) (rs : List StashReq) : Act :=
  let s1 := s.putReqs c.t rs
  if (s1.tile c.t).unqueued.isEmpty then .done s1 else .wait s1 (queueWait c)

/-- The stash lines of a request from partition-relative byte address `a`, each under the window rule (R221). -/
def State.windowLines (s : State) (p : Bool) (a n : Nat) : List Nat :=
  (List.range n).map fun i => s.window p (s.rebuilding p) (a + 64 * i)

/-- The fence of a tile's queue at a request that reaches an unmapped page: bad with cause bit 3, record 0x0031 with the
queue and the address, and the fence's own record (R124, R271, R277). -/
def State.fenceQueue (s : State) (t addr : Nat) : State :=
  let s1 := (s.setTile t { s.tile t with qFenced := true }).markTile t 3
  (s1.logErr { code := 0x0031, cls := 2, kind := 2, unit := toLE 2 (tileQueue t), part := s.tilePart t, loc := addr }).fenceRec
    (s.tilePart t) 2 (toLE 2 (tileQueue t)) 0 8

/-- Raises a tile's token counter, modulo 2^32 (R134). -/
def State.raiseToken (s : State) (t : Nat) (k : Option (BitVec 2)) : State :=
  match k with
  | some n => s.setReg (.tileToken t n.toNat) (s.reg (.tileToken t n.toNat) + 1)
  | none => s

/-- One stash line that lands in local memory: an uncorrectable line lands poisoned and the mark is bad (R128). -/
def State.landLine (s : State) (t : Nat) (shelf : Bool) (laddr phys : Nat) : State × Bool :=
  let r := s.readStash phys 1 (s.tilePart t)
  let s1 := r.2.2.writeCore (queueCtx t) shelf laddr r.1
  if r.2.1.any id then (((s1.poison t shelf laddr 64).markTile t 1), true) else (s1, false)

/-- Moves the lines of one request. The Bool says that a read met an uncorrectable line. -/
def State.moveLines (s : State) (t : Nat) (q : StashReq) (phys : List Nat) : State × Bool :=
  let n := q.saddr.length
  let accs := [(q.laddr, 64 * n)]
  if q.write then
    ((phys.zipIdx).foldl (fun acc x => acc.writeStash x.1 (padTo 64 ((q.data.getD []).drop (64 * x.2)))) s, false)
  else
    let r := (phys.zipIdx).foldl (fun (acc : State × Bool) x =>
      let y := acc.1.landLine t q.shelf (q.laddr + 64 * x.2) x.1
      (y.1, acc.2 || y.2)) (s, false)
    let s1 := r.1.rangeCheck (queueCtx t) q.shelf accs
    (if q.shelf then s1.closedFault (queueCtx t) q.laddr (64 * n) else s1, r.2)

/-! ### The activation stash's spilled records (R137) -/

/-- A directory entry that the store does not list: no record. -/
def noDir : Nat → DirEnt := fun _ => {}

/-- The header line of a spilled record (R137). -/
def State.spillHeader (s : State) (p : Bool) (t recNo lines : Nat) : Bytes :=
  padTo 64 (toLE 2 recNo ++ toLE 2 lines ++ toLE 4 (s.lessonDigest p).toNat ++ toLE 8 (s.step64 p).toNat
    ++ toLE 4 ((s.pnum p).toNat % 2 ^ 32) ++ toLE 2 t)

/-- An AGET that finds no record, or another header: +0 in its destination lines, bad with cause bit 3 and record 0x0031
(R137, R277). -/
def State.agetZero (s : State) (c : Ctx) (a : StashArgs) (loc : Nat) (syn : Bytes) : State :=
  let n := a.lines.toNat + 1
  ((s.writeLocal c a.shelf (64 * a.laddr.toNat) (List.replicate (64 * n) 0)).markTile c.t 3).tileErr c 0x0031 1 loc syn

/-- The last request of a spilled record's AGET completes: its header is compared and its lines land (R131, R137). -/
def agetSpilled (c : Ctx) (p : Bool) (a : StashArgs) (s : State) : State :=
  let n := a.lines.toNat + 1
  let e := Bank.get noDir (s.tile c.t).dir a.recNo.toNat
  if (s.tile c.t).qFenced then s
  else
    let rel := (List.range (n + 1)).map fun i => e.addr + 64 * i
    let phys := rel.map fun x => s.translate p x false
    match (rel.zip phys).find? fun x : Nat × Option Nat => x.2.isNone with
    | some x => s.fenceQueue c.t x.1
    | none =>
      match phys.filterMap id with
      | [] => s
      | h :: lines =>
        let r := s.readStash h 1 (some p)
        let s1 := if r.2.1.any id then r.2.2.markTile c.t 1 else r.2.2
        let want := s1.spillHeader p c.t a.recNo.toNat n
        if r.1.take 16 ≠ want.take 16 then s1.agetZero c a e.addr (r.1.take 16)
        else
          let s2 := (lines.zipIdx).foldl (fun acc x =>
            (acc.landLine c.t a.shelf (64 * a.laddr.toNat + 64 * x.2) x.1).1) s1
          let s3 := s2.rangeCheck c a.shelf [(64 * a.laddr.toNat, 64 * n)]
          if a.shelf then s3.closedFault c (64 * a.laddr.toNat) (64 * n) else s3

/-- Completes one request of a tile: it moves its lines, or completes as failed where the queue is fenced or reaches an
unmapped page; the token counter advances either way (R124, R131, R134). The Bool says that an uncorrectable line was
read. -/
def State.finishReq (s : State) (t : Nat) (q : StashReq) : State × Bool :=
  let r :=
    match s.tilePart t with
    | none => (s, false)
    | some p =>
      if (s.tile t).qFenced then (s, false)
      else
        let phys := q.saddr.map fun a => s.translate p a q.write
        match (q.saddr.zip phys).find? fun x : Nat × Option Nat => x.2.isNone with
        | some x => ((s.walk p q.saddr).fenceQueue t x.1, false)
        | none =>
          let s1 := s.walk p q.saddr
          match q.fetch with
          | none => s1.moveLines t q (phys.filterMap id)
          | some none => (s1, false)
          | some (some f) => (agetSpilled { t := t, cyc := (s1.tile t).wait.cyc, op := opBytes 0x3B 1 2 } p f s1, false)
  (r.1.raiseToken t q.ctr, r.2)

/-- Completes the front request of a tile's queue; none where the queue is empty. -/
def State.finishFront (s : State) (t : Nat) : State × Bool :=
  match (s.tile t).queue with
  | [] => (s, false)
  | q :: rest =>
    let r := (s.setTile t { s.tile t with queue := rest }).finishReq t q
    (r.1.setTile t ((r.1.tile t).fillQueue), r.2)

/-- Completes every outstanding request of a tile, as at a recall (R266). -/
def State.finishAll (s : State) (t : Nat) : State :=
  let qs := (s.tile t).queue ++ (s.tile t).unqueued
  let s1 := s.setTile t { s.tile t with queue := [], unqueued := [] }
  qs.foldl (fun acc q => (acc.finishReq t q).1) s1

end Sys2Proof.Machine
end

