-- ==== Sys2Proof/Machine/Marks.lean ====
section
/-! DEFINITION. Marks and recall: job geometry (R178, R199 to R202, R210, R258), mark frames (R257), the mark tree (R258),
the start of a recall (R265, R266), the agreement (R267) and fences of a port (R152, R194, R271). -/

set_option Elab.async false

namespace Sys2Proof.Machine

/-- A pulse of ALERT_N; a line that is held low stays low (R412). -/
def State.alert (s : State) : State := if s.pins.alertHeld then s else s.emit .alert

/-! ### Mark frames -/

/-- The 48-byte payload of a mark (R257). -/
def Mark.bytes (m : Mark) : Bytes :=
  toLE 6 m.period.toNat ++ [m.attempt] ++ toLE 1 (b2n m.bad + 2 * b2n m.mirror + 4 * b2n m.notice)
    ++ toLE 4 m.causes.toNat ++ toLE 2 m.cover.toNat ++ toLE 2 m.badParts.toNat ++ [m.seat, 0]
    ++ toLE 2 m.room.toNat ++ toLE 2 m.tile.toNat ++ [m.level, 0] ++ toLE 8 m.twin.toNat
    ++ toLE 8 m.cstep.toNat ++ toLE 8 m.mstep.toNat

/-- The mark that a payload spells, received on a port. -/
def markOf (port : Nat) (b : Bytes) : Mark :=
  { from_ := some port, period := BitVec.ofNat 48 (field b 0 6), attempt := BitVec.ofNat 8 (field b 6 1),
    bad := bit (field b 7 1) 0, mirror := bit (field b 7 1) 1, notice := bit (field b 7 1) 2,
    causes := BitVec.ofNat 32 (field b 8 4), cover := BitVec.ofNat 16 (field b 12 2),
    badParts := BitVec.ofNat 16 (field b 14 2), seat := BitVec.ofNat 8 (field b 16 1),
    room := BitVec.ofNat 16 (field b 18 2), tile := BitVec.ofNat 16 (field b 20 2),
    level := BitVec.ofNat 8 (field b 22 1), twin := BitVec.ofNat 64 (field b 24 8),
    cstep := BitVec.ofNat 64 (field b 32 8), mstep := BitVec.ofNat 64 (field b 40 8) }

/-- A mark frame of partition p (R151, R257). -/
def State.markFrame (s : State) (p : Bool) (m : Mark) : Frame :=
  { digest := s.lessonDigest p, period := s.pnum p, kind := 2, queue := BitVec.ofNat 13 (7936 + b2n p), seq := 0,
    attempt := BitVec.ofNat 8 (s.attempt p), seat := BitVec.ofNat 5 s.seat, payload := m.bytes }

/-- Sends a mark on the ports of a list that carry lesson traffic (R204, R209). -/
def State.sendMark (s : State) (p : Bool) (m : Mark) (ports : List Nat) : State :=
  (ports.filter s.carries).foldl (fun acc l => acc.sendFrame l (s.markFrame p m)) s

/-- Two marks of the same period combined (R257); the first bad part is the one of lower room index, then seat. -/
def State.combine (s : State) (a b : Mark) : Mark :=
  let key := fun (m : Mark) => if m.seat = 0xFF then 2 ^ 20 else s.roomIndex m.room.toNat * 32 + m.seat.toNat
  let f := if key b < key a then b else a
  { a with
    from_ := none
    bad := a.bad || b.bad
    mirror := a.mirror && b.mirror
    notice := a.notice || b.notice
    causes := a.causes ||| b.causes
    cover := a.cover + b.cover
    badParts := a.badParts + b.badParts
    seat := f.seat, room := f.room, tile := f.tile
    level := if a.level < b.level then b.level else a.level
    twin := 0
    cstep := if b.cstep < a.cstep then b.cstep else a.cstep
    mstep := if a.mstep < b.mstep then b.mstep else a.mstep }

/-! ### The mark tree -/

/-- The marks of a period, attempt and level that a part holds, oldest first. -/
def Part.marksOf (x : Part) (m : Mark) (level : Nat) : List Mark :=
  x.marks.filter fun y => (y.period == m.period || (y.notice && m.notice)) && y.attempt == m.attempt && y.notice == m.notice
    && y.level.toNat == level

/-- The seat whose level-0 mark arrives on a near port (R199). -/
def State.nearSeat (s : State) (port : Nat) : Nat := (s.seat + port + 1) % 18

/-- The room offset in dimension d of each received mark of level d + 1, in arrival order: the k-th that a port delivers
is that of the room k places on in the direction which the delivering seat faces (R258). -/
def State.offsets (s : State) (d : Nat) (ms : List Mark) : List (Nat × Mark) :=
  let n := s.dim d
  let c := roomCoord s.room d
  (ms.zipIdx).filterMap fun x =>
    match x.1.from_ with
    | none => none
    | some port =>
      let hop := ((ms.take x.2).filter (·.from_ == x.1.from_)).length + 1
      let seat := if port = 17 + d then s.seat else s.nearSeat port
      some ((if facesPlus c seat then hop % n else (n - hop % n) % n), x.1)

/-- The level-(d + 2) mark of dimension d once every room of the line is present: own mark and those at offsets 1 to
D − 1, by offset. -/
def State.lineMark (s : State) (x : Part) (d : Nat) (m : Mark) : Option Mark :=
  let ms := x.marksOf m (d + 1)
  match ms.find? (·.from_.isNone) with
  | none => none
  | some own =>
    let offs := s.offsets d ms
    (List.range (s.dim d)).foldl (fun (acc : Option Mark) o =>
      match acc with
      | none => none
      | some a =>
        if o = 0 then some a
        else
          match offs.find? (·.1 == o) with
          | some y => some (s.combine a y.2)
          | none => none) (some own)

/-- The level-1 mark once every seat of the room is present (R258). -/
def State.roomMark (s : State) (p : Bool) (l : Lesson) (x : Part) (m : Mark) : Option Mark :=
  let ms := x.marksOf m 0
  let at_ := fun n : Nat =>
    if n = s.seat then ms.find? (·.from_.isNone)
    else
      -- in twin mode the twin's first level-0 mark carries the digest of the exchange (R264), its second is the room's
      let got := ms.filter (·.from_ == some (nearPort s.seat n))
      if l.twin && !m.notice && n == s.twinSeat p then (got.drop 1).head? else got.head?
  ((roomSeats l).map (s.actingSeat p)).foldl (fun (acc : Option (Option Mark)) n =>
    match acc, at_ n with
    | some none, some y => some (some y)
    | some (some a), some y => some (some (s.combine a y))
    | _, _ => none) (some none) |>.join |>.map fun y => { y with from_ := none, twin := 0 }

/-- Raises a mark past the dimensions of size 1, and past all of them in a room-local lesson (R258). -/
def State.skipDims (s : State) (l : Lesson) (m : Mark) : Mark :=
  [0, 1, 2].foldl (fun (m : Mark) d =>
    if m.level.toNat = d + 1 ∧ (l.roomLocal ∨ s.dim d = 1) then { m with level := BitVec.ofNat 8 (d + 2) } else m) m

/-- One level of the tree: when the next mark up is complete and not yet made, it is made and sent to the neighbouring
room of its dimension. -/
def State.climb (s : State) (p : Bool) (l : Lesson) (m : Mark) (level : Nat) : State :=
  let x := s.part p
  if (x.marksOf m level).all (·.from_.isSome) then s
  else
    match if level = 0 then s.roomMark p l x m else s.lineMark x (level - 1) m with
    | none => s
    | some y =>
      let up := s.skipDims l { y with level := BitVec.ofNat 8 (level + 1) }
      if (x.marksOf m up.level.toNat).any (·.from_.isNone) then s
      else
        let s1 := s.setPart p { x with marks := x.marks ++ [up] }
        if up.level.toNat < 4 then s1.sendMark p up [16 + up.level.toNat] else s1

/-- The own level-4 mark of a period, if the tree is complete. -/
def Part.level4Of (x : Part) (m : Mark) : Option Mark := (x.marksOf m 4).find? (·.from_.isNone)

/-- Passes a received mark of level 1 to 3 on (R258): from a far port to the room; from a near port to this part's far port
where it faces the other way and the ring's hops are not exhausted. -/
def State.passMark (s : State) (p : Bool) (l : Lesson) (m : Mark) (port : Nat) : State :=
  let d := m.level.toNat - 1
  if m.level = 0 ∨ 4 ≤ m.level.toNat then s
  else if port = 17 + d then s.sendMark p m (s.roomPorts p l)
  else
    let c := roomCoord s.room d
    let ms := (s.part p).marksOf m (d + 1)
    let hop := (ms.filter (·.from_ == some port)).length
    let off := if facesPlus c (s.nearSeat port) then hop % s.dim d else (s.dim d - hop % s.dim d) % s.dim d
    let seen := ((s.offsets d (ms.dropLast)).any (·.1 == off))
    if facesPlus c s.seat != facesPlus c (s.nearSeat port) && decide (hop < s.dim d / 2) && !seen then
      s.sendMark p m [17 + d]
    else s

/-- Adds a mark to the tree and completes every level that it completes. -/
def State.addMark (s : State) (p : Bool) (l : Lesson) (m : Mark) : State :=
  let x := s.part p
  let s1 := s.setPart p { x with marks := x.marks ++ [m] }
  [0, 1, 2, 3].foldl (fun acc k => acc.climb p l m k) s1

/-! ### The part's own mark -/

/-- The lowest tile of partition p's lesson whose mark is bad. -/
def State.firstBad (s : State) (p : Bool) : Option Nat :=
  (s.partTiles p).find? fun t => (s.tile t).causes ≠ 0

/-- The causes of the partition's tiles and of the part itself for the period (R256). -/
def State.periodCauses (s : State) (p : Bool) : BitVec 32 :=
  ((s.tiles.filter fun x => decide (s.tilePart x.1 = some p)).foldl (fun acc x => acc ||| x.2.causes) (s.part p).causes)
    &&& 0xFF

/-- The level-0 mark of a period (R256, R257). -/
def State.partMark (s : State) (p : Bool) (per : BitVec 48) (mirror notice : Bool) (causes : BitVec 32) (twin : BitVec 64)
    (mstep : BitVec 64) : Mark :=
  let bad := !notice && decide (causes ≠ 0)
  { period := per, attempt := BitVec.ofNat 8 (s.attempt p), bad := bad, mirror := mirror, notice := notice, causes := causes,
    cover := 1, badParts := BitVec.ofNat 16 (b2n bad), seat := if bad then BitVec.ofNat 8 s.seat else 0xFF,
    room := BitVec.ofNat 16 s.room,
    tile := match s.firstBad p with | some t => BitVec.ofNat 16 t | none => 0xFFFF,
    level := 0, twin := twin, cstep := s.cstep64 p, mstep := mstep }

/-! ### Recall -/

/-- Action 4 of R156: VL of every tile is 64, slips return to 0, and row holds end (R86, R95, R147). -/
def State.freshTiles (s : State) (p : Bool) : State :=
  s.mapTiles ((s.tiles.map (·.1)).filter fun t => decide (s.tilePart t = some p)) fun x =>
    { x with eng := { x.eng with vl := 64 }, arr := { x.arr with hold := none }, slip := 0, wait := {} }

/-- A directory and its pointers emptied, token counters at 0 (R134, R139). -/
def State.stepReset (s : State) (ts : List Nat) : State :=
  ts.foldl (fun acc t =>
    let a1 := (List.range 4).foldl (fun (a : State) n => a.setReg (.tileToken t n) 0) acc
    let a2 := (a1.setRegFld (.tileAstat t) 31 19 0).setRegFld (.tileAstat t) 18 6 0
    a2.setTile t { a2.tile t with dir := [], planPtr := 0, spillPtr := 0 }) s

/-- The tiles of partition p that hold anything beyond the state of an untouched tile, and those of its lesson. -/
def State.liveTiles (s : State) (p : Bool) : List Nat :=
  ((s.tiles.map (·.1)).filter (fun t => decide (s.tilePart t = some p)) ++ s.lessonTiles p).eraseDups

/-- Streams, link queues and row holds emptied, credits at full depth (R150, R266); frames of an attempt that the part
has not reached yet stay (R152). -/
def State.emptyStreams (s : State) (p : Bool) : State :=
  let ts := s.liveTiles p
  let s1 := s.mapTiles ts fun x =>
    { x with inb := [], outCred := [], got := [], unsent := [], arr := { x.arr with hold := none } }
  let ports := s.namedPorts p
  let s2 := ports.foldl (fun (acc : State) l =>
    let y := acc.port l
    let keep := y.waiting.filter fun f =>
      let d := (f.attempt.toNat + 256 - s.attempt p) % 256
      decide (d < 128)
    acc.setPort l { y with waiting := keep, credits := [], gateCred := [], nextSeq := [], sendSeq := [], gate := [],
                            gateOut := [], late := [] }) s1
  { s2 with
    mesh := s2.mesh.filter fun f => decide (s.tilePart f.1 ≠ some p)
    meshCred := s2.meshCred.filter fun c =>
      if c.1 < 2 ^ 20 then decide (s.tilePart (c.1 / 16) ≠ some p) else !ports.contains ((c.1 - 2 ^ 20) / 192) }

/-- Steps 1 to 3 of R266: instructions in flight and outstanding stash requests end, streams and holds are emptied, token
counters and directories reset, queue fences lifted. -/
def State.quiesce (s : State) (p : Bool) : State :=
  let ts := s.liveTiles p
  let s1 := ts.foldl (fun acc t => acc.finishAll t) s
  let s2 := (s1.emptyStreams p).mapTiles ts fun x =>
    { x with stall := none, held := [], memStall := false, unqueued := [], slip := 0, wait := {}, qFenced := false }
  s2.stepReset ts

/-- The period number of index i of step `n`, from the numbers of the current period (R151, R228). -/
def State.pnumOf (s : State) (p : Bool) (periods : Nat) (n : BitVec 64) (i : Nat) : BitVec 48 :=
  s.pnum p - BitVec.ofNat 48 (s.part p).idx - BitVec.ofNat 48 ((s.step64 p).toNat * periods)
    + BitVec.ofNat 48 (n.toNat * periods) + BitVec.ofNat 48 i

/-- Clears the mark causes of a period. -/
def State.clearCauses (s : State) (p : Bool) : State :=
  let x := s.part p
  (s.setPart p { x with causes := 0 }).mapTiles ((s.tiles.map (·.1)).filter fun t => decide (s.tilePart t = some p))
    fun t => { t with causes := 0 }

/-- A commit of step T + 1 reverted to T: SEL toggles back, CHECK_CSTEP and the committed editions are those of T (R267). -/
def State.revertCommit (s : State) (p : Bool) (target : BitVec 64) : State :=
  if s.cstep64 p = target + 1 then
    let x := s.part p
    let s1 := (s.setRegBit (.checkBank p) 31 (!s.regBit (.checkBank p) 31)).setCstep64 p target
    -- the mirror step that is no longer committed has no flip (R228, R229); the zero runs are those before it (R286, R290)
    s1.setPart p { x with comEd := x.prevEd, prevBank := false, zeroRun := x.prevRun, flip := x.flip.filter fun n => decide (n ≤ target) }
  else s

/-- The committed edition of a region that the store does not list. -/
def noEdition : Nat → Word := fun _ => 0

/-- Every region's EDITION back at its committed edition, COUNT 0 and closed, every slot free (R228). -/
def State.revertEditions (s : State) (p : Bool) : State :=
  (s.lessonTiles p).foldl (fun acc t =>
    let a1 := (List.range 64).foldl (fun (a : State) n =>
      if a.regBit (.tileRegion t n) 31 then
        (a.setReg (.tileReged t n) (Bank.get noEdition (s.part p).comEd (t * 64 + n))).setReg (.tileRegcnt t n) 0
      else a) acc
    (List.range 31).foldl (fun (a : State) k => a.setReg (.tileEdslotr t (k + 1)) 0) a1) s

/-- Provisional watch counts of steps after the target dropped (R286), with every G that their tallies gave: the G of the step that is
replayed comes from the target's tallies and stays (R62). -/
def State.dropCounts (s : State) (p : Bool) (target : BitVec 64) : State :=
  let x := s.part p
  s.setPart p { x with
    watch := x.watch.filter fun e => decide (e.1 / 4096 ≤ target.toNat)
    gExp := x.gExp.filter fun e => decide (e.1 / 65536 ≤ target.toNat + 1) }

/-- The mirror slots exchange roles and CHECK_MSTEP becomes m; the refill of the own snapshot begins (R229). -/
def State.mirrorFlip (s : State) (p : Bool) (m : BitVec 64) : State :=
  let x := s.part p
  let w := s.reg (.checkMirror p)
  let nbr := fld w 12 11
  let stg := fld w 10 9
  let one := decide (fld w 31 16 = 1)
  -- M = 1: slots 0 and 1 exchange roles; M > 1: the staging slot becomes the neighbour mirror and the old one staging
  let w1 := if one then setFld w 12 11 (1 - nbr % 2) else setFld (setFld w 12 11 stg) 10 9 nbr
  let s1 := (s.setReg (.checkMirror p) (setFld (setFld w1 14 14 0) 13 13 0)).setMstep64 p m
  s1.setPart p { x with
    flip := none, inDone := false, allHeld := false, refill := true, rxPos := 0, unmirrored := false, mirEd := x.flipEd,
        mirRun := x.flipRun }

/-- A derivation period of the rebuild opens: index i of the target's step, which CHECK_STEP gives (DESIGN CHOICE, log 140), VL 64 and
no row held (R86, R95, R228). -/
def State.openRebuild (s : State) (p : Bool) (l : Lesson) (target : BitVec 64) (i : Nat) : State :=
  let s1 := ((s.setPnum p (s.pnumOf p l.periods target i)).setStep64 p target).freshTiles p
  s1.setPart p { s1.part p with idx := i, holdQ := 0, held := false, late := {} }

/-- The rebuild of a recall to a target begins (R228): editions and counts return, and the period number is that of the
committed step's first derivation period. -/
def State.beginRebuild (s : State) (p : Bool) (l : Lesson) (r : Recall) (target : BitVec 64) (failed : Bool) : State :=
  let s1 := (s.revertEditions p).dropCounts p target
  let s2 := s1.openRebuild p l target (l.deriv.headD 0)
  let x := s2.part p
  s2.setPart p { x with
    rcl := some { r with phase := .rebuild, target := target, failed := failed }
    marks := []
    flip := x.flip.filter fun n => decide (n ≤ target)
    wave := x.wave.map fun w => { w with opened := [] } }

/-! ### Restoration (R129, R231) -/

/-- The base of the active master bank: window 0 (R221, R226). -/
def State.bankBase (s : State) (p : Bool) : Nat := s.window p false (s.regFld (.checkBank p) 20 0 * 65536)

/-- Whether a line of the active bank is uncorrectable (R128). -/
def State.bankLost (s : State) (p : Bool) : Bool :=
  (List.range (s.regFld (.checkBanksize p) 20 0)).any fun i =>
    match s.translate p (s.bankBase p + 65536 * i) false with
    | some a => (s.markedLines a).any fun k => s.lineErr k == 2
    | none => false

/-- Whether the own snapshot holds step n (R229). -/
def State.ownHolds (s : State) (p : Bool) (n : BitVec 64) : Bool := s.regBit (.checkMirror p) 13 && s.mstep64 p == n

/-- Whether the active bank has lost lines that the own snapshot does not hold at the committed step, and the neighbour mirror can
bring them back at the mirrored step (R129). -/
def State.bankFails (s : State) (p : Bool) : Bool :=
  s.bankLost p && !s.ownHolds p (s.cstep64 p) && decide (s.regFld (.checkMirror p) 31 16 ≠ 0) && !(s.part p).unmirrored
    && decide (s.mstep64 p ≤ s.cstep64 p)

/-- The seat that this part's mirror stream goes to (R229). -/
def State.mirrorSeat (s : State) (p : Bool) (l : Lesson) : Nat :=
  s.actingSeat p ((s.homeSeat p + if Lesson.twin l then 2 else 1) % 16)

/-- The seat whose mirror stream this part receives (R229). -/
def State.mirroredSeat (s : State) (p : Bool) (l : Lesson) : Nat :=
  s.actingSeat p ((s.homeSeat p + if Lesson.twin l then 14 else 15) % 16)

/-- The slot that is the neighbour mirror (R229, R233). -/
def State.neighbourBase (s : State) (p : Bool) : Nat := s.slotBase p (s.regFld (.checkMirror p) 12 11)

/-- Window 0 made to reach the bank that holds step `target` (R129, R231): the active bank, the inactive one while no update has begun
to overwrite it since the commit, abandoned or not (R228), else the own snapshot, copied into the active bank; lines that are still
lost come from the
neighbour mirror of the next seat. -/
def State.restoreTo (s : State) (p : Bool) (target : BitVec 64) : State :=
  let s1 :=
    if s.cstep64 p = target then s
    else if s.cstep64 p = target + 1 ∧ (s.part p).prevBank then s.revertCommit p target
    else
      let a := if s.ownHolds p target then
        (s.copyPages p (s.slotBase p (s.ownSlot p)) (s.bankBase p) (s.regFld (.checkBanksize p) 20 0)).2 else s
      let x := a.part p
      (a.setPart p { x with comEd := x.mirEd, zeroRun := x.mirRun, healPos := if s.ownHolds p target then none else some 0 }).setCstep64
        p target
  let s2 := s1.healBank p target
  if s2.bankLost p then s2.setPart p { s2.part p with healPos := some 0 } else s2

/-- Whether the part whose mirror this part holds has lost its bank: its mark of the agreement round names the mirrored step as its
committed one, with the cause of an uncorrectable line (R129; DEDUCED, log 112). -/
def State.neighbourFails (s : State) (p : Bool) (l : Lesson) (target : BitVec 64) : Bool :=
  s.mstep64 p == target && (s.part p).marks.any fun m => m.notice && m.level == 0 && m.cstep == target && m.causes.toNat.testBit 1
    && m.from_ == some (nearPort s.seat (s.mirroredSeat p l))

/-- The streams that this part sends for a restoration (R231), begun anew with each attempt (R270): the neighbour mirror to the
substitute of the previous seat, and the own state to the substitute of the next seat, where they still have to take their seats or
their stream had not ended. -/
def State.restoreStreams (s : State) (p : Bool) (l : Lesson) : State :=
  let to_ := fun k : Nat => (s.part p).awaited.contains k || (s.part p).restores.any fun e => e.1 == nearPort s.seat k
  let back := if to_ (s.mirroredSeat p l) then [(nearPort s.seat (s.mirroredSeat p l), s.neighbourBase p, 0)] else []
  let on := if to_ (s.mirrorSeat p l) then [(nearPort s.seat (s.mirrorSeat p l), s.bankBase p, 0)] else []
  let s1 := s.setPart p { s.part p with restores := back ++ on }
  if on.isEmpty then s1 else s1.setRegBit (.checkMirror p) 15 true

/-- The agreement round complete with full coverage (R266 to R268, R270): the causes of every part joined, the target, reversion, then
the rebuild. A part that the mirror brings back reads its neighbour's stream (R129). -/
def State.agreed (s : State) (p : Bool) (l : Lesson) (m : Mark) : State :=
  match (s.part p).rcl with
  | none => s
  | some r =>
    let c := r.causes ||| m.causes
    let s1 := s.setRegFld (.checkRecall p) 15 0 (c.toNat % 65536)
    let out := if s1.neighbourFails p l m.cstep then [(nearPort s.seat (s.mirroredSeat p l), s1.neighbourBase p, 0)] else []
    let s2 := ((s1.restoreTo p m.cstep).beginRebuild p l { r with causes := c } m.cstep r.failed).restoreStreams p l
    s2.setPart p { s2.part p with restores := (s2.part p).restores.filter (fun e => !out.any fun o => o.1 == e.1) ++ out }

/-- A job stops: STOP in CHECK_MARK, and an alert to management (R281). -/
def State.stopJob (s : State) (p : Bool) : State := (s.setRegBit (.checkMark p) 29 true).alert

/-- The level-0 mark of the agreement round (R267). A part whose bank only the mirror can bring back names the mirrored step as its
committed one, so that the job recalls to it; one that is still being brought back gives the cause again (R129; DEDUCED, log 112). -/
def State.agreeMark (s : State) (p : Bool) (per : BitVec 48) (causes : BitVec 32) : Mark :=
  let x := s.part p
  let held := x.allHeld && x.flip.isSome
  { s.partMark p per held true (if x.healPos.isSome then causes ||| 2 else causes) 0 (if held then x.flip.getD 0 else s.mstep64 p) with
    cstep := if s.bankFails p then s.mstep64 p else s.cstep64 p }

/-- Sends this part's level-0 mark to its room and adds it to the tree (R258). -/
def State.ownMark (s : State) (p : Bool) (l : Lesson) (m : Mark) : State :=
  (s.sendMark p m (s.roomPorts p l)).addMark p l m

/-- Ends an agreement whose level-4 coverage is the job's part count (R267). -/
def State.tryAgree (s : State) (p : Bool) (l : Lesson) (m : Mark) : State :=
  match (s.part p).rcl, (s.part p).level4Of m with
  | some r, some y =>
    if r.phase = .agreement ∧ y.notice ∧ y.cover.toNat = jobParts l then s.agreed p l y else s
  | _, _ => s

/-- A received mark in the tree: it is added and passed on (R258). -/
def State.takeMark (s : State) (p : Bool) (l : Lesson) (port : Nat) (m : Mark) : State := (s.addMark p l m).passMark p l m port

/-- The mark frames of an attempt that wait at the ports of partition p's lesson (R152), with their ports. -/
def State.waitingMarks (s : State) (p : Bool) (attempt : Nat) : List (Nat × Mark) :=
  (s.namedPorts p).flatMap fun l =>
    ((s.port l).waiting.filter fun f => f.kind == 2 && decide (f.attempt.toNat = attempt)).map fun f =>
      (l, markOf l (padTo 48 f.payload))

/-- The short frames of an attempt leave their queues: marks are taken in, and the credits are full already. -/
def State.dropWaiting (s : State) (p : Bool) (attempt : Nat) : State :=
  (s.namedPorts p).foldl (fun (acc : State) l =>
    let y := acc.port l
    acc.setPort l { y with waiting := y.waiting.filter fun f => f.kind == 0 || decide (f.attempt.toNat ≠ attempt) }) s

/-- A new attempt of partition p: bells stop, the attempt number rises, notices leave on every up port that the lesson
names, the machine is quiesced, and the agreement round begins (R265, R266, R269). -/
def State.newAttempt (s : State) (p : Bool) (l : Lesson) (causes : BitVec 32) (per : BitVec 48) (halt failed : Bool) : State :=
  let notice := { s.partMark p per false true causes 0 (s.mstep64 p) with bad := false }
  let s1 := s.sendMark p notice (s.namedPorts p)
  let s2 := (s1.setRegFld (.bellStat p) 31 29 0).setRegFld (.bellPnumHi p) 31 24 ((s.attempt p + 1) % 256)
  let n := satAdd 255 (s.regFld (.checkRecall p) 31 24) 1
  let s3 := (s2.setRegFld (.checkRecall p) 31 24 n).setRegFld (.checkRecall p) 15 0 (causes.toNat % 65536)
  let s4 := ((s3.setReg (.checkRpnum p) (BitVec.ofNat 32 per.toNat)).setRegBit (.checkMark p) 30 true).setRegFld
    (.checkMark p) 12 0 0
  let s5 := (((s4.quiesce p).clearCauses p).setRegBit (.checkMirror p) 15 false).setRegBit (.checkMirror p) 14 false
  let now := (s.attempt p + 1) % 256
  let got := s5.waitingMarks p now
  let s6 := s5.dropWaiting p now
  let x := s6.part p
  let s7 := { s6 with moving := s6.moving ++ x.remap }.setPart p { x with
    rcl := some { period := per, causes := causes, halt := halt, phase := .agreement, target := 0, failed := failed }
    -- a restoration that was under way begins anew (R270)
    healPos := x.healPos.map fun _ => 0
    -- the period without a holdover limit is over (R368)
    noMax := false
    marks := [], level4 := [], pend := 0, further := false, twinOwn := [], digFrames := [], digLines := [], holdQ := 0,
        inRecess := false, remap := [] }
  let s8 := got.foldl (fun (acc : State) e => acc.takeMark p l e.1 e.2) s7
  let m := s8.agreeMark p per causes
  (s8.ownMark p l m).tryAgree p l m

/-- A recall cause held until the pause of a firmware change ends (R369), joined to those held before. -/
def State.holdNote (s : State) (p : Bool) (causes : BitVec 32) (per : BitVec 48) (halt : Bool) : State :=
  let x := s.part p
  s.setPart p { x with heldNote := match x.heldNote with
    | some n => some (n.1 ||| causes, n.2.1, n.2.2 || halt)
    | none => some (causes, per, halt) }

/-- A recall cause in partition p (R265, R270): it starts a recall of a running job, joins an agreement in progress, and
starts a new attempt during a rebuild or a hold. Without a running job it does nothing. -/
def State.recall (s : State) (p : Bool) (causes : BitVec 32) (per : BitVec 48) (halt : Bool) : State :=
  match s.lesson p with
  | none => s
  | some l =>
    match (s.part p).rcl with
    | none =>
      let x := s.part p
      if s.running p then s.newAttempt p l causes per halt false
      else if x.fwStop then s.holdNote p causes per halt
      else if s.regBit (.secPstat p) 29 || x.saving.isSome then
        (if s.fwPaused then s.holdNote p causes per halt else s.newAttempt p l causes per halt false)
      else s
    | some r =>
      match r.phase with
      | .agreement =>
        let x := s.part p
        (s.setPart p { x with rcl := some { r with causes := r.causes ||| causes, halt := halt || r.halt } }).setRegFld
          (.checkRecall p) 15 0 ((r.causes ||| causes).toNat % 65536)
      -- a cause that arises during the rebuild or while the job holds starts a new attempt (R270)
      | _ =>
        if s.fwPaused then s.holdNote p causes per halt
        else s.newAttempt p l (causes ||| r.causes) per (halt || r.halt) r.failed

/-- A recall cause of bits 8 to 12 detected now. -/
def State.recallNow (s : State) (p : Bool) (bitNo : Nat) : State :=
  s.recall p (BitVec.ofNat 32 (2 ^ bitNo)) (s.pnum p) false

/-! ### Fences of a port -/

/-- Fences a port: STATE 4, and the job that names it is recalled with bit 8 (R152, R194, R271). -/
def State.fencePort (s : State) (l : Nat) : State :=
  let s1 := (s.setRegFld (.linkStat l) 31 28 4).fenceRec (s.portPart l) 1 (toLE 1 l ++ [0xFF, 0]) 2 256
  [false, true].foldl (fun (acc : State) p => if (s.namedPorts p).contains l then acc.recallNow p 8 else acc) s1

/-! ### Protected stash regions -/

/-- Whether a partition-relative address lies in the active master bank or in a frozen image of the running job (R128). -/
def State.guarded (s : State) (p : Bool) (a : Nat) : Bool :=
  let b := s.regFld (.checkBank p) 20 0 * 65536
  let z := s.regFld (.checkBanksize p) 20 0 * 65536
  let base := if s.regBit (.checkBank p) 31 then b + z else b
  let bank := decide (base ≤ a) && decide (a < base + z)
  bank ||
    (match s.lesson p with
     | none => false
     | some l => l.places.any fun e =>
        e.mem == 3 && decide (e.addr ≤ a) &&
          (match l.tensors.find? (·.n == e.tensor) with
           | some t => t.kind == 1 && decide (a < e.addr + placeBytes e t.fmt)
           | none => false))

end Sys2Proof.Machine
end

