-- ==== Sys2Proof/Machine/Transc.lean ====
section
/-! DEFINITION. Transcendental functions, roots and division rounded once to fp32 (R104). Each function is enclosed by
exact integers on unit 2^−w; where both ends round alike that is the result, else the
precision doubles. -/

set_option Elab.async false

namespace Sys2Proof.Machine

/-- What a lane of an fp32 function gives: the word, and the flags of R114. -/
structure LaneF where
  w      : Word
  ovf    : Bool := false
  nanOut : Bool := false
  domain : Bool := false
  deriving DecidableEq, Repr

/-- A rounding as a lane result. -/
def LaneF.of (r : Rounded) : LaneF := { w := BitVec.ofNat 32 r.code, ovf := r.ovf, nanOut := r.nan }

/-- The canonical NaN made from a NaN or infinite input (R43). -/
def LaneF.nanIn : LaneF := { w := nan32, nanOut := true }

/-- The canonical NaN of a domain error (R104). -/
def LaneF.domErr : LaneF := { w := nan32, domain := true }

/-- An infinity of a pole or an overflow (R104). -/
def LaneF.infinity (neg : Bool) : LaneF := { w := if neg then 0xFF800000 else 0x7F800000, ovf := true }

/-- Σ rᵏ/k! on unit 2^−w, from a term on. -/
def expTerms (w : Nat) (r : Int) : Nat → Nat → Int → Int → Int
  | 0, _, _, acc => acc
  | n + 1, k, t, acc => expTerms w r n (k + 1) (t * r / 2 ^ w / (k + 1 : Nat)) (acc + t)

/-- e^r on unit 2^−w for 0 ≤ r < 1. -/
def fixExp (w : Nat) (r : Int) : Int := expTerms w r (40 + w / 4) 0 (2 ^ w) 0

/-- Σ z^(2k+1)/(2k+1) on unit 2^−w, z² given. -/
def atanhTerms (w : Nat) (z2 : Int) : Nat → Nat → Int → Int → Int
  | 0, _, _, acc => acc
  | n + 1, k, t, acc => atanhTerms w z2 n (k + 1) (t * z2 / 2 ^ w) (acc + t / (2 * k + 1 : Nat))

/-- atanh z on unit 2^−w for 0 ≤ z ≤ 1/3. -/
def fixAtanh (w : Nat) (z : Int) : Int := atanhTerms w (z * z / 2 ^ w) (w / 3 + 8) 0 z 0

/-- ln 2 on unit 2^−w. -/
def fixLn2 (w : Nat) : Int := 2 * fixAtanh w (2 ^ w / 3)

/-- Σ (−1)^k t/(2k+1) with t falling by q² each term. -/
def atanTerms (q2 : Int) : Nat → Nat → Int → Int → Int
  | 0, _, _, acc => acc
  | n + 1, k, t, acc => atanTerms q2 n (k + 1) (t / q2) (if k % 2 = 0 then acc + t / (2 * k + 1 : Nat) else acc - t / (2 * k + 1 : Nat))

/-- π on unit 2^−w (Machin). -/
def fixPi (w : Nat) : Int :=
  16 * atanTerms 25 (w / 4 + 8) 0 (2 ^ w / 5) 0 - 4 * atanTerms 57121 (w / 4 + 8) 0 (2 ^ w / 239) 0

/-- Alternating Taylor terms of sine (odd) or cosine (even): t falls by r²/((k+1)(k+2)). -/
def trigTerms (w : Nat) (r2 : Int) : Nat → Nat → Bool → Int → Int → Int
  | 0, _, _, _, acc => acc
  | n + 1, k, s, t, acc =>
    trigTerms w r2 n (k + 2) (!s) (t * r2 / 2 ^ w / ((k + 1) * (k + 2) : Nat)) (if s then acc - t else acc + t)

/-- sin r on unit 2^−w for 0 ≤ r < 2. -/
def fixSin (w : Nat) (r : Int) : Int := trigTerms w (r * r / 2 ^ w) (40 + w / 4) 1 false r 0
/-- cos r on unit 2^−w for 0 ≤ r < 2. -/
def fixCos (w : Nat) (r : Int) : Int := trigTerms w (r * r / 2 ^ w) (40 + w / 4) 0 false (2 ^ w) 0

/-- Σ (−1)^k x^(2k+1)/(k! (2k+1)) on unit 2^−w, t being x^(2k+1)/k!. -/
def erfTerms (w : Nat) (x2 : Int) : Nat → Nat → Int → Int → Int
  | 0, _, _, acc => acc
  | n + 1, k, t, acc =>
    erfTerms w x2 n (k + 1) (t * x2 / 2 ^ w / (k + 1 : Nat))
      (if k % 2 = 0 then acc + t / (2 * k + 1 : Nat) else acc - t / (2 * k + 1 : Nat))

/-- erf x on unit 2^−w for 0 ≤ x < 8: the terms reach e^64, so 128 guard bits are carried. -/
def fixErf (w : Nat) (x : Int) : Int :=
  let g := w + 128
  let y := x * 2 ^ 128
  let s := erfTerms g (y * y / 2 ^ g) (250 + w) 0 y 0
  let rootPi : Int := (isqrt (fixPi g * 2 ^ g).toNat : Int)
  2 * s * 2 ^ g / rootPi / 2 ^ 128

/-- m · 2^e as an integer on unit 2^−w (exact for e ≥ −w). -/
def onUnit (w : Nat) (neg : Bool) (m : Nat) (e : Int) : Int :=
  let v : Int := if 0 ≤ e + w then (m : Int) * 2 ^ (e + w).toNat else (m : Int) / 2 ^ (-(e + w)).toNat
  if neg then -v else v

/-- The rounding that both ends of v ± 2^64 on unit 2^e give, if they agree. -/
def decideRound (v e : Int) : Option Rounded :=
  let lo := Fmt.fp32.roundInt (v - 2 ^ 64) e
  let hi := Fmt.fp32.roundInt (v + 2 ^ 64) e
  if lo = hi then some lo else none

/-- e^x for x = X·2^−w, |x| < 2^9: an integer and its unit exponent. -/
def expAt (w : Nat) (x : Int) : Int × Int :=
  let l := fixLn2 w
  let n := x / l
  (fixExp w (x - n * l), n - w)

/-- ln of m · 2^e, m > 0, on unit 2^−w. -/
def lnAt (w m : Nat) (e : Int) : Int :=
  let k := Nat.log2 m
  let y : Int := (m : Int) * 2 ^ w / 2 ^ k
  let one : Int := 2 ^ w
  (e + k) * fixLn2 w + 2 * fixAtanh w ((y - one) * one / (y + one))

/-- The function codes of VX.TR (R99). -/
inductive TrFn where
  | exp | exp2 | log | log2 | rcp | sqrt | rsqrt | tanh | sigm | erf | sin | cos
  deriving DecidableEq, Repr

/-- The function code in the word (R99). -/
def TrFn.code : TrFn → Nat
  | .exp => 0 | .exp2 => 1 | .log => 2 | .log2 => 3 | .rcp => 4 | .sqrt => 5 | .rsqrt => 6 | .tanh => 7
  | .sigm => 8 | .erf => 9 | .sin => 10 | .cos => 11

/-- The exact value of a function that needs an enclosure, for a finite non-special argument, to within 2^64 units: an integer and
its unit exponent, at working precision w. -/
def trVal (f : TrFn) (w : Nat) (neg : Bool) (m : Nat) (e : Int) : Int × Int :=
  let x := onUnit w neg m e
  let one : Int := 2 ^ w
  match f with
  | .exp => expAt w x
  | .exp2 =>
    let n := x / one
    let r := fixExp w ((x - n * one) * fixLn2 w / one)
    (r, n - w)
  | .log => (lnAt w m e, -(w : Int))
  | .log2 => (lnAt w m e * one / fixLn2 w, -(w : Int))
  | .tanh =>
    let a := onUnit w false m e
    let r := expAt w (2 * a)
    let big := onUnit w false r.1.toNat r.2
    let t := one - 2 * one * one / (big + one)
    (if neg then -t else t, -(w : Int))
  | .sigm =>
    let r := expAt w (-x)
    let big := onUnit w false r.1.toNat r.2
    (one * one / (one + big), -(w : Int))
  | .erf =>
    let t := fixErf w (onUnit w false m e)
    (if neg then -t else t, -(w : Int))
  | .sin | .cos =>
    let g := w + 160
    let hp := fixPi g / 2
    let xh := onUnit g false m e
    let q := xh / hp
    let r := (xh - q * hp) / 2 ^ 160
    let quad := (q % 4).toNat
    let v := match f with
      | .sin => match quad with
        | 0 => fixSin w r | 1 => fixCos w r | 2 => -fixSin w r | _ => -fixCos w r
      | _ => match quad with
        | 0 => fixCos w r | 1 => -fixSin w r | 2 => -fixCos w r | _ => fixSin w r
    (if neg && f == .sin then -v else v, -(w : Int))
  | _ => (0, 0)

/-- The rounding by enclosures of 320, 640 and 1280 bits; the last one's own rounding where none decides: the enclosed value, which
is irrational, would lie within 2^−1100 of the middle between two fp32 values. -/
def trEnclose (f : TrFn) (neg : Bool) (m : Nat) (e : Int) : LaneF :=
  let v := fun (w : Nat) => trVal f w neg m e
  match decideRound (v 320).1 (v 320).2 with
  | some r => .of r
  | none =>
    match decideRound (v 640).1 (v 640).2 with
    | some r => .of r
    | none => .of (Fmt.fp32.roundInt (v 1280).1 (v 1280).2)

/-- Whether |m · 2^e| ≥ 2^k for m > 0. -/
def atLeast (m : Nat) (e k : Int) : Bool := decide (k ≤ expOf m e)

/-- A zero of fp32 reached by underflow, with the sign given. -/
def LaneF.tiny : LaneF := { w := 0 }

/-- A VX.TR function of one lane (R104). -/
def trLane (f : TrFn) (word : Word) : LaneF :=
  match f32 word with
  | .fin neg m e =>
    if m = 0 then
      match f with
      | .exp | .exp2 | .cos => { w := 0x3F800000 }
      | .sigm => { w := 0x3F000000 }
      | .log | .log2 => .infinity true
      | .rcp | .rsqrt => .infinity neg
      | .sqrt | .tanh | .erf | .sin => { w := word }
    else
      match f with
      | .exp => if atLeast m e 7 then (if neg then .tiny else .infinity false) else trEnclose f neg m e
      | .exp2 =>
        if atLeast m e 8 then (if neg then .tiny else .infinity false)
        else if 0 ≤ e ∨ m % 2 ^ (-e).toNat = 0 then
          let n : Int := onUnit 0 neg m e
          .of (Fmt.fp32.roundFin false 1 n)
        else trEnclose f neg m e
      | .log =>
        if neg then .domErr
        else if word = 0x3F800000 then { w := 0 }
        else trEnclose f neg m e
      | .log2 =>
        if neg then .domErr
        else if m = 2 ^ Nat.log2 m then .of (to32 (ofInt (expOf m e)))
        else trEnclose f neg m e
      | .rcp => .of (to32 (fDivExact (.fin false 1 0) (.fin neg m e)))
      | .sqrt => if neg then .domErr else let r := sqrtSticky m e; .of (Fmt.fp32.roundFin false r.1 r.2)
      | .rsqrt =>
        if neg then .domErr
        else
          let k : Nat := 400 + (if e % 2 = 0 then 0 else 1)
          let r := isqrt (2 ^ k / m)
          .of (Fmt.fp32.roundFin false (2 * r + (if r * r * m = 2 ^ k then 0 else 1)) (-((k : Int) + e) / 2 - 1))
      | .tanh => if atLeast m e 5 then { w := if neg then 0xBF800000 else 0x3F800000 } else trEnclose f neg m e
      | .sigm => if atLeast m e 8 then { w := if neg then 0 else 0x3F800000 } else trEnclose f neg m e
      | .erf => if atLeast m e 3 then { w := if neg then 0xBF800000 else 0x3F800000 } else trEnclose f neg m e
      | .sin | .cos => trEnclose f neg m e
  | _ => .nanIn

/-- DIV of one lane (R104). -/
def divLane (a b : Word) : LaneF :=
  match f32 a, f32 b with
  | .fin na ma ea, .fin nb mb eb =>
    if mb = 0 then (if ma = 0 then .domErr else .infinity (na != nb))
    else .of (to32 (fDivExact (.fin na ma ea) (.fin nb mb eb)))
  | _, _ => .nanIn

end Sys2Proof.Machine
end

