-- ==== Sys2Proof/Machine/Operands.lean ====
section
/-! DEFINITION. Operand forms: the elements of weight blocks and activation rows (R57, R69, R70, R83), reading rows from
desk memory or a stream (R70, R75), and the vector engine's registers, broadcast operands and lane masks (R95 to R98). -/

set_option Elab.async false

namespace Sys2Proof.Machine

/-! ### Matrix operands -/

/-- One stored matrix element: its exact significand and exponent (none: NaN or infinite), for fp32 also the low part of
R57, and whether hi overflowed. -/
structure MxEl where
  hi : Option (Int × Int)
  lo : Option (Int × Int) := none
  ov : Bool := false
  deriving DecidableEq, Repr, Inhabited

/-- The +0 element. -/
def MxEl.zero : MxEl := { hi := some (0, 0) }

/-- An element from its exact value. -/
def MxEl.of (v : FVal) : MxEl := { hi := v.opnd }

/-- The split of an fp32 element in B16x3 mode (R57). -/
def MxEl.split (v : FVal) : MxEl :=
  match v with
  | .fin n m e =>
    let h := Fmt.bf16.roundFin n m e
    if h.ovf then { hi := some (0, 0), lo := some (0, 0), ov := true }
    else
      let hv := Fmt.bf16.decode h.code
      let l := Fmt.bf16.round (fAddExact v hv.negate)
      { hi := hv.opnd, lo := (Fmt.bf16.decode l.code).opnd }
  | _ => { hi := none }

/-- The element of a byte string at index i in a byte-sized format. -/
def mxElAt (f : Fmt) (b : Bytes) (i : Nat) : MxEl :=
  let v := f.decode (field b (f.bytes * i) f.bytes)
  if f = .fp32 then .split v else .of v

/-- Whether every operand of a row is finite and none overflowed. -/
def MxEl.finite (x : MxEl) : Bool := x.hi.isSome && !x.ov

/-- The exact products that a pair of elements adds: one, or three in B16x3 mode (R57, R67), as significands and exponent. -/
def mxProducts (b16x3 : Bool) (x w : MxEl) : List (Int × Int × Int) :=
  match x.hi, w.hi with
  | some (sx, ex), some (sw, ew) =>
    if b16x3 then
      match x.lo, w.lo with
      | some (lx, fx), some (lw, fw) => [(sx, sw, ex + ew), (sx, lw, ex + fw), (lx, sw, fx + ew)]
      | _, _ => [(sx, sw, ex + ew)]
    else [(sx, sw, ex + ew)]
  | _, _ => []

/-- Depth D of a weight block by format code (R65, R69). -/
def depthOf (fmt : Nat) : Nat := match fmt with | 0 => 20 | 1 => 40 | 2 => 40 | 3 => 80 | _ => 20

/-- Bytes of a stored weight block (R69). -/
def blockBytes (fmt : Nat) : Nat := match fmt with | 3 => 880 | 4 => 1600 | _ => 800

/-- Element k of column n of a stored block (R69); E2M1 elements lie two a byte, the even one low, and those past the block's rows of K
read +0 (R37). -/
def WBlock.el (b : WBlock) (n k : Nat) : MxEl :=
  match fmtOf b.fmt.toNat with
  | some .e2m1 =>
    let i := 80 * n + k
    let byte := (b.data.getD (i / 2) 0).toNat
    let nib := if i % 2 = 0 then byte % 16 else byte / 16
    if b.depth ≤ k then .zero
    else .of (mxElem nib (b.data.getD (800 + 4 * n + (k + b.off.toNat) / 32) 0).toNat)
  | some f =>
    let o := f.bytes * (depthOf b.fmt.toNat * n + k)
    let v := f.decode (leNat ((List.range f.bytes).map fun j => b.data.getD (o + j) 0))
    if f = .fp32 then .split v else .of v
  | none => .zero

/-- The 20 columns of a block, each in K order; the block of +0 where none is loaded (R426). -/
def WBlock.cols (b : WBlock) : List (List MxEl) :=
  let d := depthOf b.fmt.toNat
  (List.range 20).map fun n => if b.loaded then (List.range d).map (b.el n) else List.replicate d MxEl.zero

/-- The D rows of K of a block, each along N (R83). -/
def WBlock.krows (b : WBlock) : List (List MxEl) :=
  let d := depthOf b.fmt.toNat
  (List.range d).map fun k => if b.loaded then (List.range 20).map fun n => b.el n k else List.replicate 20 MxEl.zero

/-- Whether R65 pairs a weight format with an activation format; R84 allows the same pairs in a cross-read run. -/
def pairOk (w a : Nat) : Bool :=
  match w, a with
  | 4, 4 => true
  | 0, 0 | 0, 1 | 0, 2 => true
  | 1, 0 | 1, 1 | 1, 2 | 2, 0 | 2, 1 | 2, 2 => true
  | 3, 0 | 3, 1 | 3, 2 => true
  | _, _ => false

/-- The slot of a row of n bytes in desk memory (R70). -/
def slotOf (n : Nat) : Nat := if n ≤ 64 then 64 else if n ≤ 128 then 128 else 256

/-- Flits of one row of n bytes and its sidecar byte on a stream (R70). -/
def rowFlits (n : Nat) : Nat := (n + 1 + 63) / 64

/-- Rows with their sidecar bytes: from desk memory row slot by row slot, or from a stream; none while flits are missing
(R70, R75). `side` none: no sidecar array is read (R87). -/
def State.readRows (s : State) (c : Ctx) (stream : Bool) (addr n rowBytes : Nat) (side : Option Nat) :
    Option (List (Bytes × Nat)) × State :=
  if stream then
    let st := addr % 16
    let f := rowFlits rowBytes
    match s.takeFlits c.t st (n * f) with
    | (none, s1) => (none, s1)
    | (some fl, s1) =>
      (some ((List.range n).map fun r =>
        let b := ((fl.drop (r * f)).take f).flatten
        (padTo rowBytes b, (b.getD rowBytes 0).toNat)), s1)
  else
    let r := (List.range n).foldl (fun (acc : List (Bytes × Nat) × State) r =>
      let x := acc.2.readCore c false (addr + r * slotOf rowBytes) rowBytes
      match side with
      | some a =>
        let y := x.2.readCore c false (a + r) 1
        (acc.1 ++ [(x.1, leNat y.1)], y.2)
      | none => (acc.1 ++ [(x.1, 0)], x.2)) ([], s)
    let s1 := r.2.rangeCheck c false ((List.range n).map fun r => (addr + r * slotOf rowBytes, rowBytes))
    (some r.1, match side with | some a => s1.rangeCheck c false [(a, n)] | none => s1)

/-! ### Vector operands -/

/-- A word that a register store does not list. -/
def zeroWord : Nat → Word := fun _ => 0
/-- A mask that the store does not list. -/
def zeroMask : Nat → DWord := fun _ => 0
/-- A grid lane that the store does not list. -/
def zeroLane : Nat → GLane := fun _ => {}

/-- Lane l of V register v. -/
def Engine.lane (e : Engine) (v l : Nat) : Word := Bank.get zeroWord e.v (64 * v + l)
/-- The engine with lane l of V register v changed. -/
def Engine.setLane (e : Engine) (v l : Nat) (w : Word) : Engine := { e with v := Bank.set zeroWord e.v (64 * v + l) w }
/-- Scalar register n. -/
def Engine.scalar (e : Engine) (n : Nat) : Word := Bank.get zeroWord e.s n
/-- The engine with a scalar register changed. -/
def Engine.setScalar (e : Engine) (n : Nat) (w : Word) : Engine := { e with s := Bank.set zeroWord e.s n w }
/-- Mask register n. -/
def Engine.maskReg (e : Engine) (n : Nat) : DWord := Bank.get zeroMask e.m n
/-- The engine with a mask register changed. -/
def Engine.setMask (e : Engine) (n : Nat) (w : DWord) : Engine := { e with m := Bank.set zeroMask e.m n w }
/-- Lane l of grid register q. -/
def Engine.grid (e : Engine) (q l : Nat) : GLane := Bank.get zeroLane e.q (64 * q + l)
/-- The engine with a grid lane changed. -/
def Engine.setGrid (e : Engine) (q l : Nat) (g : GLane) : Engine := { e with q := Bank.set zeroLane e.q (64 * q + l) g }
/-- Byte l of sidecar register VSn. -/
def Engine.side (e : Engine) (n l : Nat) : Nat := (Bank.byte e.vs (64 * n + l)).toNat
/-- The engine with a sidecar byte changed. -/
def Engine.setSide (e : Engine) (n l v : Nat) : Engine := { e with vs := Bank.set zeroByte e.vs (64 * n + l) (BitVec.ofNat 8 v) }

/-- The count of a run (R97). -/
def vCount (a : VArgs) : Nat := a.cnt.toNat + 1

/-- Whether a mask field clears a lane (R96, R97). -/
def Engine.masked (e : Engine) (m l : Nat) : Bool := decide (m ≠ 0) && !(e.maskReg m).getLsbD l

/-- The active lanes of an instruction: 0 to VL − 1 minus those its mask clears (R96). -/
def Engine.active (e : Engine) (m : Nat) : List Nat := (List.range e.vl.toNat).filter fun l => !e.masked m l

/-- Operand B in iteration i, lane l (R98). -/
def Engine.opB (e : Engine) (a : VArgs) (i l : Nat) : Word :=
  match a.bmode.toNat with
  | 0 => e.lane (a.vb.toNat + i) l
  | 1 => e.lane a.vb.toNat l
  | 2 => e.lane a.vb.toNat (a.l0.toNat + i)
  | _ => e.scalar (a.vb.toNat % 16)

/-- R97 and R98's checks on the runs of registers that an instruction names: vd, va and vb where each is a vector register,
and the lanes of a column broadcast. A field that the function does not read is no run (DEDUCED, log 15). -/
def runsOk (a : VArgs) (vd va vb : Bool) : Bool :=
  (!vd || decide (a.vd.toNat + a.cnt.toNat ≤ 31)) && (!va || decide (a.va.toNat + a.cnt.toNat ≤ 31))
    && (!(vb && a.bmode == 0) || decide (a.vb.toNat + a.cnt.toNat ≤ 31))
    && (!(vb && a.bmode == 2) || decide (a.l0.toNat + a.cnt.toNat ≤ 63))

/-- The group bits of a word as a number. -/
def vSpec (a : VArgs) : Nat := a.g.toNat

/-- A run of scalar registers from n stays within S15 (R97). -/
def scalarsOk (a : VArgs) (n : Nat) : Bool := decide (n % 16 + a.cnt.toNat ≤ 15)

/-- The engine of a tile changed. -/
def State.setEng (s : State) (t : Nat) (e : Engine) : State := s.setTile t { s.tile t with eng := e }

/-- The array of a tile changed. -/
def State.setArr (s : State) (t : Nat) (x : MArray) : State := s.setTile t { s.tile t with arr := x }

end Sys2Proof.Machine
end

