-- ==== Sys2Proof/Machine/Flags.lean ====
section
/-! DEFINITION. The sticky exception flags of the vector engine (R114) and the check events of the array (R81). -/

set_option Elab.async false

namespace Sys2Proof.Machine

/-- What one instruction's lanes raise in TILE_VXFLAGS (R114): `lr` counts lane-range events. -/
structure VFlags where
  lr     : Nat := 0
  ovf    : Bool := false
  nanOut : Bool := false
  domain : Bool := false
  clamp  : Bool := false
  deriving DecidableEq, Repr

/-- Both instructions' events. -/
def VFlags.or (a b : VFlags) : VFlags :=
  { lr := a.lr + b.lr, ovf := a.ovf || b.ovf, nanOut := a.nanOut || b.nanOut, domain := a.domain || b.domain,
    clamp := a.clamp || b.clamp }

/-- The flags of a lane result. -/
def LaneF.flags (x : LaneF) : VFlags := { ovf := x.ovf, nanOut := x.nanOut, domain := x.domain }

/-- TILE_VXFLAGS after an instruction's events: sticky bits set, LRCOUNT raised, saturating at 65,535 (R114). -/
def vxWord (w : Word) (f : VFlags) : Word :=
  let w1 := if 0 < f.lr then setFld w 31 31 1 else w
  let w2 := if f.ovf then setFld w1 30 30 1 else w1
  let w3 := if f.nanOut then setFld w2 29 29 1 else w2
  let w4 := if f.domain then setFld w3 28 28 1 else w3
  let w5 := if f.clamp then setFld w4 27 27 1 else w4
  setFld w5 15 0 (satAdd 65535 (fld w 15 0) f.lr)

/-- Raises an instruction's events in TILE_VXFLAGS. -/
def State.raiseVx (s : State) (t : Nat) (f : VFlags) : State :=
  if f = {} then s else s.setReg (.tileVxflags t) (vxWord (s.reg (.tileVxflags t)) f)

/-- TILE_MXRES after one check event (R81): MISMATCH, STAGE, COUNT, DIFF. -/
def mxresWord (w : Word) (stage diff : Nat) : Word :=
  BitVec.ofNat 32 (2 ^ 31 + stage % 16 * 2 ^ 27 + satAdd 4095 (fld w 23 12) 1 * 4096 + diff % 4096)

/-- One check event of the array: TILE_MXRES, the mark (cause bit 0), and an error record, 0x0021 for a tally grid entry and
0x0020 otherwise, with TILE_MXRES, group, row and column of the first failing element (R81, R277). -/
def State.checkEvent (s : State) (c : Ctx) (grp : Bool) (f : Nat × Nat × Nat) : State :=
  let w := mxresWord (s.reg (.tileMxres c.t)) f.1 f.2.2
  let s1 := (s.setReg (.tileMxres c.t) w).markTile c.t 0
  s1.tileErr c (if f.1 = 12 then 0x0021 else 0x0020) 1 (f.2.1 % 20)
    (toLE 4 w.toNat ++ toLE 1 (b2n grp) ++ toLE 1 (f.2.1 / 20) ++ toLE 1 (f.2.1 % 20))

/-- The check events of one instruction in the order of their STAGE codes (R81). -/
def State.checks (s : State) (c : Ctx) (grp : Bool) (fs : Fails) : State := fs.foldl (fun acc f => acc.checkEvent c grp f) s

end Sys2Proof.Machine
end

