-- ==== Sys2Proof/Machine/Matrix.lean ====
section
/-! DEFINITION. The matrix instructions (R72 to R93, R238, R239, R426, R427). -/

set_option Elab.async false

namespace Sys2Proof.Machine

/-- An element that a group's store does not list (R426). -/
def noElem : Nat → Elem := fun _ => {}

/-- Group A (false) or B (true) of an array. -/
def MArray.grp (x : MArray) (g : Bool) : Group := if g then x.grpB else x.grpA
/-- The array with a group changed. -/
def MArray.setGrp (x : MArray) (g : Bool) (v : Group) : MArray := if g then { x with grpB := v } else { x with grpA := v }
/-- Element i = 20·row + column of a group. -/
def Group.el (g : Group) (i : Nat) : Elem := Bank.get noElem g.elems i
/-- The group with element i changed. -/
def Group.setEl (g : Group) (i : Nat) (e : Elem) : Group := { g with elems := Bank.set noElem g.elems i e }
/-- Byte r of a group's sidecar register. -/
def Group.sideAt (g : Group) (r : Nat) : Nat := (Bank.byte g.side r).toNat
/-- The group with byte r of its sidecar register changed. -/
def Group.setSide (g : Group) (r v : Nat) : Group := { g with side := Bank.set zeroByte g.side r (BitVec.ofNat 8 v) }
/-- The group with byte r of its sidecar register replaced by the maximum of it and v (R76, R77). -/
def Group.foldSide (g : Group) (r v : Nat) : Group := g.setSide r (Nat.max (g.sideAt r) v)

/-! ### Weight blocks -/

/-- The E2M1 placement of the loaded lesson that holds the weight block at a shelf address of tile t (R183). -/
def State.blockPlace (s : State) (t addr : Nat) : Option Placement :=
  (((s.tilePart t).bind s.lesson).bind fun l => l.places.find? fun e =>
    let blocks := (e.nrows + 79) / 80 * ((e.ncols + 19) / 20)
    e.mem == 1 && e.role == 0 && s.physTile l.cols e.row e.col == some t
      && (l.tensors.any fun x => x.n == e.tensor && x.fmt == 3)
      && decide (e.addr ≤ addr) && decide (addr < e.addr + blockStride 3 * blocks))

/-- The first row of a placement that its E2M1 block at a shelf address holds. -/
def Placement.blockRow (e : Placement) (addr : Nat) : Nat := 80 * ((addr - e.addr) / blockStride 3 % ((e.nrows + 79) / 80))

/-- How far into an MXFP4 block an E2M1 weight block begins: its first K index by its placement (R69). -/
def State.blockOff (s : State) (t addr : Nat) : BitVec 5 :=
  match s.blockPlace t addr with
  | some e => BitVec.ofNat 5 (e.row0 + e.blockRow addr)
  | none => Config.mxfp4Offset addr

/-- The rows of K that the placement has in the E2M1 weight block at a shelf address (R37). -/
def State.blockDepth (s : State) (t addr : Nat) : Nat :=
  match s.blockPlace t addr with
  | some e => Nat.min 80 (e.nrows - e.blockRow addr)
  | none => 80

/-- Whether an E2M1 weight block holds an element of a NaN block (R37). -/
def WBlock.nanBlock (b : WBlock) : Bool :=
  b.fmt == 3 && (List.range 20).any fun n => (List.range ((b.depth - 1 + b.off.toNat) / 32 + 1)).any fun q =>
    decide (0xFD ≤ (b.data.getD (800 + 4 * n + q) 0).toNat)

/-- Loads a weight block into the shadow block, through the weight port or the cross-read port (R68, R69, R83, R85); a NaN block
read sets the tile's sticky flag (R45). -/
def loadBlock (cross : Bool) (c : Ctx) (a : LdwArgs) (s : State) : Act :=
  let f := a.fmt.toNat
  let d := s.readMem c true (a.blk.toNat * 64) (blockBytes f)
  let k := d.2.readMem c true a.side.toNat (if cross then depthOf f else 20)
  let x := (k.2.tile c.t).arr
  let b : WBlock := { loaded := true, fmt := a.fmt, cross := cross, data := d.1, codes := k.1,
                      off := s.blockOff c.t (a.blk.toNat * 64), depth := s.blockDepth c.t (a.blk.toNat * 64) }
  .done ((k.2.setArr c.t { x with shadow := b }).raiseVx c.t { nanOut := b.nanBlock })

/-- The format codes of R72. -/
def fmtCode (f : BitVec 4) : Bool := decide (f.toNat ≤ 4)

/-- MX.LDW with cross-read = 0 (R68, R69, R72, R73). -/
def execMxLdw (a : Issue) (f : LdwArgs) (s : State) : Host.Outcome State Fault Refusal :=
  issue a (.mxLdw a f) (fmtCode f.fmt) (fun s => loadBlock false (s.ctx a (opBytes 0x30 0 0)) f s) s

/-- MX.LDW with cross-read = 1 (R83, R85). -/
def execMxLdwCrossRead (a : Issue) (f : LdwArgs) (s : State) : Host.Outcome State Fault Refusal :=
  issue a (.mxLdwCrossRead a f) (fmtCode f.fmt) (fun s => loadBlock true (s.ctx a (opBytes 0x30 0 0)) f s) s

/-! ### Anchored runs -/

/-- What an instruction that names codes does to an element's record: start clears and records; start = 0 compares, and an
element without codes takes the incoming ones (R79, R426). `stage` is 4 for a run and 5 for MX.PADD. The Bool says that
the instruction adds to the element. -/
def recordCodes (e : Elem) (start : Bool) (ca cb : Byte) (idx stage : Nat) (fs : Fails) : Elem × Bool × Fails :=
  if start then (e.fresh (.anchor ca cb), true, fs)
  else
    match e.rcd with
    | .none => ({ e with rcd := .anchor ca cb }, true, addFail fs 10 idx 0)
    | .anchor a b => if a = ca ∧ b = cb then (e, true, fs) else (e, true, addFail fs stage idx 0)
    | .grid _ _ _ => (e, false, addFail fs 9 idx 0)

/-- The anchor of two codes; none where either is 0x00 or 0xFF and no product is formed (R48, R49). -/
def anchorOf (ca cb : Byte) : Option Int :=
  if ca = 0xFF ∨ cb = 0xFF ∨ ca = 0 ∨ cb = 0 then none else some (codeExp ca.toNat + codeExp cb.toNat)

/-- The products of one output element entering it (R49, R51, R57, R425). The third component says whether a pending
injection is still pending. -/
def enterPairs (b16x3 : Bool) (idx : Nat) (a : Int) (e : Elem) (inj : Bool) (fs : Fails) :
    List (MxEl × MxEl) → Elem × Bool × Fails
  | [] => (e, inj, fs)
  | (x, w) :: rest =>
    if x.ov || w.ov then enterPairs b16x3 idx a { e with nonfin := true } inj fs rest
    else if x.hi.isNone || w.hi.isNone then
      enterPairs b16x3 idx a { e with nonfin := true } inj (addFail fs 11 idx 0) rest
    else
      let r := (mxProducts b16x3 x w).foldl (fun (acc : Elem × Bool × Fails) p =>
        let y := acc.1.enter idx a p.1 p.2.1 p.2.2 acc.2.1 acc.2.2
        (y.1, false, y.2)) (e, inj, fs)
      enterPairs b16x3 idx a r.1 r.2.1 r.2.2 rest

/-- One output element of an anchored run: its record, then its products on the recorded anchor. -/
def runElem (b16x3 start : Bool) (ca cb : Byte) (idx : Nat) (xs ws : List MxEl) (e : Elem) (inj : Bool) (fs : Fails) :
    Elem × Bool × Fails :=
  let r := recordCodes e start ca cb idx 4 fs
  match r.2.1, r.1.rcd with
  | true, .anchor a b =>
    match anchorOf a b with
    | some z => enterPairs b16x3 idx z r.1 inj r.2.2 (xs.zip ws)
    | none =>
      -- R57: an fp32 operand that rounds to a bfloat16 infinity acts as code 0xFF, which outranks 0x00 (R49)
      if xs.any (·.ov) || ws.any (·.ov) then ({ r.1 with nonfin := true }, inj, r.2.2)
      else (r.1, inj, r.2.2)
  | _, _ => (r.1, inj, r.2.2)

/-- The outputs of one streamed row: group-row block q, column, code and operand vector of each (R64, R84). -/
def blockOutputs (b : WBlock) : List (Nat × Nat × Byte × List MxEl) :=
  if b.cross then
    (b.krows.zipIdx).map fun x => (x.2 / 20, x.2 % 20, b.codes.getD x.2 0, x.1)
  else (b.cols.zipIdx).map fun x => (0, x.2, b.codes.getD x.2 0, x.1)

/-- Every element of an anchored run, row by row; group rows from 64 on do not exist. -/
def runRows (b16x3 start grp : Bool) (T : Nat) (outs : List (Nat × Nat × Byte × List MxEl))
    (rows : List ((List MxEl × Nat) × Nat)) (g : Group) (inj : Bool) : Group × Bool × Fails :=
  rows.foldl (fun acc row =>
    outs.foldl (fun (acc : Group × Bool × Fails) o =>
      let gr := o.1 * T + row.2
      let idx := 20 * gr + o.2.1
      if 64 ≤ gr then acc
      else
        let here := acc.2.1 && !grp && decide (idx = 0)
        let y := runElem b16x3 start (BitVec.ofNat 8 row.1.2) o.2.2.1 idx row.1.1 o.2.2.2 (acc.1.el idx) here acc.2.2
        (acc.1.setEl idx y.1, if here then y.2.1 else acc.2.1, y.2.2)) acc) (g, inj, [])

/-- An anchored MX.RUN, on a normally loaded block or a cross-read one (R64, R70, R79, R84, R86, R426). The block of +0 has the
format that the rows pair with, fp32 or bfloat16, and depth 20 (DESIGN CHOICE, log 119). -/
def anchoredRun (c : Ctx) (a : RunArgs) (s : State) : Act :=
  let arr := (s.tile c.t).arr
  let act0 := if a.swap then (if arr.shadow.loaded then arr.shadow else {}) else arr.active
  let missing := !act0.loaded
  -- no block loaded: the block of +0 takes the format that the rows' format pairs with
  let act : WBlock := if missing then { act0 with fmt := if a.fmt = 4 then 4 else 0 } else act0
  if !pairOk act.fmt.toNat a.fmt.toNat then .refuse .pairing
  else
    match fmtOf a.fmt.toNat with
    | none => .refuse .pairing
    | some f =>
      let n := a.rows.toNat + 1
      let len := if act.cross then 20 else depthOf act.fmt.toNat
      let stream := a.src == 1
      match s.readRows c stream a.addr.toNat n (len * f.bytes) (some a.side.toNat) with
      | (none, s1) => .wait s1 (s1.inWait c (a.addr.toNat % 16))
      | (some rows, s1) =>
        let x := (s1.tile c.t).arr
        let x1 : MArray := { x with
          active := act0
          shadow := if a.swap then {} else x.shadow
          hold := if act.cross then some { fmt := a.fmt, rows := rows.map (·.1) } else x.hold }
        let g := x1.grp a.grp
        let fs0 : Fails := if missing then [(7, 0, 0)] else []
        if !a.start && g.kind == some true then
          .done ((s1.setArr c.t x1).checks c a.grp (addFail fs0 9 0 0))
        else
          let els := rows.map fun r => ((List.range len).map (mxElAt f r.1), r.2)
          let g1 : Group := if a.start || g.kind.isNone then { g with kind := some false } else g
          let r := runRows (f == .fp32) a.start a.grp n (blockOutputs act) els.zipIdx g1 x1.inject
          let fs := r.2.2.foldl (fun acc y => addFail acc y.1 y.2.1 y.2.2) fs0
          let ovf := (els.any fun x => x.1.any (·.ov)) || (blockOutputs act).any fun o => o.2.2.2.any (·.ov)
          .done (((s1.setArr c.t { x1.setGrp a.grp r.1 with inject := r.2.1 }).checks c a.grp fs).raiseVx c.t
            { ovf := ovf, nanOut := fs.any (·.1 == 11), clamp := fs.any (·.1 == 6) })

/-- The source codes of R72. -/
def srcCode (a : RunArgs) : Bool := decide (a.src.toNat ≤ 1)

/-- MX.RUN with tally = 0 on a normally loaded block (R70, R72). -/
def execMxRun (a : Issue) (f : RunArgs) (s : State) : Host.Outcome State Fault Refusal :=
  issue a (.mxRun a f) (fmtCode f.fmt && srcCode f) (fun s => anchoredRun (s.ctx a (opBytes 0x31 0 0)) f s) s

/-- MX.RUN with tally = 0 on a block loaded through the cross-read port (R84 to R86). The word is that of MX.RUN: the block
that is active decides which run it is. -/
def execCrossReadRun (a : Issue) (f : RunArgs) (s : State) : Host.Outcome State Fault Refusal :=
  issue a (.crossReadRun a f) (fmtCode f.fmt && srcCode f) (fun s => anchoredRun (s.ctx a (opBytes 0x31 0 0)) f s) s

/-! ### Tally runs -/

/-- A tally grid entry (R90): VALID, G, k, TENSOR. -/
def tgrid (w : Word) : Bool × Int × Int × Nat :=
  (bit w.toNat 31, signed 8 (fld w 30 23), (fld w 22 17 : Int), fld w 15 0)

/-- The tick of a tally contribution (R285). -/
def tallyTick (k : TallyCount) : Tick :=
  match k with
  | .normal => {} | .zero => { tz := true } | .below => { bz := true } | .sat => { sat := 1 } | .nonfin => { nonfin := true }

/-- What a tally run does to an element's record before it adds (R87, R91, R426). -/
def recordGrid (e : Elem) (start : Bool) (entry : Option (BitVec 4)) (g : Byte) (k : BitVec 6) (idx : Nat) (fs : Fails) :
    Elem × Bool × Fails :=
  if start then (e.fresh (.grid entry g k), true, fs)
  else
    match e.rcd with
    | .none => ({ e with rcd := .grid entry g k }, true, addFail fs 10 idx 0)
    | .grid n g' k' =>
      let same := decide (g' = g) && decide (k' = k) && (n.isNone || entry.isNone || n == entry)
      (e, true, if same then fs else addFail fs 12 idx 0)
    | .anchor _ _ => (e, false, addFail fs 9 idx 0)

/-- The contributions of one element of a tally run: streamed element r and hold element c of each row (R87, R88). -/
def tallyPairs (idx : Nat) (G k : Int) (e : Elem) (inj : Bool) (fs : Fails) (ks : List Tick) :
    List (MxEl × MxEl) → Elem × Bool × Fails × List Tick
  | [] => (e, inj, fs, ks)
  | (x, h) :: rest =>
    match x.hi, h.hi with
    | some (sx, ex), some (sh, eh) =>
      let y := e.enterTally idx G k sx sh (ex + eh) inj fs
      tallyPairs idx G k y.1 false y.2.2 (ks ++ [tallyTick y.2.1]) rest
    | _, _ => tallyPairs idx G k { e with nonfin := true } inj fs (ks ++ [tallyTick .nonfin]) rest

/-- A tally run (R86 to R88, R91). The swap bit and bits [19:4], which R87 has 0, have no effect (DEDUCED, log 15). -/
def tallyBody (c : Ctx) (a : RunArgs) (s : State) : Act :=
  let arr := (s.tile c.t).arr
  let holdFmt := match arr.hold with | some h => h.fmt | none => 0
  if 2 < a.fmt.toNat ∨ 2 < holdFmt.toNat then .refuse .pairing
  else
    match fmtOf a.fmt.toNat, fmtOf holdFmt.toNat with
    | some f, some hf =>
      let n := a.rows.toNat + 1
      match s.readRows c (a.src == 1) a.addr.toNat n (20 * f.bytes) none with
      | (none, s1) => .wait s1 (s1.inWait c (a.addr.toNat % 16))
      | (some rows, s1) =>
        let entry : BitVec 4 := a.side.truncate 4
        let tw := s1.reg (.tileTgrid c.t entry.toNat)
        let tg := tgrid tw
        let gB : Byte := BitVec.ofNat 8 (fld tw 30 23)
        let kB : BitVec 6 := BitVec.ofNat 6 (fld tw 22 17)
        let x := (s1.tile c.t).arr
        let g := x.grp a.grp
        let hrows := match x.hold with | some h => h.rows | none => []
        let fs0 : Fails := if hrows.length < n then [(8, 0, 0)] else []
        let fs1 := if tg.1 then fs0 else addFail fs0 12 0 0
        if !a.start && g.kind == some false then .done (s1.checks c a.grp (addFail fs1 9 0 0))
        else
          let g1 : Group := if a.start || g.kind.isNone then { g with kind := some true } else g
          let xs := rows.map fun r => (List.range 20).map (mxElAt f r.1)
          let hs := (List.range n).map fun m =>
            match hrows[m]? with
            | some b => (List.range 20).map (mxElAt hf b)
            | none => List.replicate 20 MxEl.zero
          let r := (List.range 400).foldl (fun (acc : Group × Bool × Fails × List Tick) idx =>
            let y := recordGrid (acc.1.el idx) a.start (some entry) gB kB idx acc.2.2.1
            if !y.2.1 then (acc.1, acc.2.1, y.2.2, acc.2.2.2)
            else if !tg.1 then (acc.1.setEl idx y.1, acc.2.1, y.2.2, acc.2.2.2)
            else
              let here := acc.2.1 && !a.grp && decide (idx = 0)
              let G : Int := match y.1.rcd with | .grid _ g' _ => g'.toInt | _ => tg.2.1
              let k : Int := match y.1.rcd with | .grid _ _ k' => (k'.toNat : Int) | _ => tg.2.2.1
              let ps := (xs.map fun v => v.getD (idx / 20) MxEl.zero).zip (hs.map fun v => v.getD (idx % 20) MxEl.zero)
              let z := tallyPairs idx G k y.1 here y.2.2 [] ps
              (acc.1.setEl idx z.1, if here then z.2.1 else acc.2.1, z.2.2.1, acc.2.2.2 ++ z.2.2.2)) (g1, x.inject, fs1, [])
          let s2 := s1.setArr c.t { x.setGrp a.grp r.1 with inject := r.2.1 }
          .done (((s2.countTile c.t tg.2.2.2 r.2.2.2).checks c a.grp r.2.2.1).raiseVx c.t { nanOut := r.2.2.2.any (·.nonfin) })
    | _, _ => .refuse .pairing

/-- MX.RUN with tally = 1 (R87). -/
def execTallyRun (a : Issue) (f : RunArgs) (s : State) : Host.Outcome State Fault Refusal :=
  issue a (.tallyRun a f) (fmtCode f.fmt && srcCode f) (fun s => tallyBody (s.ctx a (opBytes 0x31 0 0)) f s) s

/-! ### Output -/

/-- The failed checks of R79 over the elements of `n` rows. -/
def residueFails (g : Group) (n stage : Nat) (fs : Fails) : Fails :=
  (List.range (20 * n)).foldl (fun acc i => let d := (g.el i).diff; if d = 0 then acc else addFail acc stage i d) fs

/-- One element rounded to an output format with the exact scale 2^c: the rounding, whether its exact value is zero, and
whether it had codes (R49, R54, R71, R425, R426). -/
def outElem (f : Fmt) (sc : Int) (e : Elem) : Rounded × Bool × Bool :=
  match e.rcd with
  | .anchor a b =>
    if e.nonfin ∨ a = 0xFF ∨ b = 0xFF then ({ code := f.nanCode, nan := true }, false, true)
    else
      match anchorOf a b with
      | none => ({ code := 0 }, true, true)
      | some z => (f.roundInt e.sum (z - 78 + sc), decide (e.sum = 0), true)
  | _ => ({ code := 0 }, true, false)

/-- Adds an element's integer into the 64-bit tally at a desk or shelf address, with the marker rule and the range check of
R60; the range check and a shelf write's region check are the caller's. -/
def State.addTally (s : State) (c : Ctx) (shelf : Bool) (addr : Nat) (v : Option Int) : State :=
  let r := s.readCore c shelf addr 8
  let old : BitVec 64 := BitVec.ofNat 64 (leNat r.1)
  let y := match v with
    | some i => tallyAddInt old i
    | none => (marker, false)
  let s1 := r.2.writeCore c shelf addr (toLE 8 y.1.toNat)
  if y.2 then (s1.markTile c.t 0).tileErr c 0x0021 1 (memLoc shelf addr) [] else s1

/-- Slot bytes of an output row in desk memory (R71). -/
def outSlot (f : Fmt) (wide : Bool) : Nat :=
  match f with | .fp32 => 128 | .bf16 => 64 | _ => if wide then 128 else 64

/-- The rounded rows of an MX.OUT of an anchored group: per row the 20 roundings with their exact-zero marks, and the R76
code. -/
def outRows (f : Fmt) (sc : Int) (g : Group) (n : Nat) : List (List (Rounded × Bool × Nat) × Nat) :=
  (List.range n).map fun r =>
    let es := (List.range 20).map fun j =>
      let e := g.el (20 * r + j)
      let x := outElem f sc e
      (x.1, x.2.1, e.clamps)
    (es, es.foldl (fun acc x => Nat.max acc (codeOf (f.decode x.1.code))) 0)

/-- The elements of `n` rows without codes (R426). -/
def uncoded (g : Group) (n : Nat) (fs : Fails) : Fails :=
  (List.range (20 * n)).foldl (fun acc i =>
    match (g.el i).rcd with
    | .anchor _ _ => acc
    | _ => addFail acc 10 i 0) fs

/-- The watch ticks of an output row (R284, R285). -/
def outTicks (f : Fmt) (row : List (Rounded × Bool × Nat)) : List Tick :=
  row.map fun x =>
    let t := tickOf x.2.1 x.1 (f.decode x.1.code)
    { t with sat := t.sat + x.2.2 }

/-- What an output row raises in the tile's sticky flags (R45, R284). -/
def outFlags (row : List (Rounded × Bool × Nat)) : VFlags := { ovf := row.any fun x => x.1.ovf && !x.1.nan, nanOut := row.any (·.1.nan) }

/-- A group with each element of its first n rows changed. -/
def Group.mapRows (g : Group) (n : Nat) (f : Elem → Elem) : Group :=
  (List.range (20 * n)).foldl (fun acc i => acc.setEl i (f (acc.el i))) g

/-- MX.OUT of an anchored group (R71, R76, R427). The clamps of its elements count here, once (R52, R284). -/
def outAnchored (c : Ctx) (a : OutArgs) (f : Fmt) (fs : Fails) (s : State) : Act :=
  let x := s.tile c.t
  let g := x.arr.grp a.grp
  let n := a.rows.toNat + 1
  let rows := outRows f (a.c.toInt) g n
  let fs := uncoded g n fs
  let watch := (x.eng.scalar 11).toNat % 65536
  let g0 : Group := if a.fold then g else { g with side := [] }
  let g1 := (rows.zipIdx).foldl (fun acc r => acc.foldSide r.2 r.1.2) g0
  let s1 := s.setArr c.t (x.arr.setGrp a.grp (g1.mapRows n Elem.counted))
  let s2 := ((s1.countTile c.t watch (rows.flatMap fun r => outTicks f r.1)).checks c a.grp fs).raiseVx c.t
    (outFlags (rows.flatMap (·.1)))
  let bytesOf := fun (r : List (Rounded × Bool × Nat)) => r.flatMap fun e => toLE f.bytes e.1.code
  match a.dst.toNat with
  | 0 =>
    let off := if f.bytes = 1 then 20 * a.q.toNat else 0
    let at_ := fun r => a.addr.toNat + r * outSlot f a.wide + off
    .done (((rows.zipIdx).foldl (fun acc r => acc.writeCore c false (at_ r.2) (bytesOf r.1.1)) s2).rangeCheck c false
      ((List.range n).map fun r => (at_ r, 20 * f.bytes)))
  | 1 =>
    let st := a.addr.toNat % 16
    s2.sendAll c ((rows.zipIdx).flatMap fun r =>
      let b := bytesOf r.1.1 ++ toLE 1 (g1.sideAt r.2)
      let k := (b.length + 63) / 64
      let p := padTo (64 * k) b
      (List.range k).map fun i => (st, (p.drop (64 * i)).take 64))
  | _ =>
    let base := a.addr.toNat % 32
    let e := (rows.zipIdx).foldl (fun acc r =>
      (r.1.1.zipIdx).foldl (fun (acc : Engine) y => acc.setLane (base + y.2) r.2 (BitVec.ofNat 32 y.1.1.code)) acc)
      (s2.tile c.t).eng
    .done (s2.setEng c.t e)

/-- MX.OUT of a tally group into 64-bit desk tallies (R89, R426). With fold = 0 the sidecar register stays (DESIGN CHOICE, log
120). -/
def outTally (c : Ctx) (a : OutArgs) (fs : Fails) (s : State) : Act :=
  let g := ((s.tile c.t).arr).grp a.grp
  let n := a.rows.toNat + 1
  if a.fmt ≠ 0 ∨ a.c ≠ 0 ∨ a.q ≠ 0 ∨ a.wide ∨ a.dst ≠ 0 then .done (s.checks c a.grp (addFail fs 9 0 0))
  else
    let idxs := List.range (20 * n)
    let fs := idxs.foldl (fun acc i =>
      match (g.el i).rcd with
      | .grid _ _ _ => acc
      | _ => addFail acc 10 i 0) fs
    let s1 := s.checks c a.grp fs
    let at_ := fun i => a.addr.toNat + 192 * (i / 20) + 8 * (i % 20)
    .done ((idxs.foldl (fun acc i =>
      let e := g.el i
      let v : Option Int := match e.rcd with
        | .grid _ _ _ => if e.nonfin then none else some e.sum
        | _ => some 0
      acc.addTally c false (at_ i) v) s1).rangeCheck c false (idxs.map fun i => (at_ i, 8)))

/-- MX.OUT (R71, R79): the residue check, then the output of the group's kind. -/
def outBody (c : Ctx) (a : OutArgs) (s : State) : Act :=
  let g := ((s.tile c.t).arr).grp a.grp
  let fs := residueFails g (a.rows.toNat + 1) 1 []
  if g.kind == some true then outTally c a fs s
  else
    match fmtOf a.fmt.toNat with
    | some f => outAnchored c a f fs s
    | none => .refuse .wordRejected

/-- The words of MX.OUT that the part accepts (R71, R72, R427). An eight-bit row of a 64 B slot in desk memory has q of at most 1
(R187; log 15); q is for eight-bit outputs alone. -/
def outOk (a : OutArgs) : Bool :=
  (a.fmt == 0 || a.fmt == 1 || a.fmt == 2 || a.fmt == 4) && decide (a.dst.toNat ≤ 2)
    && (!(a.dst == 0 && !a.wide && (a.fmt == 1 || a.fmt == 2)) || decide (a.q.toNat ≤ 1))
    && (a.fmt == 1 || a.fmt == 2 || a.q == 0)
    && (!(a.dst == 1) || (a.q == 0 && !a.wide))
    && (!(a.dst == 2) || (a.fmt == 4 && decide (a.addr.toNat % 32 ≤ 12)))

/-- MX.OUT (R71, R72). -/
def execMxOut (a : Issue) (f : OutArgs) (s : State) : Host.Outcome State Fault Refusal :=
  issue a (.mxOut a f) (outOk f) (fun s => outBody (s.ctx a (opBytes 0x32 0 0)) f s) s

/-! ### Sidecar registers -/

/-- The first n bytes of a group's sidecar register. -/
def Group.sideBytes (g : Group) (n : Nat) : Bytes := Bank.bytes g.side 0 n

/-- Folds incoming bytes into a group's sidecar register (R77). -/
def Group.foldBytes (g : Group) (b : Bytes) : Group :=
  (b.zipIdx).foldl (fun acc x => acc.foldSide x.2 x.1.toNat) g

/-- MX.SIDE store to desk memory (R72). -/
def execMxSideStore (a : Issue) (f : SideArgs) (s : State) : Host.Outcome State Fault Refusal :=
  issue a (.mxSideStore a f) true (fun s =>
    let c := s.ctx a (opBytes 0x33 0 0)
    let g := ((s.tile c.t).arr).grp f.grp
    .done (s.writeMem c false f.addr.toNat (g.sideBytes (f.len.toNat + 1)))) s

/-- MX.SIDE send to a mesh stream: one flit, zero beyond the bytes named (R72, R73). -/
def execMxSideSend (a : Issue) (f : SideArgs) (s : State) : Host.Outcome State Fault Refusal :=
  issue a (.mxSideSend a f) true (fun s =>
    let c := s.ctx a (opBytes 0x33 1 0)
    let g := ((s.tile c.t).arr).grp f.grp
    s.sendAll c [(f.addr.toNat % 16, padTo 64 (g.sideBytes (f.len.toNat + 1)))]) s

/-- MX.SIDE fold in from desk memory (R72, R77). -/
def execMxSideFoldDesk (a : Issue) (f : SideArgs) (s : State) : Host.Outcome State Fault Refusal :=
  issue a (.mxSideFoldDesk a f) true (fun s =>
    let c := s.ctx a (opBytes 0x33 2 0)
    let r := s.readMem c false f.addr.toNat (f.len.toNat + 1)
    let x := (r.2.tile c.t).arr
    .done (r.2.setArr c.t (x.setGrp f.grp ((x.grp f.grp).foldBytes r.1)))) s

/-- MX.SIDE fold in from a mesh stream (R72, R75, R77). -/
def execMxSideFoldStream (a : Issue) (f : SideArgs) (s : State) : Host.Outcome State Fault Refusal :=
  issue a (.mxSideFoldStream a f) true (fun s =>
    let c := s.ctx a (opBytes 0x33 3 0)
    match s.takeFlits c.t (f.addr.toNat % 16) 1 with
    | (none, s1) => .wait s1 (s1.inWait c (f.addr.toNat % 16))
    | (some fl, s1) =>
      let x := (s1.tile c.t).arr
      .done (s1.setArr c.t (x.setGrp f.grp ((x.grp f.grp).foldBytes (fl.flatten.take (f.len.toNat + 1)))))) s

/-! ### Partial records -/

/-- The residue word of an element: residue, and bit 15 the non-finite flag (R238). -/
def Elem.resWord (e : Elem) : Nat := e.res.toNat % 4096 + 32768 * b2n e.nonfin

/-- Whether an element holds codes (anchored) or a grid entry (tally), as its group's kind asks. -/
def Elem.holds (e : Elem) (tally : Bool) : Bool :=
  match e.rcd with
  | .none => false
  | .anchor _ _ => !tally
  | .grid _ _ _ => tally

/-- The 384-byte record of group row r (R238, R426): an element without a record sends a zero sum with codes 0x00, and a row
whose first element holds no grid entry has byte 381 0x00. -/
def Group.record (g : Group) (r : Nat) : Bytes :=
  let es := (List.range 20).map fun j => g.el (20 * r + j)
  let sent := es.map fun e => if e.holds (g.kind == some true) then e.closed else {}
  let sums := sent.flatMap fun e => toLE 16 e.total.toNat
  let ress := sent.flatMap fun e => toLE 2 e.resWord
  let e0 := es.headD {}
  let tail := match g.kind, e0.rcd with
    | some true, .grid _ G k => padTo 20 (toLE 1 G.toNat ++ toLE 1 k.toNat) ++ [0, 1]
    | _, _ =>
      es.flatMap (fun e => match e.rcd with | .anchor _ b => [b] | _ => [0])
        ++ (match e0.rcd with | .anchor a _ => [a] | _ => [0]) ++ [0]
  padTo 384 (sums ++ ress ++ tail ++ toLE 2 r)

/-- The 64-byte flits of a byte string. -/
def flitsOf (b : Bytes) : List Bytes := (List.range ((b.length + 63) / 64)).map fun i => padTo 64 ((b.drop (64 * i)).take 64)

/-- MX.PSEND (R79, R238, R426); the products clamped in an element count as it leaves, against S11 (R52, R285). -/
def psendBody (c : Ctx) (a : PartialArgs) (s : State) : Act :=
  let x := (s.tile c.t).arr
  let g := x.grp a.grp
  let n := a.rows.toNat + 1
  let fs := residueFails g n 2 []
  let fs := (List.range (20 * n)).foldl (fun acc i => if (g.el i).holds (g.kind == some true) then acc else addFail acc 10 i 0) fs
  let recs := (List.range n).flatMap fun r => flitsOf (g.record r)
  let g1 := g.mapRows n fun e => e.closed.counted
  let ticks := ((List.range (20 * n)).filter fun i => (g.el i).clamps ≠ 0).map fun i => { sat := (g.el i).clamps : Tick }
  let s1 := ((s.setArr c.t (x.setGrp a.grp g1)).countTile c.t (((s.tile c.t).eng.scalar 11).toNat % 65536) ticks).checks c a.grp fs
  s1.sendAll c (recs.map fun b => (a.stream.toNat, b))

/-- MX.PSEND (R72); its start bit is reserved. -/
def execMxPsend (a : Issue) (f : PartialArgs) (s : State) : Host.Outcome State Fault Refusal :=
  issue a (.mxPsend a f) (!f.start) (fun s => psendBody (s.ctx a (opBytes 0x34 0 0)) f s) s

/-- One element of an incoming record added: sum, residue and flag, then the residue check (R53, R79, R239). -/
def addPartial (e : Elem) (idx : Nat) (total : BitVec 128) (res : Nat) (fs : Fails) : Elem × Fails :=
  let e1 : Elem := { e with
    total := e.total + total
    res := BitVec.ofNat 12 ((e.res.toNat + res % 4096) % 4095)
    nonfin := e.nonfin || decide (32768 ≤ res) }
  (e1, if e1.diff = 0 then fs else addFail fs 3 idx e1.diff)

/-- One incoming record added into group row r (R239, R91, R426). The Bool says that the row index differs. -/
def paddRow (g : Group) (start : Bool) (r : Nat) (b : Bytes) (fs : Fails) : Group × Bool × Fails :=
  let kindB := field b 381 1
  let kind := decide (kindB = 1)
  let skew := decide (field b 382 2 ≠ r)
  let g := if (start && r == 0 && decide (kindB ≤ 1)) || g.kind.isNone then { g with kind := some kind } else g
  if 1 < kindB ∨ g.kind ≠ some kind then (g, skew, addFail fs 9 (20 * r) 0)
  else
    let y := (List.range 20).foldl (fun (acc : Group × Fails) j =>
      let i := 20 * r + j
      let total : BitVec 128 := BitVec.ofNat 128 (field b (16 * j) 16)
      let res := field b (320 + 2 * j) 2
      let q := if kind then recordGrid (acc.1.el i) start none (BitVec.ofNat 8 (field b 360 1)) (BitVec.ofNat 6 (field b 361 1)) i acc.2
               else recordCodes (acc.1.el i) start (BitVec.ofNat 8 (field b 380 1)) (BitVec.ofNat 8 (field b (360 + j) 1)) i 5 acc.2
      if q.2.1 then
        let z := addPartial q.1 i total res q.2.2
        (acc.1.setEl i z.1, z.2)
      else (acc.1, q.2.2)) (g, fs)
    (y.1, skew, y.2)

/-- MX.PADD (R79, R238, R239). -/
def paddBody (c : Ctx) (a : PartialArgs) (s : State) : Act :=
  let n := a.rows.toNat + 1
  match s.takeFlits c.t a.stream.toNat (6 * n) with
  | (none, s1) => .wait s1 (s1.inWait c a.stream.toNat)
  | (some fl, s1) =>
    let x := (s1.tile c.t).arr
    let r := (List.range n).foldl (fun (acc : Group × Bool × Fails) i =>
      let y := paddRow acc.1 a.start i ((fl.drop (6 * i)).take 6).flatten acc.2.2
      (y.1, acc.2.1 || y.2.1, y.2.2)) (x.grp a.grp, false, [])
    let s2 := (s1.setArr c.t (x.setGrp a.grp r.1)).checks c a.grp r.2.2
    .done (if r.2.1 then s2.markTile c.t 0 else s2)

/-- MX.PADD (R72). -/
def execMxPadd (a : Issue) (f : PartialArgs) (s : State) : Host.Outcome State Fault Refusal :=
  issue a (.mxPadd a f) true (fun s => paddBody (s.ctx a (opBytes 0x35 0 0)) f s) s

end Sys2Proof.Machine
end

