-- ==== Sys2Proof/Machine/Vector.lean ====
section
/-! DEFINITION. The lane instructions of the vector engine: VX.FP, VX.CMP, VX.INT, VX.CVT, VX.TR, VX.PERM, VX.TREE and
VX.CTL (R95 to R104, R109, R110, R112, R224, R225). -/

set_option Elab.async false

namespace Sys2Proof.Machine

/-! ### Runs -/

/-- A write of a V register lane. -/
abbrev VWrite := Nat × Nat × Word

/-- The engine after writes. -/
def applyWrites (e : Engine) (ws : List VWrite) : Engine := ws.foldl (fun acc w => acc.setLane w.1 w.2.1 w.2.2) e

/-- Iterations of a run: iteration i reads the registers as they stand once the results of iterations up to i − k have
become readable (R99); `pend` holds the writes not yet readable, oldest first. -/
def runFrom (k : Nat) (f : Engine → Nat → List VWrite × VFlags) :
    List Nat → Engine → List (List VWrite) → VFlags → Engine × VFlags
  | [], e, pend, fl => (applyWrites e pend.flatten, fl)
  | i :: is, e, pend, fl =>
    let e1 := if k ≤ pend.length then applyWrites e (pend.headD []) else e
    let p1 := if k ≤ pend.length then pend.drop 1 else pend
    let r := f e1 i
    runFrom k f is e1 (p1 ++ [r.1]) (fl.or r.2)

/-- The distance in iterations at which a result is readable inside its own run: occupancy o, latency L (R99). -/
def readDist (o l : Nat) : Nat := 1 + (l + o - 1) / o

/-- t of R99: max(1, ceil(VL/16)). -/
def trOcc (vl : Nat) : Nat := Nat.max 1 ((vl + 15) / 16)

/-- A lane instruction: every active lane of every iteration takes the result of `op` into vd + i (R96, R99). -/
def laneRun (a : VArgs) (k : Nat) (op : Engine → Nat → Nat → LaneF) (e : Engine) : Engine × VFlags :=
  runFrom k (fun e i =>
    let rs := (e.active a.mask.toNat).map fun l => (l, op e i l)
    (rs.map fun r => (a.vd.toNat + i, r.1, r.2.w), rs.foldl (fun acc r => acc.or r.2.flags) {}))
    (List.range (vCount a)) e [] {}

/-- A lane instruction of a tile. -/
def laneBody (t : Nat) (a : VArgs) (k : Nat) (op : Engine → Nat → Nat → LaneF) (s : State) : Act :=
  let r := laneRun a k op (s.tile t).eng
  .done ((s.setEng t r.1).raiseVx t r.2)

/-! ### VX.FP -/

/-- The words of VX.FP that the part accepts: the group bits are 0 (R97 to R99). -/
def fpOk (a : VArgs) : Bool := runsOk a true true true && a.g == 0

/-- The words of a function that reads va alone and has no group bits. -/
def unOk (a : VArgs) : Bool := runsOk a true true false && a.g == 0

/-- A result of exact fp32 arithmetic as a lane (R40 to R44). -/
def lane32 (v : FVal) : LaneF := .of (to32 v)

/-- Operands va and B of lane l in iteration i, as fp32. -/
def fpArgs (a : VArgs) (e : Engine) (i l : Nat) : FVal × FVal := (f32 (e.lane (a.va.toNat + i) l), f32 (e.opB a i l))

/-- ADD: va + B. -/
def execAdd (a : Issue) (f : VArgs) (s : State) : Host.Outcome State Fault Refusal :=
  issue a (.add a f) (fpOk f) (laneBody a.tile f (readDist 1 3) fun e i l =>
    let x := fpArgs f e i l
    lane32 (fAddExact x.1 x.2)) s

/-- SUB: va − B. -/
def execSub (a : Issue) (f : VArgs) (s : State) : Host.Outcome State Fault Refusal :=
  issue a (.sub a f) (fpOk f) (laneBody a.tile f (readDist 1 3) fun e i l =>
    let x := fpArgs f e i l
    lane32 (fAddExact x.1 x.2.negate)) s

/-- MUL: va · B. -/
def execMul (a : Issue) (f : VArgs) (s : State) : Host.Outcome State Fault Refusal :=
  issue a (.mul a f) (fpOk f) (laneBody a.tile f (readDist 1 3) fun e i l =>
    let x := fpArgs f e i l
    lane32 (fMulExact x.1 x.2)) s

/-- FMA: va · B + vd, one rounding. -/
def execFma (a : Issue) (f : VArgs) (s : State) : Host.Outcome State Fault Refusal :=
  issue a (.fma a f) (fpOk f) (laneBody a.tile f (readDist 1 4) fun e i l =>
    let x := fpArgs f e i l
    lane32 (fAddExact (fMulExact x.1 x.2) (f32 (e.lane (f.vd.toNat + i) l)))) s

/-- FNMA: −va · B + vd, one rounding. -/
def execFnma (a : Issue) (f : VArgs) (s : State) : Host.Outcome State Fault Refusal :=
  issue a (.fnma a f) (fpOk f) (laneBody a.tile f (readDist 1 4) fun e i l =>
    let x := fpArgs f e i l
    lane32 (fAddExact (fMulExact x.1.negate x.2) (f32 (e.lane (f.vd.toNat + i) l)))) s

/-- MIN of va and B (R102). -/
def execMin (a : Issue) (f : VArgs) (s : State) : Host.Outcome State Fault Refusal :=
  issue a (.min a f) (fpOk f) (laneBody a.tile f (readDist 1 3) fun e i l =>
    let x := fpArgs f e i l
    lane32 (fMin x.1 x.2)) s

/-- MAX of va and B (R102). -/
def execMax (a : Issue) (f : VArgs) (s : State) : Host.Outcome State Fault Refusal :=
  issue a (.max a f) (fpOk f) (laneBody a.tile f (readDist 1 3) fun e i l =>
    let x := fpArgs f e i l
    lane32 (fMax x.1 x.2)) s

/-- The value without its sign; a NaN or an infinity is an arithmetic input (R102). -/
def fAbs (x : FVal) : FVal := match x with | .fin _ m e => .fin false m e | y => y

/-- ABS of va (R102). -/
def execAbs (a : Issue) (f : VArgs) (s : State) : Host.Outcome State Fault Refusal :=
  issue a (.abs a f) (unOk f) (laneBody a.tile f (readDist 1 3) fun e i l =>
    lane32 (fAbs (f32 (e.lane (f.va.toNat + i) l)))) s

/-- NEG of va (R102). -/
def execNeg (a : Issue) (f : VArgs) (s : State) : Host.Outcome State Fault Refusal :=
  issue a (.neg a f) (unOk f) (laneBody a.tile f (readDist 1 3) fun e i l =>
    lane32 (f32 (e.lane (f.va.toNat + i) l)).negate) s

/-- DIV: va / B, correctly rounded (R104). -/
def execDiv (a : Issue) (f : VArgs) (s : State) : Host.Outcome State Fault Refusal :=
  issue a (.div a f) (fpOk f) (fun s =>
    laneBody a.tile f (readDist (trOcc (s.tile a.tile).eng.vl.toNat) 14) (fun e i l =>
      divLane (e.lane (f.va.toNat + i) l) (e.opB f i l)) s) s

/-! ### VX.CMP -/

/-- The words of a compare that the part accepts: mask register 1 to 7 in vd[2:0], vd[4:3] = 0 (R99). -/
def cmpOk (a : VArgs) : Bool := runsOk a false true true && decide (1 ≤ a.vd.toNat) && decide (a.vd.toNat ≤ 7)

/-- A compare into mask register M(vd[2:0]): active lanes take the result, every other lane keeps its bit (R96, R99).
In a longer run, iteration i reads the masks as iterations up to i − 3 leave them, the newest state first in the list. -/
def cmpRun (a : VArgs) (op : FVal → FVal → Bool) (e : Engine) : Engine :=
  let n := a.vd.toNat % 8
  ((List.range (vCount a)).foldl (fun (acc : List Engine) i =>
    let r := acc.getD 2 e
    let w := acc.headD e
    w.setMask n ((r.active a.mask.toNat).foldl (fun (m : DWord) l =>
      let x := fpArgs a r i l
      if op x.1 x.2 then m ||| BitVec.ofNat 64 (2 ^ l) else m &&& ~~~ BitVec.ofNat 64 (2 ^ l)) (w.maskReg n)) :: acc) [e]).headD e

/-- EQ into a mask register. -/
def execEq (a : Issue) (f : VArgs) (s : State) : Host.Outcome State Fault Refusal :=
  issue a (.eq a f) (cmpOk f) (fun s => .done (s.setEng a.tile (cmpRun f fEq (s.tile a.tile).eng))) s

/-- NE into a mask register. -/
def execNe (a : Issue) (f : VArgs) (s : State) : Host.Outcome State Fault Refusal :=
  issue a (.ne a f) (cmpOk f) (fun s => .done (s.setEng a.tile (cmpRun f (fun x y => !fEq x y) (s.tile a.tile).eng))) s

/-- LT into a mask register. -/
def execLt (a : Issue) (f : VArgs) (s : State) : Host.Outcome State Fault Refusal :=
  issue a (.lt a f) (cmpOk f) (fun s => .done (s.setEng a.tile (cmpRun f fLt (s.tile a.tile).eng))) s

/-- LE into a mask register. -/
def execLe (a : Issue) (f : VArgs) (s : State) : Host.Outcome State Fault Refusal :=
  issue a (.le a f) (cmpOk f) (fun s =>
    .done (s.setEng a.tile (cmpRun f (fun x y => fLt x y || fEq x y) (s.tile a.tile).eng))) s

/-- SEL: in every lane below VL, va where the mask lane is set, B elsewhere (R96, R99). -/
def selRun (a : VArgs) (e : Engine) : Engine × VFlags :=
  runFrom (readDist 1 2) (fun e i =>
    ((List.range e.vl.toNat).map fun l =>
      (a.vd.toNat + i, l, if e.masked a.mask.toNat l then e.opB a i l else e.lane (a.va.toNat + i) l), {}))
    (List.range (vCount a)) e [] {}

/-- SEL (R96, R99); with mask field 0 no lane is cleared (R97). -/
def execSel (a : Issue) (f : VArgs) (s : State) : Host.Outcome State Fault Refusal :=
  issue a (.sel a f) (runsOk f true true true) (fun s =>
    .done (s.setEng a.tile (selRun f (s.tile a.tile).eng).1)) s

/-! ### VX.INT -/

/-- An int32 lane, or one whose bits move unchanged. -/
def laneW (w : Word) : LaneF := { w := w }

/-- The words of VX.INT that the part accepts: only IOTA names group bits (R99). -/
def intOk (a : VArgs) : Bool := runsOk a true true true && a.g == 0

/-- An int32 instruction of va and B: modulo 2^32 (R96). -/
def intBody (t : Nat) (a : VArgs) (op : Word → Word → Word) (s : State) : Act :=
  laneBody t a (readDist 1 2) (fun e i l => laneW (op (e.lane (a.va.toNat + i) l) (e.opB a i l))) s

/-- IADD. -/
def execIadd (a : Issue) (f : VArgs) (s : State) : Host.Outcome State Fault Refusal :=
  issue a (.iadd a f) (intOk f) (intBody a.tile f fun x y => x + y) s

/-- ISUB. -/
def execIsub (a : Issue) (f : VArgs) (s : State) : Host.Outcome State Fault Refusal :=
  issue a (.isub a f) (intOk f) (intBody a.tile f fun x y => x - y) s

/-- AND. -/
def execAnd (a : Issue) (f : VArgs) (s : State) : Host.Outcome State Fault Refusal :=
  issue a (.and a f) (intOk f) (intBody a.tile f fun x y => x &&& y) s

/-- OR. -/
def execOr (a : Issue) (f : VArgs) (s : State) : Host.Outcome State Fault Refusal :=
  issue a (.or a f) (intOk f) (intBody a.tile f fun x y => x ||| y) s

/-- XOR. -/
def execXor (a : Issue) (f : VArgs) (s : State) : Host.Outcome State Fault Refusal :=
  issue a (.xor a f) (intOk f) (intBody a.tile f fun x y => x ^^^ y) s

/-- SHL by B[4:0]. -/
def execShl (a : Issue) (f : VArgs) (s : State) : Host.Outcome State Fault Refusal :=
  issue a (.shl a f) (intOk f) (intBody a.tile f fun x y => x <<< (y.toNat % 32)) s

/-- SHR by B[4:0], filling with zeros. -/
def execShr (a : Issue) (f : VArgs) (s : State) : Host.Outcome State Fault Refusal :=
  issue a (.shr a f) (intOk f) (intBody a.tile f fun x y => x >>> (y.toNat % 32)) s

/-- IOTA: lane l takes l + [15:0]. -/
def execIota (a : Issue) (f : VArgs) (s : State) : Host.Outcome State Fault Refusal :=
  issue a (.iota a f) (runsOk f true false false && decide (vSpec f < 65536))
    (laneBody a.tile f (readDist 1 2) fun _ _ l => laneW (BitVec.ofNat 32 (l + vSpec f))) s

/-! ### VX.CVT -/

/-- The memory and conversion format codes: 0 to 2, 4 and 5 (R103, R105). -/
def cvtCode (n : Nat) : Bool := n == 0 || n == 1 || n == 2 || n == 4 || n == 5

/-- A finite value rounded to int32 by RNE with F2I's saturation: the integer, and whether it saturated (R103). -/
def toInt32 (neg : Bool) (m : Nat) (e : Int) : Int × Bool :=
  let i := rneInt neg m e
  if 2 ^ 31 ≤ i then (2 ^ 31 - 1, true) else if i < -(2 ^ 31) then (-(2 ^ 31), true) else (i, false)

/-- FROUND of one lane to a format code (R103). -/
def froundLane (code : Nat) (w : Word) : LaneF :=
  match f32 w with
  | .fin n m e =>
    if code = 5 then
      let i := toInt32 n m e
      { LaneF.of (to32 (ofInt i.1)) with ovf := i.2 }
    else
      match fmtOf code with
      | some f =>
        let r := f.roundFin n m e
        let back := match f.decode r.code with
          | .inf g => (if g then 0xFF800000 else 0x7F800000 : Word)
          | v => BitVec.ofNat 32 (to32 v).code
        { w := back, ovf := r.ovf }
      | none => laneW w
  | _ => .nanIn

/-- FROUND (R103). -/
def execFround (a : Issue) (f : VArgs) (s : State) : Host.Outcome State Fault Refusal :=
  let code := bits (vSpec f) 20 18
  issue a (.fround a f) (runsOk f true true false && cvtCode code)
    (laneBody a.tile f (readDist 1 3) fun e i l => froundLane code (e.lane (f.va.toNat + i) l)) s

/-- F2I of one lane (R103). -/
def f2iLane (w : Word) : LaneF :=
  match f32 w with
  | .fin n m e =>
    let i := toInt32 n m e
    { w := BitVec.ofInt 32 i.1, ovf := i.2 }
  | _ => { w := 0x80000000, domain := true }

/-- F2I (R103). -/
def execF2i (a : Issue) (f : VArgs) (s : State) : Host.Outcome State Fault Refusal :=
  issue a (.f2i a f) (runsOk f true true false)
    (laneBody a.tile f (readDist 1 3) fun e i l => f2iLane (e.lane (f.va.toNat + i) l)) s

/-- I2F (R103). -/
def execI2f (a : Issue) (f : VArgs) (s : State) : Host.Outcome State Fault Refusal :=
  issue a (.i2f a f) (runsOk f true true false)
    (laneBody a.tile f (readDist 1 3) fun e i l => lane32 (ofInt (e.lane (f.va.toNat + i) l).toInt)) s

/-- mix of R224. -/
def mix (v : DWord) : DWord :=
  let a := (v ^^^ (v >>> 32)) * 0x9F1D37C5A4E26B93
  let b := (a ^^^ (a >>> 29)) * 0xE7A34C1B58D90F27
  b ^^^ (b >>> 32)

/-- The random value r of R224. -/
def srndR (seed step : DWord) (n : Nat) (i : Nat) : Nat :=
  let h := mix (seed ^^^ (step * 0x8B6FD2A13C57E9B5))
  let g := mix (h ^^^ BitVec.ofNat 64 (n * 2 ^ 48) ^^^ BitVec.ofNat 64 i)
  (g >>> 48).toNat

/-- Stochastic rounding of one lane to bfloat16, kept as fp32 (R41). -/
def srndLane (r : Nat) (w : Word) : LaneF :=
  match f32 w with
  | .fin _ _ _ =>
    let d := w.toNat % 65536
    let hi := w.toNat / 65536
    let out := if r < d then hi + 1 else hi
    { w := BitVec.ofNat 32 (out * 65536), ovf := decide (out % 32768 = 0x7F80) }
  | _ => .nanIn

/-- SRND: index S13[15:0]·2^32 + lane of B, tensor number [15:0] (R41, R224, R225). The step is CHECK_STEP, or
CHECK_CSTEP in a rebuild. -/
def execSrnd (a : Issue) (f : VArgs) (s : State) : Host.Outcome State Fault Refusal :=
  issue a (.srnd a f) (runsOk f true true true) (fun s =>
    match s.tilePart a.tile with
    | none => .done s
    | some p =>
      let seed := s.reg64 (.checkSeedLo p) (.checkSeedHi p)
      let step := if s.rebuilding p then s.cstep64 p else s.step64 p
      laneBody a.tile f (readDist 1 5) (fun e i l =>
        let idx := (e.scalar 13).toNat % 65536 * 2 ^ 32 + (e.opB f i l).toNat
        srndLane (srndR seed step (vSpec f % 65536) idx) (e.lane (f.va.toNat + i) l)) s) s

/-- One MXFP4 block of MXQ: the active lanes among 32 give the scale; their nibbles and the scale code are written, the
nibbles of the other lanes stay (R37, R38, R96). The store: the line, flags, watch ticks. -/
def mxqBlock (e : Engine) (v : Nat) (act : List Nat) (half : Nat) (line : Bytes) : Bytes × VFlags × List Tick :=
  let ls := act.filter fun l => l / 32 == half
  if ls.isEmpty then (line, {}, [])
  else
    let vs := ls.map fun l => f32 (e.lane v l)
    let b := mxBlock vs
    let bad := decide (b.1 = 0xFF)
    let line1 := (ls.zip b.2).foldl (fun (acc : Bytes) x =>
      let o := 16 * half + (x.1 % 32) / 2
      let old := (acc.getD o 0).toNat
      acc.set o (BitVec.ofNat 8 (if x.1 % 2 = 0 then old / 16 * 16 + x.2 else old % 16 + 16 * x.2))) line
    let line2 := line1.set (32 + half) (BitVec.ofNat 8 b.1)
    let sc : Int := (b.1 : Int) - 127
    let rs := vs.map fun x => Fmt.e2m1.round (x.scale (-sc))
    let ticks := if bad then (vs.zipIdx).map fun x => { write := true, nonfin := decide (x.2 = 0), code := 0xFF }
      else (vs.zip rs).map fun x => tickOf x.1.zero x.2 (mxElem x.2.code b.1)
    (line2, { nanOut := bad, ovf := !bad && rs.any (·.ovf) }, ticks)

/-- MXQ: each register's lanes 0–31 and 32–63 to two MXFP4 blocks in one 64-byte line: elements in bytes 0–15 and 16–31,
scale codes in bytes 32 and 33 (R99). -/
def execMxq (a : Issue) (f : VArgs) (s : State) : Host.Outcome State Fault Refusal :=
  issue a (.mxq a f) (runsOk f false true false) (fun s =>
    let c := s.ctx a (opBytes 0x23 4 1)
    let e := (s.tile a.tile).eng
    let watch := (e.scalar 12).toNat % 65536
    let act := e.active f.mask.toNat
    let at_ := fun i => (vSpec f % 16384 + i) * 64
    if act.isEmpty then .done s
    else
      .done (((List.range (vCount f)).foldl (fun acc i =>
        let old := (List.range 34).map fun j => Bank.byte (acc.tile c.t).desk (at_ i + j)
        let x := mxqBlock e (f.va.toNat + i) act 0 old
        let y := mxqBlock e (f.va.toNat + i) act 1 x.1
        let on := fun j => if j < 32 then act.contains (2 * j) || act.contains (2 * j + 1)
          else act.any fun l => l / 32 == j - 32
        let segs := ((List.range 34).filter on).map fun j => (at_ i + j, [y.1.getD j 0])
        ((acc.writeSegs c segs).raiseVx c.t (x.2.1.or y.2.1)).countTile c.t watch (x.2.2 ++ y.2.2)) s).rangeCheck c
          false ((List.range (vCount f)).map fun i => (at_ i, 34)))) s

/-! ### VX.TR -/

/-- A transcendental function of va (R104). -/
def trBody (t : Nat) (a : VArgs) (fn : TrFn) (s : State) : Act :=
  laneBody t a (readDist (trOcc (s.tile t).eng.vl.toNat) 14) (fun e i l => trLane fn (e.lane (a.va.toNat + i) l)) s

/-- The words of VX.TR that the part accepts. -/
def trOk (a : VArgs) : Bool := runsOk a true true false

/-- EXP (R104). -/
def execExp (a : Issue) (f : VArgs) (s : State) : Host.Outcome State Fault Refusal :=
  issue a (.exp a f) (trOk f) (trBody a.tile f .exp) s
/-- EXP2 (R104). -/
def execExp2 (a : Issue) (f : VArgs) (s : State) : Host.Outcome State Fault Refusal :=
  issue a (.exp2 a f) (trOk f) (trBody a.tile f .exp2) s
/-- LOG (R104). -/
def execLog (a : Issue) (f : VArgs) (s : State) : Host.Outcome State Fault Refusal :=
  issue a (.log a f) (trOk f) (trBody a.tile f .log) s
/-- LOG2 (R104). -/
def execLog2 (a : Issue) (f : VArgs) (s : State) : Host.Outcome State Fault Refusal :=
  issue a (.log2 a f) (trOk f) (trBody a.tile f .log2) s
/-- RCP (R104). -/
def execRcp (a : Issue) (f : VArgs) (s : State) : Host.Outcome State Fault Refusal :=
  issue a (.rcp a f) (trOk f) (trBody a.tile f .rcp) s
/-- SQRT (R104). -/
def execSqrt (a : Issue) (f : VArgs) (s : State) : Host.Outcome State Fault Refusal :=
  issue a (.sqrt a f) (trOk f) (trBody a.tile f .sqrt) s
/-- RSQRT (R104). -/
def execRsqrt (a : Issue) (f : VArgs) (s : State) : Host.Outcome State Fault Refusal :=
  issue a (.rsqrt a f) (trOk f) (trBody a.tile f .rsqrt) s
/-- TANH (R104). -/
def execTanh (a : Issue) (f : VArgs) (s : State) : Host.Outcome State Fault Refusal :=
  issue a (.tanh a f) (trOk f) (trBody a.tile f .tanh) s
/-- SIGM (R104). -/
def execSigm (a : Issue) (f : VArgs) (s : State) : Host.Outcome State Fault Refusal :=
  issue a (.sigm a f) (trOk f) (trBody a.tile f .sigm) s
/-- ERF (R104). -/
def execErf (a : Issue) (f : VArgs) (s : State) : Host.Outcome State Fault Refusal :=
  issue a (.erf a f) (trOk f) (trBody a.tile f .erf) s
/-- SIN (R104). -/
def execSin (a : Issue) (f : VArgs) (s : State) : Host.Outcome State Fault Refusal :=
  issue a (.sin a f) (trOk f) (trBody a.tile f .sin) s
/-- COS (R104). -/
def execCos (a : Issue) (f : VArgs) (s : State) : Host.Outcome State Fault Refusal :=
  issue a (.cos a f) (trOk f) (trBody a.tile f .cos) s

/-! ### VX.PERM -/

/-- MOV: bits unchanged (R102). -/
def execMov (a : Issue) (f : VArgs) (s : State) : Host.Outcome State Fault Refusal :=
  issue a (.mov a f) (unOk f)
    (laneBody a.tile f (readDist 1 2) fun e i l => laneW (e.lane (f.va.toNat + i) l)) s

/-- The lanes of one iteration of PERM: their words, and how many indices lie at or beyond VL (R110). -/
def permLanes (a : VArgs) (e : Engine) (i : Nat) : List (Nat × Word) × Nat :=
  let ls := e.active a.mask.toNat
  let far := fun l => decide (e.vl.toNat ≤ (e.opB a i l).toNat)
  (ls.map fun l => (l, if far l then 0 else e.lane (a.va.toNat + i) (e.opB a i l).toNat), (ls.filter far).length)

/-- PERM: lane l takes lane idx of va, +0 and LANERANGE where idx is at or beyond VL (R110). -/
def execPerm (a : Issue) (f : VArgs) (s : State) : Host.Outcome State Fault Refusal :=
  issue a (.perm a f) (runsOk f true true true && f.g == 0) (fun s =>
    let e := (s.tile a.tile).eng
    let r := runFrom (readDist 1 2) (fun e i =>
      let x := permLanes f e i
      (x.1.map fun y => (f.vd.toNat + i, y.1, y.2), { lr := x.2 })) (List.range (vCount f)) e [] {}
    .done (((s.setEng a.tile r.1).raiseVx a.tile r.2).countTile a.tile ((e.scalar 12).toNat % 65536)
      (List.replicate r.2.lr { lr := true }))) s

/-- BCAST: every lane takes lane [5:0] of va (R99). -/
def execBcast (a : Issue) (f : VArgs) (s : State) : Host.Outcome State Fault Refusal :=
  issue a (.bcast a f) (runsOk f true true false && decide (vSpec f < 64))
    (laneBody a.tile f (readDist 1 2) fun e i _ => laneW (e.lane (f.va.toNat + i) (vSpec f))) s

/-- SGET: scalar vd[3:0] + i takes lane [5:0] of va + i, where that lane is active (R99). -/
def execSget (a : Issue) (f : VArgs) (s : State) : Host.Outcome State Fault Refusal :=
  issue a (.sget a f) (runsOk f false true false && scalarsOk f f.vd.toNat && decide (vSpec f < 64)) (fun s =>
    let e := (s.tile a.tile).eng
    let on := (e.active f.mask.toNat).contains (vSpec f)
    .done (if on then s.setEng a.tile ((List.range (vCount f)).foldl (fun acc i =>
      acc.setScalar (f.vd.toNat % 16 + i) (e.lane (f.va.toNat + i) (vSpec f))) e) else s)) s

/-- SPUT: lane [5:0] of vd + i takes scalar va[3:0] + i, where that lane is active (R99). -/
def execSput (a : Issue) (f : VArgs) (s : State) : Host.Outcome State Fault Refusal :=
  issue a (.sput a f) (runsOk f true false false && scalarsOk f f.va.toNat && decide (vSpec f < 64)) (fun s =>
    let e := (s.tile a.tile).eng
    let on := (e.active f.mask.toNat).contains (vSpec f)
    .done (if on then s.setEng a.tile ((List.range (vCount f)).foldl (fun acc i =>
      acc.setLane (f.vd.toNat + i) (vSpec f) (e.scalar (f.va.toNat % 16 + i))) e) else s)) s

/-! ### VX.TREE -/

/-- Adds neighbours once, rounding each addition (R109). -/
def treeLevel : List Word → List Word × VFlags
  | x :: y :: rest =>
    let r := lane32 (fAddExact (f32 x) (f32 y))
    let t := treeLevel rest
    (r.w :: t.1, r.flags.or t.2)
  | xs => (xs, {})

/-- n levels of the tree. -/
def treeSum : Nat → List Word → Word × VFlags
  | 0, xs => (xs.headD 0, {})
  | n + 1, xs =>
    let l := treeLevel xs
    let r := treeSum n l.1
    (r.1, l.2.or r.2)

/-- A tree sum over 64 lanes, inactive lanes +0; the result goes to lane 0 of vd. VL = 0 writes nothing (R96, R109). Lane 0 is
written also where it, or every lane, is masked off (DESIGN CHOICE, log 122). -/
def treeBody (t : Nat) (a : VArgs) (op : Engine → Nat → Nat → LaneF) (s : State) : Act :=
  let e := (s.tile t).eng
  if e.vl = 0 then .done s
  else
    let r := runFrom (readDist 1 9) (fun e i =>
      let act := e.active a.mask.toNat
      let ls := (List.range 64).map fun l => if act.contains l then op e i l else laneW 0
      let x := treeSum 6 (ls.map (·.w))
      ([(a.vd.toNat + i, 0, x.1)], (ls.foldl (fun (acc : VFlags) l => acc.or l.flags) {}).or x.2))
      (List.range (vCount a)) e [] {}
    .done ((s.setEng t r.1).raiseVx t r.2)

/-- FSUM (R109). -/
def execFsum (a : Issue) (f : VArgs) (s : State) : Host.Outcome State Fault Refusal :=
  issue a (.fsum a f) (unOk f) (treeBody a.tile f fun e i l => laneW (e.lane (f.va.toNat + i) l)) s

/-- FSUMSQ: each lane squared with one rounding first (R109). -/
def execFsumsq (a : Issue) (f : VArgs) (s : State) : Host.Outcome State Fault Refusal :=
  issue a (.fsumsq a f) (unOk f) (treeBody a.tile f fun e i l =>
    let x := f32 (e.lane (f.va.toNat + i) l)
    lane32 (fMulExact x x)) s

/-- FDOT: lane products with one rounding first (R109). -/
def execFdot (a : Issue) (f : VArgs) (s : State) : Host.Outcome State Fault Refusal :=
  issue a (.fdot a f) (fpOk f) (treeBody a.tile f fun e i l =>
    let x := fpArgs f e i l
    lane32 (fMulExact x.1 x.2)) s

/-! ### VX.CTL -/

/-- SETVL: VL takes [6:0], 0 to 64; any other immediate and a scalar number are reserved (R99). -/
def execSetvl (a : Issue) (r : BitVec 4) (imm : BitVec 32) (s : State) : Host.Outcome State Fault Refusal :=
  issue a (.setvl a r imm) (decide (imm.toNat ≤ 64) && r == 0) (fun s =>
    .done (s.setEng a.tile { (s.tile a.tile).eng with vl := imm.truncate 7 })) s

/-- SIMM: scalar [40:37] takes the immediate (R99). -/
def execSimm (a : Issue) (r : BitVec 4) (imm : BitVec 32) (s : State) : Host.Outcome State Fault Refusal :=
  issue a (.simm a r imm) true (fun s =>
    .done (s.setEng a.tile ((s.tile a.tile).eng.setScalar r.toNat imm))) s

end Sys2Proof.Machine
end

