-- ==== Sys2Proof/Machine/VectorGrid.lean ====
section
/-! DEFINITION. VX.GRID: the maximum codes EMAX and EMAXL, the grid sums GADD, GSQ, GDOT and GFOLD, their rounding GRND
and the grid register records GOUT and GIN (R105 to R108, R240, R425). -/

set_option Elab.async false

namespace Sys2Proof.Machine

/-! ### Group bits (R106) -/

/-- Destination grid register, bits [20:19]. -/
def gDst (a : VArgs) : Nat := bits (vSpec a) 20 19
/-- Start, bit [18]. -/
def gStart (a : VArgs) : Bool := bit (vSpec a) 18
/-- Anchor source, bit [17]. -/
def gScalarAnchor (a : VArgs) : Bool := bit (vSpec a) 17
/-- Source grid register, bits [16:15]. -/
def gSrc (a : VArgs) : Nat := bits (vSpec a) 16 15
/-- Scale c, bits [14:7]. -/
def gScale (a : VArgs) : Int := signed 8 (bits (vSpec a) 14 7)
/-- VS select, bit [6]. -/
def gSel (a : VArgs) : Nat := bits (vSpec a) 6 6
/-- EMAX fold, bit [5]. -/
def gFold (a : VArgs) : Bool := bit (vSpec a) 5
/-- Stream of GOUT and GIN, bits [3:0]. -/
def gStream (a : VArgs) : Nat := bits (vSpec a) 3 0
/-- The reserved bit [4] is 0 (R106). -/
def gridBitsOk (a : VArgs) : Bool := !bit (vSpec a) 4

/-- The cause 0 mark and the error records 0x0021 of an instruction's failed grid lane checks, one record per kind of
check with its first lane (R107, R277): entry 0xFF, codes ca and cb. -/
def State.gridFails (s : State) (c : Ctx) (fs : Fails) : State :=
  fs.foldl (fun acc f => (acc.markTile c.t 0).tileErr c 0x0021 1 f.2.1 (toLE 1 0xFF ++ toLE 2 f.2.2)) s

/-! ### Maximum codes -/

/-- The largest R46 code of lane l over the registers of a run. -/
def laneMax (e : Engine) (a : VArgs) (l : Nat) : Nat :=
  (List.range (vCount a)).foldl (fun acc i => Nat.max acc (codeOf (f32 (e.lane (a.va.toNat + i) l)))) 0

/-- EMAX over the register values: each active lane's VS byte is replaced or folded (R105). -/
def emaxRun (a : VArgs) (e : Engine) : Engine :=
  (e.active a.mask.toNat).foldl (fun acc l =>
    let m := laneMax e a l
    acc.setSide (gSel a) l (if gFold a then Nat.max (acc.side (gSel a) l) m else m)) e

/-- EMAX (R105, R106). -/
def execEmax (a : Issue) (f : VArgs) (s : State) : Host.Outcome State Fault Refusal :=
  issue a (.emax a f) (runsOk f false true false && gridBitsOk f) (fun s =>
    .done (s.setEng a.tile (emaxRun f (s.tile a.tile).eng))) s

/-- EMAXL: the one code of all active lanes into the low byte of scalar vd[3:0]; VL = 0 writes nothing (R96, R105). Without an
active lane the code is 0 (DESIGN CHOICE, log 122). -/
def emaxlRun (a : VArgs) (e : Engine) : Engine :=
  if e.vl = 0 then e
  else
    let m := (e.active a.mask.toNat).foldl (fun acc l => Nat.max acc (laneMax e a l)) 0
    e.setScalar (a.vd.toNat % 16) (setFld (e.scalar (a.vd.toNat % 16)) 7 0 m)

/-- EMAXL (R105, R106). -/
def execEmaxl (a : Issue) (f : VArgs) (s : State) : Host.Outcome State Fault Refusal :=
  issue a (.emaxl a f) (runsOk f false true false && gridBitsOk f) (fun s =>
    .done (s.setEng a.tile (emaxlRun f (s.tile a.tile).eng))) s

/-! ### Grid lanes -/

/-- A lane with its chunk added into its total on the 128-bit path (R53). -/
def GLane.closed (g : GLane) : GLane := { g with total := g.total + g.chunk.signExtend 128, chunk := 0, terms := 0 }

/-- The exact integer that a lane holds. -/
def GLane.sum (g : GLane) : Int := g.total.toInt + g.chunk.toInt

/-- A cleared lane that records a pair of codes. -/
def GLane.fresh (ca cb : Byte) : GLane := { ca := ca, cb := cb, rcd := true }

/-- The codes of a lane as a record's syndrome gives them. -/
def codesNat (ca cb : Byte) : Nat := ca.toNat + 256 * cb.toNat

/-- What an instruction that names codes does to a lane: start clears and records them; otherwise a lane without codes
records them, and different codes fail the check (R107). Kinds: 0 different codes, 1 no recorded codes. -/
def GLane.name (g : GLane) (start : Bool) (ca cb : Byte) (l : Nat) (fs : Fails) : GLane × Fails :=
  if start then (GLane.fresh ca cb, fs)
  else if !g.rcd then ({ g with ca := ca, cb := cb, rcd := true }, addFail fs 1 l (codesNat ca cb))
  else if g.ca = ca ∧ g.cb = cb then (g, fs)
  else (g, addFail fs 0 l (codesNat ca cb))

/-- One exact term entering a lane on its recorded anchor a: R51 on unit 2^(a − 78), with R107's clamp at 2^(a + lim) and
R425's flag; no term under codes 0x00 and 0xFF (R49). Kinds: 2 a clamped term, 3 a non-finite term. -/
def GLane.enter (g : GLane) (lim : Nat) (v : FVal) (l : Nat) (fs : Fails) : GLane × Bool × Fails :=
  match anchorOf g.ca g.cb with
  | none => (g, false, fs)
  | some a =>
    match v.opnd with
    | none => ({ g with nonfin := true }, false, addFail fs 3 l (codesNat g.ca g.cb))
    | some (m, ex) =>
      let g := if g.terms = 32768 then g.closed else g
      let s := ex - (a - 78)
      let top : Nat := 2 ^ (78 + lim)
      let big := decide (top ≤ m.natAbs * 2 ^ s.toNat / 2 ^ (-s).toNat)
      let lim' : Int := (top : Int) - 1
      let q := if big then (if m < 0 then -lim' else lim') else floorShift m s
      ({ g with chunk := g.chunk + BitVec.ofInt 96 q, terms := g.terms + 1 }, big,
        if big then addFail fs 2 l (codesNat g.ca g.cb) else fs)

/-- The codes that GADD, GSQ and GDOT name for lane l (R106): function 2, 3 or 4. -/
def gridCodes (a : VArgs) (e : Engine) (fn l : Nat) : Byte × Byte :=
  let s14 : Byte := (e.scalar 14).truncate 8
  let s15 : Byte := (e.scalar 15).truncate 8
  let vs := fun n => (BitVec.ofNat 8 (e.side n l) : Byte)
  match fn with
  | 2 => if gScalarAnchor a then (s14, 0x7F) else (vs (gSel a), 0x7F)
  | 3 => if gScalarAnchor a then (s14, s14) else (vs (gSel a), vs (gSel a))
  | _ => if gScalarAnchor a then (s14, s15) else (vs 0, vs 1)

/-- The term of lane l in iteration i, exact. -/
def gridTerm (a : VArgs) (e : Engine) (fn i l : Nat) : FVal :=
  let x := f32 (e.lane (a.va.toNat + i) l)
  match fn with
  | 2 => x
  | 3 => fMulExact x x
  | _ => fMulExact x (f32 (e.opB a i l))

/-- GADD, GSQ or GDOT over one lane: the lane, how many of its terms were clamped, and the failed checks. -/
def gridLane (a : VArgs) (e : Engine) (fn l : Nat) (fs : Fails) : GLane × Nat × Fails :=
  let c := gridCodes a e fn l
  let r := (e.grid (gDst a) l).name (gStart a) c.1 c.2 l fs
  (List.range (vCount a)).foldl (fun (acc : GLane × Nat × Fails) i =>
    let y := acc.1.enter (if fn = 2 then 1 else 2) (gridTerm a e fn i l) l acc.2.2
    (y.1, acc.2.1 + b2n y.2.1, y.2.2)) (r.1, 0, r.2)

/-- GADD, GSQ or GDOT (R106, R107): every active lane of the destination grid register. The clamps of its terms count as saturations
of tensor S12[15:0], as those of a store (R285; DESIGN CHOICE, log 123). -/
def gridBody (c : Ctx) (a : VArgs) (fn : Nat) (s : State) : Act :=
  let e := (s.tile c.t).eng
  let r := (e.active a.mask.toNat).foldl (fun (acc : Engine × Nat × Fails) l =>
    let y := gridLane a e fn l acc.2.2
    (acc.1.setGrid (gDst a) l y.1, acc.2.1 + y.2.1, y.2.2)) (e, 0, [])
  let ticks := if r.2.1 = 0 then [] else [{ sat := r.2.1 : Tick }]
  .done ((((s.setEng c.t r.1).raiseVx c.t { clamp := decide (0 < r.2.1) }).countTile c.t ((e.scalar 12).toNat % 65536) ticks).gridFails c
    r.2.2)

/-- GADD (R106, R107). -/
def execGadd (a : Issue) (f : VArgs) (s : State) : Host.Outcome State Fault Refusal :=
  issue a (.gadd a f) (runsOk f false true false && gridBitsOk f) (fun s => gridBody (s.ctx a (opBytes 0x26 2 1)) f 2 s) s

/-- GSQ (R106, R107). -/
def execGsq (a : Issue) (f : VArgs) (s : State) : Host.Outcome State Fault Refusal :=
  issue a (.gsq a f) (runsOk f false true false && gridBitsOk f) (fun s => gridBody (s.ctx a (opBytes 0x26 3 1)) f 3 s) s

/-- GDOT (R106, R107). -/
def execGdot (a : Issue) (f : VArgs) (s : State) : Host.Outcome State Fault Refusal :=
  issue a (.gdot a f) (runsOk f false true true && gridBitsOk f) (fun s => gridBody (s.ctx a (opBytes 0x26 4 1)) f 4 s) s

/-- GFOLD over the active lanes of the source register into lane 0 of the destination (R107, R108). The codes it names are
those of its first lane that has recorded any. Kinds: 4 a source lane without codes, 5 a source lane whose codes differ. -/
def gfoldRun (a : VArgs) (e : Engine) : Engine × Fails :=
  let ls := e.active a.mask.toNat
  match ls with
  | [] => (e, [])
  | _ =>
    let src := ls.map fun l => (l, (e.grid (gSrc a) l).closed)
    let first := match src.find? (·.2.rcd) with | some x => x.2 | none => GLane.fresh 0 0
    let r0 := (e.grid (gDst a) 0).name (gStart a) first.ca first.cb 0 []
    let r := src.foldl (fun (acc : GLane × Fails) x =>
      if !x.2.rcd then (acc.1, addFail acc.2 4 x.1 0)
      else
        let fs := if x.2.ca = first.ca ∧ x.2.cb = first.cb then acc.2 else addFail acc.2 5 x.1 (codesNat x.2.ca x.2.cb)
        ({ acc.1 with total := acc.1.total + x.2.total, nonfin := acc.1.nonfin || x.2.nonfin }, fs)) (r0.1.closed, r0.2)
    (e.setGrid (gDst a) 0 r.1, r.2)

/-- GFOLD; its count field must be 0 (R108). -/
def execGfold (a : Issue) (f : VArgs) (s : State) : Host.Outcome State Fault Refusal :=
  issue a (.gfold a f) (f.cnt == 0 && runsOk f false false false && gridBitsOk f) (fun s =>
    let c := s.ctx a (opBytes 0x26 5 1)
    let r := gfoldRun f (s.tile a.tile).eng
    .done ((s.setEng a.tile r.1).gridFails c r.2)) s

/-- The fp32 that GRND gives a lane with the exact scale 2^sc (R49, R54, R107, R108, R425). -/
def grndLane (sc : Int) (g : GLane) : LaneF :=
  if !g.rcd then { w := 0 }
  else if g.nonfin ∨ g.ca = 0xFF ∨ g.cb = 0xFF then { w := nan32, nanOut := true }
  else
    match anchorOf g.ca g.cb with
    | none => { w := 0 }
    | some z => LaneF.of (Fmt.fp32.roundInt g.sum (z - 78 + sc))

/-- The failed checks of reading lanes without recorded codes (R107), kind 4. -/
def unrecorded (e : Engine) (q : Nat) (ls : List Nat) : Fails :=
  ls.foldl (fun acc l => if (e.grid q l).rcd then acc else addFail acc 4 l 0) []

/-- GRND: every register of the run takes the source register's lanes (R108). -/
def execGrnd (a : Issue) (f : VArgs) (s : State) : Host.Outcome State Fault Refusal :=
  issue a (.grnd a f) (runsOk f true false false && gridBitsOk f) (fun s =>
    let c := s.ctx a (opBytes 0x26 6 1)
    let e := (s.tile a.tile).eng
    let r := laneRun f (readDist 1 9) (fun e _ l => grndLane (gScale f) (e.grid (gSrc f) l)) e
    .done (((s.setEng a.tile r.1).raiseVx a.tile r.2).gridFails c (unrecorded e (gSrc f) (e.active f.mask.toNat)))) s

/-! ### Grid register records (R240) -/

/-- The 18-byte contribution of one lane to a record: its total and its codes; none where it is inactive. -/
def GLane.sent (g : GLane) (on : Bool) : Nat × Nat :=
  if !on || !g.rcd then (0, 0)
  else (g.closed.total.toNat, if g.nonfin then 0xFFFF else codesNat g.ca g.cb)

/-- The 1,152-byte record of a grid register (R240). -/
def gridRecord (e : Engine) (q : Nat) (ls : List Nat) : Bytes :=
  let xs := (List.range 64).map fun l => (e.grid q l).sent (ls.contains l)
  xs.flatMap (fun x => toLE 16 x.1) ++ xs.flatMap (fun x => toLE 2 x.2)

/-- GOUT: the active lanes' chunks are added into their totals, and the record leaves as 18 flits (R240). -/
def goutBody (c : Ctx) (a : VArgs) (s : State) : Act :=
  let e := (s.tile c.t).eng
  let ls := e.active a.mask.toNat
  let e1 := ls.foldl (fun acc l => acc.setGrid (gSrc a) l (acc.grid (gSrc a) l).closed) e
  let b := gridRecord e (gSrc a) ls
  ((s.setEng c.t e1).gridFails c (unrecorded e (gSrc a) ls)).sendAll c
    ((List.range 18).map fun i => (gStream a, (b.drop (64 * i)).take 64))

/-- GOUT (R108, R240). -/
def execGout (a : Issue) (f : VArgs) (s : State) : Host.Outcome State Fault Refusal :=
  issue a (.gout a f) (runsOk f false false false && gridBitsOk f) (fun s => goutBody (s.ctx a (opBytes 0x26 7 1)) f s) s

/-- One lane of an incoming record added to a lane (R107, R240). -/
def ginLane (g : GLane) (start : Bool) (total : BitVec 128) (ca cb : Byte) (l : Nat) (fs : Fails) : GLane × Fails :=
  let free := decide (ca = 0 ∨ cb = 0 ∨ ca = 0xFF ∨ cb = 0xFF)
  let r := g.name start ca cb l fs
  let r := if free && g.rcd && !start then (g, fs) else r
  if ca = 0xFF ∨ cb = 0xFF then ({ r.1 with nonfin := true }, r.2)
  else ({ r.1 with total := r.1.total + total }, r.2)

/-- GIN: adds a record into the active lanes of the destination register (R240). -/
def ginBody (c : Ctx) (a : VArgs) (s : State) : Act :=
  match s.takeFlits c.t (gStream a) 18 with
  | (none, s1) => .wait s1 (s1.inWait c (gStream a))
  | (some fl, s1) =>
    let b := fl.flatten
    let e := (s1.tile c.t).eng
    let r := (e.active a.mask.toNat).foldl (fun (acc : Engine × Fails) l =>
      let y := ginLane (acc.1.grid (gDst a) l) (gStart a) (BitVec.ofNat 128 (field b (16 * l) 16))
        (BitVec.ofNat 8 (field b (1024 + 2 * l) 1)) (BitVec.ofNat 8 (field b (1025 + 2 * l) 1)) l acc.2
      (acc.1.setGrid (gDst a) l y.1, y.2)) (e, [])
    .done ((s1.setEng c.t r.1).gridFails c r.2)

/-- GIN (R108, R240). -/
def execGin (a : Issue) (f : VArgs) (s : State) : Host.Outcome State Fault Refusal :=
  issue a (.gin a f) (runsOk f false false false && gridBitsOk f) (fun s => ginBody (s.ctx a (opBytes 0x26 8 1)) f s) s

end Sys2Proof.Machine
end

