-- ==== Sys2Proof/Machine/VectorMem.lean ====
section
/-! DEFINITION. VX.LD, VX.ST, VX.SIDE and VX.TALLY (R105, R111, R284, R428). -/

set_option Elab.async false

namespace Sys2Proof.Machine

/-! ### Group bits (R105, R428) -/

/-- Format in memory, bits [20:18]. -/
def mFmt (a : VArgs) : Nat := bits (vSpec a) 20 18
/-- Form, bits [17:16]: 0 plain, 1 to 3 lane-row. -/
def mForm (a : VArgs) : Nat := bits (vSpec a) 17 16
/-- VX.ST sidecar, bits [15:14]. -/
def mSide (a : VArgs) : Nat := bits (vSpec a) 15 14
/-- Desk byte address: bits [13:0] in 64 B units. -/
def mAddr (a : VArgs) : Nat := bits (vSpec a) 13 0 * 64
/-- Stream, bits [3:0]. -/
def mStream (a : VArgs) : Nat := bits (vSpec a) 3 0
/-- VS0 or VS1 of a store's sidecar: vb[0]. -/
def mSel (a : VArgs) : Nat := a.vb.toNat % 2

/-- Bytes of one element in a memory format. -/
def mBytes (code : Nat) : Nat := if code = 0 then 2 else if code = 1 ∨ code = 2 then 1 else 4

/-- Byte address of lane l's element of register i (R105). -/
def elAddr (a : VArgs) (i l : Nat) : Nat :=
  let n := mBytes (mFmt a)
  if mForm a = 0 then mAddr a + i * 64 * n + l * n else mAddr a + l * (32 * 2 ^ mForm a) + i * n

/-- The group bits of VX.LD and VX.ST that the part accepts: a defined format; a stream form with form and sidecar 0;
VX.LD with sidecar 0; VX.ST with a defined sidecar code and vd 0; no sidecar on a plain store, and no lane-row run beyond
its slot (R105, R187, R428). -/
def ldstOk (a : VArgs) (store stream : Bool) : Bool :=
  cvtCode (mFmt a) && (!stream || (mForm a == 0 && mSide a == 0))
    && (if store then decide (mSide a ≤ 2) && a.vd == 0 else mSide a == 0)
    && (if mForm a = 0 then mSide a == 0 else decide (vCount a * mBytes (mFmt a) ≤ 32 * 2 ^ mForm a))
    && runsOk a (!store) store false

/-! ### Loads -/

/-- One element from memory: formats 4 and 5 move bits; 0 to 2 convert exactly, a NaN or an infinity to the canonical NaN
(R105). -/
def loadEl (code : Nat) (v : Nat) : LaneF :=
  if 3 ≤ code then { w := BitVec.ofNat 32 v }
  else
    match fmtOf code with
    | some f =>
      let x := f.decode v
      if x.special then .nanIn else { w := BitVec.ofNat 32 (to32 x).code }
    | none => { w := BitVec.ofNat 32 v }

/-- The engine and flags after lane values are loaded into a register. -/
def loadLanes (e : Engine) (v : Nat) (fl : VFlags) (xs : List (Nat × LaneF)) : Engine × VFlags :=
  xs.foldl (fun acc x => (acc.1.setLane v x.1 x.2.w, acc.2.or x.2.flags)) (e, fl)

/-- VX.LD from desk memory: the active lanes of each register (R96, R105). -/
def loadDesk (c : Ctx) (a : VArgs) (s : State) : Act :=
  let n := mBytes (mFmt a)
  let ls := ((s.tile c.t).eng).active a.mask.toNat
  let r := (List.range (vCount a)).foldl (fun (acc : State × VFlags) i =>
    let d := acc.1.readSegs c (ls.map fun l => (elAddr a i l, n))
    let y := loadLanes (d.2.tile c.t).eng (a.vd.toNat + i) acc.2 (ls.zip (d.1.map fun b => loadEl (mFmt a) (leNat b)))
    (d.2.setEng c.t y.1, y.2)) (s, {})
  .done ((r.1.raiseVx c.t r.2).rangeCheck c false
    ((List.range (vCount a)).flatMap fun i => ls.map fun l => (elAddr a i l, n)))

/-- VX.LD from desk memory (R105). -/
def execVxLdDesk (a : Issue) (f : VArgs) (s : State) : Host.Outcome State Fault Refusal :=
  issue a (.vxLdDesk a f) (ldstOk f false false) (fun s => loadDesk (s.ctx a (opBytes 0x28 0 1)) f s) s

/-- VX.LD from a mesh stream: f flits per register in the plain layout; inactive lanes' bytes are consumed (R428). -/
def loadStream (c : Ctx) (a : VArgs) (s : State) : Act :=
  let n := mBytes (mFmt a)
  match s.takeFlits c.t (mStream a) (n * vCount a) with
  | (none, s1) => .wait s1 (s1.inWait c (mStream a))
  | (some fl, s1) =>
    let b := fl.flatten
    let e := (s1.tile c.t).eng
    let ls := e.active a.mask.toNat
    let r := (List.range (vCount a)).foldl (fun (acc : Engine × VFlags) i =>
      loadLanes acc.1 (a.vd.toNat + i) acc.2 (ls.map fun l => (l, loadEl (mFmt a) (field b (i * 64 * n + l * n) n)))) (e, {})
    .done ((s1.setEng c.t r.1).raiseVx c.t r.2)

/-- VX.LD from a mesh stream (R101, R428). -/
def execVxLdStream (a : Issue) (f : VArgs) (s : State) : Host.Outcome State Fault Refusal :=
  issue a (.vxLdStream a f) (ldstOk f false true) (fun s => loadStream (s.ctx a (opBytes 0x28 1 1)) f s) s

/-! ### Stores -/

/-- One element as a store writes it: its bits, the flags and the watch tick of a conversion, and its R46 code. -/
structure StEl where
  v    : Nat
  fl   : VFlags := {}
  tick : Option Tick := none
  code : Nat := 0
  deriving DecidableEq, Repr

/-- A register lane in a memory format (R103, R105). -/
def storeEl (code : Nat) (w : Word) : StEl :=
  let x := f32 w
  if code = 4 then { v := w.toNat, code := codeOf x }
  else if code = 5 then { v := w.toNat, code := codeOf (ofInt w.toInt) }
  else
    match fmtOf code with
    | some f =>
      let r := f.round x
      let y := f.decode r.code
      { v := r.code, fl := { ovf := r.ovf, nanOut := r.nan }, tick := some (tickOf x.zero r y), code := codeOf y }
    | none => { v := w.toNat }

/-- The elements that one register of a store writes, with their lanes. -/
def storeLanes (e : Engine) (a : VArgs) (i : Nat) (ls : List Nat) : List (Nat × StEl) :=
  ls.map fun l => (l, storeEl (mFmt a) (e.lane (a.va.toNat + i) l))

/-- The flags of a store's elements, and the sticky flags and watch counts they raise (R45, R284). -/
def State.storeCounts (s : State) (t : Nat) (xs : List (Nat × StEl)) : State :=
  let watch := (((s.tile t).eng).scalar 12).toNat % 65536
  (s.raiseVx t (xs.foldl (fun acc x => acc.or x.2.fl) {})).countTile t watch (xs.filterMap (·.2.tick))

/-- The VS byte of each active lane after a store with sidecar form `k` (1 clear and write, 2 fold) (R105). -/
def storeSide (e : Engine) (a : VArgs) (k : Nat) (ls : List Nat) (xs : List (Nat × StEl)) : Engine :=
  ls.foldl (fun acc l =>
    let m := xs.foldl (fun n x => if x.1 = l then Nat.max n x.2.code else n) 0
    acc.setSide (mSel a) l (if k = 2 then Nat.max (acc.side (mSel a) l) m else m)) e

/-- VX.ST to desk memory (R105). -/
def storeDesk (c : Ctx) (a : VArgs) (s : State) : Act :=
  let n := mBytes (mFmt a)
  let e := (s.tile c.t).eng
  let ls := e.active a.mask.toNat
  let rows := (List.range (vCount a)).map fun i => storeLanes e a i ls
  let s1 := (rows.zipIdx).foldl (fun acc r =>
    acc.writeSegs c (r.1.map fun x => (elAddr a r.2 x.1, toLE n x.2.v))) s
  let s2 := s1.storeCounts c.t rows.flatten
  let s3 := if mSide a = 0 then s2 else s2.setEng c.t (storeSide (s2.tile c.t).eng a (mSide a) ls rows.flatten)
  .done (s3.rangeCheck c false ((List.range (vCount a)).flatMap fun i => ls.map fun l => (elAddr a i l, n)))

/-- VX.ST to desk memory (R105). -/
def execVxStDesk (a : Issue) (f : VArgs) (s : State) : Host.Outcome State Fault Refusal :=
  issue a (.vxStDesk a f) (ldstOk f true false) (fun s => storeDesk (s.ctx a (opBytes 0x29 0 1)) f s) s

/-- VX.ST to a mesh stream: inactive lanes are sent as zero bytes (R428). -/
def storeStream (c : Ctx) (a : VArgs) (s : State) : Act :=
  let n := mBytes (mFmt a)
  let e := (s.tile c.t).eng
  let ls := e.active a.mask.toNat
  let rows := (List.range (vCount a)).map fun i => storeLanes e a i ls
  let s1 := s.storeCounts c.t rows.flatten
  s1.sendAll c (rows.flatMap fun r =>
    let b := (List.range 64).flatMap fun l => match r.find? (·.1 == l) with | some x => toLE n x.2.v | none => toLE n 0
    (flitsOf b).map fun x => (mStream a, x))

/-- VX.ST to a mesh stream (R428). -/
def execVxStStream (a : Issue) (f : VArgs) (s : State) : Host.Outcome State Fault Refusal :=
  issue a (.vxStStream a f) (ldstOk f true true) (fun s => storeStream (s.ctx a (opBytes 0x29 1 1)) f s) s

/-! ### VX.SIDE -/

/-- The VS register of VX.SIDE: bit [20]. -/
def sideSel (a : VArgs) : Nat := bits (vSpec a) 20 20

/-- The words of VX.SIDE that the part accepts: bits [19:14] and the mask are 0 (R96, R428). -/
def sideOk (a : VArgs) : Bool := bits (vSpec a) 19 14 == 0 && a.mask == 0 && runsOk a false false false

/-- The 64 bytes of VSn. -/
def Engine.sideBytes (e : Engine) (n : Nat) : Bytes := Bank.bytes e.vs (64 * n) 64

/-- VSn with bytes folded in by unsigned maximum (R77). -/
def Engine.foldSide (e : Engine) (n : Nat) (b : Bytes) : Engine :=
  (b.zipIdx).foldl (fun acc x => acc.setSide n x.2 (Nat.max (acc.side n x.2) x.1.toNat)) e

/-- VX.SIDE store: one desk line (R428). -/
def execVxSideStore (a : Issue) (f : VArgs) (s : State) : Host.Outcome State Fault Refusal :=
  issue a (.vxSideStore a f) (sideOk f) (fun s =>
    let c := s.ctx a (opBytes 0x2A 0 1)
    .done (s.writeMem c false (mAddr f) (((s.tile c.t).eng).sideBytes (sideSel f)))) s

/-- VX.SIDE send: one flit (R428). -/
def execVxSideSend (a : Issue) (f : VArgs) (s : State) : Host.Outcome State Fault Refusal :=
  issue a (.vxSideSend a f) (sideOk f) (fun s =>
    let c := s.ctx a (opBytes 0x2A 1 1)
    s.sendAll c [(mStream f, ((s.tile c.t).eng).sideBytes (sideSel f))]) s

/-- VX.SIDE fold from desk memory (R77, R428). -/
def execVxSideFoldDesk (a : Issue) (f : VArgs) (s : State) : Host.Outcome State Fault Refusal :=
  issue a (.vxSideFoldDesk a f) (sideOk f) (fun s =>
    let c := s.ctx a (opBytes 0x2A 2 1)
    let r := s.readMem c false (mAddr f) 64
    .done (r.2.setEng c.t (((r.2.tile c.t).eng).foldSide (sideSel f) r.1))) s

/-- VX.SIDE fold from a mesh stream (R77, R101, R428). -/
def execVxSideFoldStream (a : Issue) (f : VArgs) (s : State) : Host.Outcome State Fault Refusal :=
  issue a (.vxSideFoldStream a f) (sideOk f) (fun s =>
    let c := s.ctx a (opBytes 0x2A 3 1)
    match s.takeFlits c.t (mStream f) 1 with
    | (none, s1) => .wait s1 (s1.inWait c (mStream f))
    | (some fl, s1) => .done (s1.setEng c.t (((s1.tile c.t).eng).foldSide (sideSel f) (fl.flatten.take 64)))) s

/-! ### VX.TALLY -/

/-- The tally grid entry that a VX.TALLY names, bits [17:14]. -/
def tallyEntry (a : VArgs) : Nat := bits (vSpec a) 17 14

/-- Desk byte address of lane l's tally of register i (R111). -/
def tallyAddr (a : VArgs) (i l : Nat) : Nat := mAddr a + 512 * i + 8 * l

/-- An instruction that selects an entry with VALID = 0: bad, with record 0x0021 naming the entry (R91, R111, R277). -/
def State.badEntry (s : State) (c : Ctx) (n : Nat) : State :=
  (s.markTile c.t 0).tileErr c 0x0021 1 0 (toLE 1 n)

/-- An addition whose sum left the range of R60: bad, with record 0x0021 naming the address. -/
def State.tallyRange (s : State) (c : Ctx) (shelf : Bool) (addr : Nat) : State :=
  (s.markTile c.t 0).tileErr c 0x0021 1 (memLoc shelf addr) []

/-- Adds a tally into the 64-bit tally at a desk address (R60), but the range check. -/
def State.addDeskTally (s : State) (c : Ctx) (addr : Nat) (v : BitVec 64) : State :=
  let r := s.readCore c false addr 8
  let y := tallyAdd (BitVec.ofNat 64 (leNat r.1)) v
  let s1 := r.2.writeCore c false addr (toLE 8 y.1.toNat)
  if y.2 then s1.tallyRange c false addr else s1

/-- A register lane as a contribution on grid (G, k): the tally it adds and its tick (R59, R285). -/
def contribution (G k : Int) (w : Word) : BitVec 64 × Tick :=
  match (f32 w).opnd with
  | none => (marker, tallyTick .nonfin)
  | some (m, e) =>
    let x := tallyIn G k m e
    (BitVec.ofInt 64 x.1, tallyTick x.2)

/-- TADD (R59, R60, R111); a NaN or an infinity raises the flag that a tally run raises (R45; log 126). -/
def taddBody (c : Ctx) (a : VArgs) (s : State) : Act :=
  let tg := tgrid (s.reg (.tileTgrid c.t (tallyEntry a)))
  if !tg.1 then .done (s.badEntry c (tallyEntry a))
  else
    let e := (s.tile c.t).eng
    let its := (List.range (vCount a)).flatMap fun i => (e.active a.mask.toNat).map fun l => (i, l)
    let r := its.foldl (fun (acc : State × List Tick) x =>
      let y := contribution tg.2.1 tg.2.2.1 (e.lane (a.va.toNat + x.1) x.2)
      (acc.1.addDeskTally c (tallyAddr a x.1 x.2) y.1, acc.2 ++ [y.2])) (s, [])
    .done (((r.1.countTile c.t tg.2.2.2 r.2).raiseVx c.t { nanOut := r.2.any (·.nonfin) }).rangeCheck c false
      (its.map fun x => (tallyAddr a x.1 x.2, 8)))

/-- TADD; bits [20:18] are reserved (R111). -/
def execTadd (a : Issue) (f : VArgs) (s : State) : Host.Outcome State Fault Refusal :=
  issue a (.tadd a f) (bits (vSpec f) 20 18 == 0 && runsOk f false true false) (fun s =>
    taddBody (s.ctx a (opBytes 0x2B 0 1)) f s) s

/-- A tally as fp32 on unit 2^g, and its tick as a converted element (R63, R237, R285). -/
def tcvtLane (g : Int) (t : BitVec 64) : LaneF × Tick :=
  if t = marker then (.nanIn, { write := true, nonfin := true })
  else
    let r := Fmt.fp32.roundInt t.toInt g
    (LaneF.of r, { write := true, sat := b2n r.ovf
                   bz := decide (t ≠ 0) && decide (r.code % 2 ^ 31 = 0), zeroEl := decide (t = 0), code := tallyCode t g })

/-- TCVT (R63, R111, R284). -/
def tcvtBody (c : Ctx) (a : VArgs) (s : State) : Act :=
  let tg := tgrid (s.reg (.tileTgrid c.t (tallyEntry a)))
  let ls := ((s.tile c.t).eng).active a.mask.toNat
  if !tg.1 then
    let e := (List.range (vCount a)).foldl (fun acc i => ls.foldl (fun (acc : Engine) l => acc.setLane (a.vd.toNat + i) l 0) acc)
      (s.tile c.t).eng
    .done ((s.setEng c.t e).badEntry c (tallyEntry a))
  else
    let r := (List.range (vCount a)).foldl (fun (acc : State × VFlags × List Tick) i =>
      let d := acc.1.readSegs c (ls.map fun l => (tallyAddr a i l, 8))
      let xs := ls.zip (d.1.map fun b => tcvtLane (tallyG tg.2.1 tg.2.2.1) (BitVec.ofNat 64 (leNat b)))
      let y := loadLanes (d.2.tile c.t).eng (a.vd.toNat + i) acc.2.1 (xs.map fun x => (x.1, x.2.1))
      (d.2.setEng c.t y.1, y.2, acc.2.2 ++ xs.map (·.2.2))) (s, {}, [])
    let s1 := r.1.raiseVx c.t r.2.1
    let s2 := if bit (vSpec a) 18 then s1.countTile c.t tg.2.2.2 r.2.2 else s1
    .done (s2.rangeCheck c false ((List.range (vCount a)).flatMap fun i => ls.map fun l => (tallyAddr a i l, 8)))

/-- TCVT; bits [20:19] are reserved (R111). -/
def execTcvt (a : Issue) (f : VArgs) (s : State) : Host.Outcome State Fault Refusal :=
  issue a (.tcvt a f) (bits (vSpec f) 20 19 == 0 && runsOk f true false false) (fun s =>
    tcvtBody (s.ctx a (opBytes 0x2B 1 1)) f s) s

end Sys2Proof.Machine
end

