-- ==== Sys2Proof/Machine/Memory.lean ====
section
/-! DEFINITION. The memory instructions MM.MOVE, MM.SREQ, MM.WAIT, MM.ASTASH and MM.TXFER (R131 to R139, R221, R241,
R242). -/

set_option Elab.async false

namespace Sys2Proof.Machine

/-! ### MM.MOVE -/

/-- MM.MOVE COPY desk to shelf (R132); the clear bit is TFOLD's alone. -/
def execMmCopyToShelf (a : Issue) (f : MoveArgs) (s : State) : Host.Outcome State Fault Refusal :=
  issue a (.mmCopyToShelf a f) true (fun s =>
    let c := s.ctx a (opBytes 0x38 0 2)
    let n := 64 * (f.cnt.toNat + 1)
    let r := s.readMem c false (64 * f.desk.toNat) n
    .done (r.2.writeShelf c (64 * f.shelf.toNat) r.1)) s

/-- MM.MOVE COPY shelf to desk (R132). -/
def execMmCopyToDesk (a : Issue) (f : MoveArgs) (s : State) : Host.Outcome State Fault Refusal :=
  issue a (.mmCopyToDesk a f) true (fun s =>
    let c := s.ctx a (opBytes 0x38 1 2)
    let n := 64 * (f.cnt.toNat + 1)
    let r := s.readMem c true (64 * f.shelf.toNat) n
    .done (r.2.writeMem c false (64 * f.desk.toNat) r.1)) s

/-- One tally of a fold: desk tally added into the shelf tally (R60, R132). -/
def State.foldTally (s : State) (c : Ctx) (desk shelf : Nat) : State :=
  let r := s.readCore c false desk 8
  let t : BitVec 64 := BitVec.ofNat 64 (leNat r.1)
  r.2.addTally c true shelf (if t = marker then none else some t.toInt)

/-- TFOLD: rows of 20 tallies in 192 B desk slots added into packed 160 B shelf rows; clear writes 0 into the source
tallies (R132). -/
def tfoldBody (c : Ctx) (a : MoveArgs) (s : State) : Act :=
  let n := a.cnt.toNat + 1
  let d := fun r => 64 * a.desk.toNat + 192 * r
  let h := 64 * a.shelf.toNat
  let s1 := (List.range n).foldl (fun acc r =>
    let a1 := (List.range 20).foldl (fun a j => a.foldTally c (d r + 8 * j) (h + 160 * r + 8 * j)) acc
    if a.clear then a1.writeCore c false (d r) (List.replicate 160 0) else a1) s
  let s2 := (s1.rangeCheck c false ((List.range n).map fun r => (d r, 160))).rangeCheck c true [(h, 160 * n)]
  .done (s2.closedFault c h (160 * n))

/-- MM.MOVE TFOLD (R132). -/
def execTfold (a : Issue) (f : MoveArgs) (s : State) : Host.Outcome State Fault Refusal :=
  issue a (.tfold a f) true (fun s => tfoldBody (s.ctx a (opBytes 0x38 2 2)) f s) s

/-! ### MM.SREQ and MM.WAIT -/

/-- The request of an MM.SREQ (R131, R132, R221); a write has the local lines that it takes as it is enqueued (log 114). -/
def sreqOf (s : State) (t : Nat) (a : SreqArgs) (data : Option Bytes) : StashReq :=
  let n := a.lines.toNat + 1
  { write := data.isSome, shelf := a.shelf, laddr := 64 * a.laddr.toNat
    saddr := match s.tilePart t with
      | some p => s.windowLines p (64 * a.saddr.toNat) n
      | none => []
    ctr := some a.ctr, data := data }

/-- MM.SREQ read, stash to local memory: enqueued (R131, R133). -/
def execMmSreqRead (a : Issue) (f : SreqArgs) (s : State) : Host.Outcome State Fault Refusal :=
  issue a (.mmSreqRead a f) true (fun s => s.enqueue (s.ctx a (opBytes 0x39 0 2)) [sreqOf s a.tile f none]) s

/-- MM.SREQ write, local memory to stash: enqueued (R131, R133). -/
def execMmSreqWrite (a : Issue) (f : SreqArgs) (s : State) : Host.Outcome State Fault Refusal :=
  issue a (.mmSreqWrite a f) true (fun s =>
    let c := s.ctx a (opBytes 0x39 1 2)
    let r := s.readMem c f.shelf (64 * f.laddr.toNat) (64 * (f.lines.toNat + 1))
    r.2.enqueue c [sreqOf r.2 a.tile f (some r.1)]) s

/-- MM.WAIT: stalls until the counter is at least n, then subtracts n where consume is set (R132 to R134). -/
def waitBody (c : Ctx) (a : WaitArgs) (s : State) : Act :=
  let r : Reg := .tileToken c.t a.ctr.toNat
  let v := s.reg r
  if v.toNat < a.n.toNat then .wait s (queueWait c)
  else .done (if a.consume then s.setReg r (v - a.n.zeroExtend 32) else s)

/-- MM.WAIT (R132). -/
def execMmWait (a : Issue) (f : WaitArgs) (s : State) : Host.Outcome State Fault Refusal :=
  issue a (.mmWait a f) true (fun s => waitBody (s.ctx a (opBytes 0x3A 0 2)) f s) s

/-! ### MM.ASTASH -/

/-- The plan region of a tile: its space, byte base and lines (TILE_APLAN). -/
def State.planRegion (s : State) (t : Nat) : Bool × Nat × Nat :=
  (s.regBit (.tileAplan t) 31, 4096 * s.regFld (.tileAplan t) 25 16, 64 * s.regFld (.tileAplan t) 9 0)

/-- The spill segment of a tile: its partition-relative byte base and lines. -/
def State.spillSeg (s : State) (t : Nat) : Nat × Nat :=
  (65536 * s.regFld (.tileAspillb t) 20 0, 1024 * s.regFld (.tileAspills t) 15 0)

/-- The directory with a record, RECORDS and SPILLED raised (R136, R142). -/
def State.putDir (s : State) (t recNo : Nat) (e : DirEnt) (plan spill : Nat) : State :=
  let x := s.tile t
  let isNew := (Bank.get noDir x.dir recNo).lines = 0
  let s1 := s.setTile t { x with dir := Bank.set noDir x.dir recNo e, planPtr := x.planPtr + plan, spillPtr := x.spillPtr + spill }
  let w := s1.reg (.tileAstat t)
  let w1 := if isNew then setFld w 31 19 (fld w 31 19 + 1) else w
  s1.setReg (.tileAstat t) (if e.spilled then setFld w1 18 6 (fld w1 18 6 + 1) else w1)

/-- The requests of a spilled record: header first, at most 64 lines each (R137). -/
def spillReqs (addr : Nat) (b : Bytes) : List StashReq :=
  let n := b.length / 64
  (List.range ((n + 63) / 64)).map fun i =>
    { write := true, shelf := false, laddr := 0, ctr := none
      saddr := (List.range (Nat.min 64 (n - 64 * i))).map fun j => addr + 4096 * i + 64 * j
      data := some ((b.drop (4096 * i)).take 4096) }

/-- A record that fits nowhere: EXHAUSTED, record 0x0060, and the recall with bit 10 (R138, R277). -/
def State.exhaust (s : State) (c : Ctx) (p : Bool) (recNo lines : Nat) : State :=
  let s1 := s.setRegBit (.tileAstat c.t) 5 true
  (s1.tileErr c 0x0060 3 c.t (toLE 2 recNo ++ toLE 2 lines ++ toLE 4 (s1.reg (.tileAstat c.t)).toNat)).recallNow p 10

/-- APUT (R136 to R138). -/
def aputBody (c : Ctx) (a : StashArgs) (s : State) : Act :=
  match s.tilePart c.t with
  | none => .done s
  | some p =>
    let n := a.lines.toNat + 1
    let x := s.tile c.t
    let plan := s.planRegion c.t
    let seg := s.spillSeg c.t
    let src := 64 * a.laddr.toNat
    -- after a record that went to the spill segment every later one goes there (R136)
    if x.spillPtr = 0 ∧ x.planPtr + n ≤ plan.2.2 then
      let r := s.readMem c a.shelf src (64 * n)
      let s1 := r.2.writeLocal c plan.1 (plan.2.1 + 64 * x.planPtr) r.1
      .done (s1.putDir c.t a.recNo.toNat { spilled := false, addr := plan.2.1 + 64 * x.planPtr, lines := n } n 0)
    else if x.spillPtr + 1 + n ≤ seg.2 then
      let r := s.readMem c a.shelf src (64 * n)
      let addr := seg.1 + 64 * x.spillPtr
      let s1 := r.2.putDir c.t a.recNo.toNat { spilled := true, addr := addr, lines := n } 0 (n + 1)
      s1.enqueue c (spillReqs addr (s1.spillHeader p c.t a.recNo.toNat n ++ r.1))
    else .done (s.exhaust c p a.recNo.toNat n)

/-- APUT (R132). -/
def execAput (a : Issue) (f : StashArgs) (s : State) : Host.Outcome State Fault Refusal :=
  issue a (.aput a f) true (fun s => aputBody (s.ctx a (opBytes 0x3B 0 2)) f s) s

/-- The reads of a spilled record, header and payload lines, at most 64 lines each (R131, R137). -/
def fetchReqs (a : StashArgs) (e : DirEnt) : List StashReq :=
  let k := (e.lines + 64) / 64
  (List.range k).map fun i =>
    { write := false, shelf := a.shelf, laddr := 64 * a.laddr.toNat, ctr := none
      saddr := (List.range (Nat.min 64 (e.lines + 1 - 64 * i))).map fun j => e.addr + 4096 * i + 64 * j
      data := none, fetch := some (if i + 1 = k then some a else none) }

/-- AGET (R137): a spilled record's reads are enqueued, and the stream stalls until the last line has landed (R133). -/
def agetBody (c : Ctx) (a : StashArgs) (s : State) : Act :=
  match s.tilePart c.t with
  | none => .done s
  | some _ =>
    let n := a.lines.toNat + 1
    let e := Bank.get noDir (s.tile c.t).dir a.recNo.toNat
    if e.lines ≠ n then .done (s.agetZero c a 0 (toLE 2 a.recNo.toNat ++ toLE 2 n))
    else if !e.spilled then
      let r := s.readMem c (s.planRegion c.t).1 e.addr (64 * n)
      .done (r.2.writeLocal c a.shelf (64 * a.laddr.toNat) r.1)
    else .wait (s.putReqs c.t (fetchReqs a e)) (queueWait c)

/-- AGET (R132). -/
def execAget (a : Issue) (f : StashArgs) (s : State) : Host.Outcome State Fault Refusal :=
  issue a (.aget a f) true (fun s => agetBody (s.ctx a (opBytes 0x3B 1 2)) f s) s

/-! ### MM.TXFER -/

/-- TSEND: tallies from desk memory, or zero-filled flits where empty is set, on an outbound stream (R241, R242, R246). -/
def tsendBody (c : Ctx) (a : TxArgs) (s : State) : Act :=
  let n := a.flits.toNat + 1
  let st := a.stream.toNat
  if a.empty then s.sendAll c (List.replicate n (st, List.replicate 64 0))
  else
    let r := s.readMem c false (64 * a.desk.toNat) (64 * n)
    r.2.sendAll c ((flitsOf r.1).map fun b => (st, b))

/-- TSEND (R241). -/
def execTsend (a : Issue) (f : TxArgs) (s : State) : Host.Outcome State Fault Refusal :=
  issue a (.tsend a f) true (fun s => tsendBody (s.ctx a (opBytes 0x3D 0 2)) f s) s

/-- TRECV: the tallies of n flits added into desk tallies; flits are consumed without adding where empty is set (R242). -/
def trecvBody (c : Ctx) (a : TxArgs) (s : State) : Act :=
  let n := a.flits.toNat + 1
  match s.takeFlits c.t a.stream.toNat n with
  | (none, s1) => .wait s1 (s1.inWait c a.stream.toNat)
  | (some fl, s1) =>
    if a.empty then .done s1
    else
      let b := fl.flatten
      let base := 64 * a.desk.toNat
      .done (((List.range (8 * n)).foldl (fun acc i =>
        acc.addDeskTally c (base + 8 * i) (BitVec.ofNat 64 (field b (8 * i) 8))) s1).rangeCheck c false [(base, 64 * n)])

/-- TRECV (R241). -/
def execTrecv (a : Issue) (f : TxArgs) (s : State) : Host.Outcome State Fault Refusal :=
  issue a (.trecv a f) true (fun s => trecvBody (s.ctx a (opBytes 0x3D 1 2)) f s) s

end Sys2Proof.Machine
end

