-- ==== Sys2Proof/Machine/Edition.lean ====
section
/-! DEFINITION. Edition instructions (R216 to R219) and the opening of regions by the load engine's wave (R336). -/

set_option Elab.async false

namespace Sys2Proof.Machine

/-! ### Regions and slots -/

/-- VALID of a region. -/
def State.regionValid (s : State) (t n : Nat) : Bool := s.regBit (.tileRegion t n) 31
/-- OPEN of a region. -/
def State.regionOpen (s : State) (t n : Nat) : Bool := s.regBit (.tileRegcnt t n) 31
/-- COUNT of a region. -/
def State.regionCount (s : State) (t n : Nat) : Nat := s.regFld (.tileRegcnt t n) 15 0
/-- EDITION of a region. -/
def State.edition (s : State) (t n : Nat) : Word := s.reg (.tileReged t n)
/-- Whether a slot is live. -/
def State.slotLive (s : State) (t k : Nat) : Bool := s.regBit (.tileEdslotr t k) 31

/-! ### The wave (R336) -/

/-- Whether the load engine may open a region of a wave now: the bell that ends step S − 1 + d has rung, every tensor of a
smaller lag has flipped, the region is closed and its COUNT is 0. -/
def State.waveReady (s : State) (p : Bool) (w : Wave) (e : Nat × Nat × Nat × Nat) : Bool :=
  decide (w.s + BitVec.ofNat 64 e.1 ≤ s.step64 p) && w.left.all (fun x => decide (e.1 ≤ x.1))
    && !w.opened.contains (e.2.1, e.2.2.1) && !s.regionOpen e.2.1 e.2.2.1 && decide (s.regionCount e.2.1 e.2.2.1 = 0)

/-- The load engine opens every region that it may (R336); none while a pre-emption saves or has saved the partition (R339). -/
def State.waveOpen (s : State) (p : Bool) : State :=
  match (s.part p).wave with
  | none => s
  | some w =>
    let go := if (s.part p).saving.isSome || s.regBit (.secPstat p) 29 then [] else w.left.filter (s.waveReady p w)
    let s1 := go.foldl (fun (acc : State) e => acc.setRegBit (.tileRegcnt e.2.1 e.2.2.1) 31 true) s
    let x := s1.part p
    s1.setPart p { x with wave := some { w with opened := w.opened ++ go.map fun e => (e.2.1, e.2.2.1) } }

/-! ### Edition instructions -/

/-- The edition wait of R218. -/
def edWait (c : Ctx) : Wait :=
  { cause := 9, cyc := c.cyc, queue := BitVec.ofNat 16 (tileQueue c.t), tile := BitVec.ofNat 16 c.t }

/-- ED.TAKE: form 1 waits for the slot's edition (R218, R219). -/
def takeBody (form1 : Bool) (c : Ctx) (a : EdArgs) (s : State) : Act :=
  let n := a.region.toNat
  let k := a.slot.toNat
  if !s.regionValid c.t n || s.slotLive c.t k then .done (s.editionFault c n k)
  else if s.regionOpen c.t n || (form1 && s.edition c.t n != s.reg (.tileEdslot c.t k)) then .wait s (edWait c)
  else if s.regionCount c.t n = 65535 then .done (s.editionFault c n k)
  else
    let s1 := s.setReg (.tileEdslot c.t k) (s.edition c.t n)
    let s2 := s1.setReg (.tileEdslotr c.t k) (BitVec.ofNat 32 (2 ^ 31 + n))
    .done (s2.setRegFld (.tileRegcnt c.t n) 15 0 (s.regionCount c.t n + 1))

/-- The words of ED.TAKE and ED.DROP that the part accepts (R217). -/
def edOk (a : EdArgs) : Bool := a.slot != 0 && a.desk == 0

/-- ED.TAKE form 0 (R217, R218). -/
def execEdTake (a : Issue) (f : EdArgs) (s : State) : Host.Outcome State Fault Refusal :=
  issue a (.edTake a f) (edOk f) (fun s => takeBody false (s.ctx a (opBytes 0x3C 0 2)) f s) s

/-- ED.TAKE form 1 (R217, R218). -/
def execEdTakeWait (a : Issue) (f : EdArgs) (s : State) : Host.Outcome State Fault Refusal :=
  issue a (.edTakeWait a f) (edOk f) (fun s => takeBody true (s.ctx a (opBytes 0x3C 0 2)) f s) s

/-- ED.DROP (R218, R219); a COUNT that reaches 0 lets the wave open the region (R336). -/
def dropBody (c : Ctx) (a : EdArgs) (s : State) : State :=
  let n := a.region.toNat
  let k := a.slot.toNat
  if !s.regionValid c.t n || !s.slotLive c.t k || decide (s.regionCount c.t n = 0)
      || decide (s.regFld (.tileEdslotr c.t k) 5 0 ≠ n) then s.editionFault c n k
  else
    let same := s.reg (.tileEdslot c.t k) == s.edition c.t n
    let s0 := if same then s else s.editionFault c n k
    let s1 := (s0.setRegFld (.tileRegcnt c.t n) 15 0 (s.regionCount c.t n - 1)).setReg (.tileEdslotr c.t k) 0
    match s.tilePart c.t with
    | some p => s1.waveOpen p
    | none => s1

/-- ED.DROP (R217). -/
def execEdDrop (a : Issue) (f : EdArgs) (s : State) : Host.Outcome State Fault Refusal :=
  issue a (.edDrop a f) (edOk f) (fun s => .done (dropBody (s.ctx a (opBytes 0x3C 1 2)) f s)) s

/-- ED.OPEN (R218, R219). -/
def openBody (c : Ctx) (a : EdArgs) (s : State) : Act :=
  let n := a.region.toNat
  if !s.regionValid c.t n || s.regionOpen c.t n then .done (s.editionFault c n 0)
  else if s.regionCount c.t n ≠ 0 then .wait s (edWait c)
  else .done (s.setRegBit (.tileRegcnt c.t n) 31 true)

/-- The words of ED.OPEN and ED.SEAL that the part accepts (R217). -/
def edOpenOk (a : EdArgs) : Bool := a.slot == 0 && a.desk == 0

/-- ED.OPEN (R217). -/
def execEdOpen (a : Issue) (f : EdArgs) (s : State) : Host.Outcome State Fault Refusal :=
  issue a (.edOpen a f) (edOpenOk f) (fun s => openBody (s.ctx a (opBytes 0x3C 2 2)) f s) s

/-- ED.SEAL; it leaves EDITION unchanged in a rebuild (R218, R219, R228). -/
def sealBody (c : Ctx) (a : EdArgs) (s : State) : State :=
  let n := a.region.toNat
  if !s.regionValid c.t n || !s.regionOpen c.t n then s.editionFault c n 0
  else
    let s1 := s.setRegBit (.tileRegcnt c.t n) 31 false
    match s.tilePart c.t with
    | some p => if s.rebuilding p then s1 else s1.setReg (.tileReged c.t n) (s.edition c.t n + 1)
    | none => s1.setReg (.tileReged c.t n) (s.edition c.t n + 1)

/-- ED.SEAL (R217). -/
def execEdSeal (a : Issue) (f : EdArgs) (s : State) : Host.Outcome State Fault Refusal :=
  issue a (.edSeal a f) (edOpenOk f) (fun s => .done (sealBody (s.ctx a (opBytes 0x3C 3 2)) f s)) s

/-- ED.SET: the desk word becomes the slot's edition (R218, R219). -/
def setBody (c : Ctx) (a : EdArgs) (s : State) : State :=
  let k := a.slot.toNat
  if s.slotLive c.t k then s.editionFault c 0 k
  else
    let r := s.readMem c false (64 * a.desk.toNat) 4
    r.2.setReg (.tileEdslot c.t k) (BitVec.ofNat 32 (leNat r.1))

/-- ED.SET; it names no region (R217). -/
def execEdSet (a : Issue) (f : EdArgs) (s : State) : Host.Outcome State Fault Refusal :=
  issue a (.edSet a f) (f.slot != 0 && f.region == 0) (fun s => .done (setBody (s.ctx a (opBytes 0x3C 4 2)) f s)) s

end Sys2Proof.Machine
end

