-- ==== Sys2Proof/Machine/Tokens.lean ====
section
/-! DEFINITION. What happens inside the part between instructions: the end of a stall (R75, R101, R131, R147), the completion
of a stash request (R172), and flits and credits on the mesh (R148, R168, R424). -/

set_option Elab.async false

namespace Sys2Proof.Machine

/-- The meaning of a tile instruction; any other command leaves the part as it is. -/
def runTile (i : Instr) (s : State) : Host.Outcome State Fault Refusal :=
  match i with
  | .mxLdw a f => execMxLdw a f s
  | .mxLdwCrossRead a f => execMxLdwCrossRead a f s
  | .mxRun a f => execMxRun a f s
  | .crossReadRun a f => execCrossReadRun a f s
  | .tallyRun a f => execTallyRun a f s
  | .mxOut a f => execMxOut a f s
  | .mxSideStore a f => execMxSideStore a f s
  | .mxSideSend a f => execMxSideSend a f s
  | .mxSideFoldDesk a f => execMxSideFoldDesk a f s
  | .mxSideFoldStream a f => execMxSideFoldStream a f s
  | .mxPsend a f => execMxPsend a f s
  | .mxPadd a f => execMxPadd a f s
  | .add a f => execAdd a f s
  | .sub a f => execSub a f s
  | .mul a f => execMul a f s
  | .fma a f => execFma a f s
  | .fnma a f => execFnma a f s
  | .min a f => execMin a f s
  | .max a f => execMax a f s
  | .abs a f => execAbs a f s
  | .neg a f => execNeg a f s
  | .div a f => execDiv a f s
  | .eq a f => execEq a f s
  | .ne a f => execNe a f s
  | .lt a f => execLt a f s
  | .le a f => execLe a f s
  | .sel a f => execSel a f s
  | .iadd a f => execIadd a f s
  | .isub a f => execIsub a f s
  | .and a f => execAnd a f s
  | .or a f => execOr a f s
  | .xor a f => execXor a f s
  | .shl a f => execShl a f s
  | .shr a f => execShr a f s
  | .iota a f => execIota a f s
  | .fround a f => execFround a f s
  | .f2i a f => execF2i a f s
  | .i2f a f => execI2f a f s
  | .srnd a f => execSrnd a f s
  | .mxq a f => execMxq a f s
  | .exp a f => execExp a f s
  | .exp2 a f => execExp2 a f s
  | .log a f => execLog a f s
  | .log2 a f => execLog2 a f s
  | .rcp a f => execRcp a f s
  | .sqrt a f => execSqrt a f s
  | .rsqrt a f => execRsqrt a f s
  | .tanh a f => execTanh a f s
  | .sigm a f => execSigm a f s
  | .erf a f => execErf a f s
  | .sin a f => execSin a f s
  | .cos a f => execCos a f s
  | .mov a f => execMov a f s
  | .perm a f => execPerm a f s
  | .bcast a f => execBcast a f s
  | .sget a f => execSget a f s
  | .sput a f => execSput a f s
  | .emax a f => execEmax a f s
  | .emaxl a f => execEmaxl a f s
  | .gadd a f => execGadd a f s
  | .gsq a f => execGsq a f s
  | .gdot a f => execGdot a f s
  | .gfold a f => execGfold a f s
  | .grnd a f => execGrnd a f s
  | .gout a f => execGout a f s
  | .gin a f => execGin a f s
  | .fsum a f => execFsum a f s
  | .fsumsq a f => execFsumsq a f s
  | .fdot a f => execFdot a f s
  | .vxLdDesk a f => execVxLdDesk a f s
  | .vxLdStream a f => execVxLdStream a f s
  | .vxStDesk a f => execVxStDesk a f s
  | .vxStStream a f => execVxStStream a f s
  | .vxSideStore a f => execVxSideStore a f s
  | .vxSideSend a f => execVxSideSend a f s
  | .vxSideFoldDesk a f => execVxSideFoldDesk a f s
  | .vxSideFoldStream a f => execVxSideFoldStream a f s
  | .tadd a f => execTadd a f s
  | .tcvt a f => execTcvt a f s
  | .setvl a r v => execSetvl a r v s
  | .simm a r v => execSimm a r v s
  | .mmCopyToShelf a f => execMmCopyToShelf a f s
  | .mmCopyToDesk a f => execMmCopyToDesk a f s
  | .tfold a f => execTfold a f s
  | .mmSreqRead a f => execMmSreqRead a f s
  | .mmSreqWrite a f => execMmSreqWrite a f s
  | .mmWait a f => execMmWait a f s
  | .aput a f => execAput a f s
  | .aget a f => execAget a f s
  | .edTake a f => execEdTake a f s
  | .edTakeWait a f => execEdTakeWait a f s
  | .edDrop a f => execEdDrop a f s
  | .edOpen a f => execEdOpen a f s
  | .edSeal a f => execEdSeal a f s
  | .edSet a f => execEdSet a f s
  | .tsend a f => execTsend a f s
  | .trecv a f => execTrecv a f s
  | _ => .next s

/-- Runs instructions held behind a stall, in order, until one stalls again (R147). -/
def runHeld (t : Nat) : List Instr → State → Host.Outcome State Fault Refusal
  | [], s => .next s
  | i :: rest, s =>
    if (s.tile t).stalled then .next (s.setTile t { s.tile t with held := (s.tile t).held ++ i :: rest })
    else
      match runTile i s with
      | .next s1 => runHeld t rest s1
      | o => o

/-- A wait that goes on began where it first stalled; the retry or lane switch that it met stays its cause (R157, R162). -/
def Wait.goesOn (now w : Wait) : Wait :=
  if w.cause = 2 ∧ now.queue = w.queue then w else { now with cyc := w.cyc, len := w.len }

/-- A stalled tile tries again after `cycles` of waiting: what it has queued to send or enqueue goes on as far as credits
and slots reach, and then the stalled instruction runs. The slip grows by the stall (R147); a wait that goes on keeps its
start. -/
def execStallResume (t cycles : Nat) (s : State) : Host.Outcome State Fault Refusal :=
  if 2500 ≤ t then .fault .noSuchUnit
  else
    let x := s.tile t
    if !x.stalled then .next s
    else
      let c : Ctx := { t := t, cyc := x.wait.cyc, op := 0xFFFF }
      let w := { x.wait with len := x.wait.len + cycles }
      let s1 := s.setTile t { { x with slip := x.slip + cycles, wait := w }.fillQueue with unsent := [] }
      let d := s1.drainSends c x.unsent
      let s2 := d.1.setTile t { d.1.tile t with unsent := d.2 }
      let y := s2.tile t
      if !y.unsent.isEmpty || !y.unqueued.isEmpty || y.fetching then .next s2
      else
        let todo := (match y.stall with | some i => [i] | none => []) ++ y.held
        match runHeld t todo (s2.setTile t { y with stall := none, held := [] }) with
        | .next s3 =>
          let z := s3.tile t
          -- the same instruction still waits: its wait began where it first stalled
          .next (if z.stall.isSome && z.stall == x.stall then s3.setTile t { z with wait := z.wait.goesOn w } else s3)
        | o => o

/-- The front request of a tile's queue completes (R131, R172); an uncorrectable line of the active master bank or of a
frozen image recalls the step (R128). -/
def execStashRequestComplete (t : Nat) (s : State) : Host.Outcome State Fault Refusal :=
  if 2500 ≤ t then .fault .noSuchUnit
  else
    let front := (s.tile t).queue.head?
    let r := s.finishFront t
    match s.tilePart t, front with
    | some p, some q =>
      if r.2 && q.saddr.any (s.guarded p) then .next (r.1.recall p 2 (r.1.pnum p) false) else .next r.1
    | _, _ => .next r.1

/-- The oldest flit in flight to an inbound stream arrives in its buffer (R148, R168). -/
def execMeshFlitArrival (t st : Nat) (s : State) : Host.Outcome State Fault Refusal :=
  if 2500 ≤ t ∨ 16 ≤ st then .fault .noSuchUnit
  else
    match s.mesh.findIdx? fun e => e.1 == t && e.2.1 == st with
    | none => .next s
    | some i =>
      match s.mesh[i]? with
      | none => .next s
      | some e =>
        let x := s.tile t
        let cur := Bank.get (fun _ => []) x.inb st
        .next { s.setTile t { x with inb := Bank.set (fun _ => []) x.inb st (cur ++ [e.2.2]) } with mesh := s.mesh.eraseIdx i }

end Sys2Proof.Machine
end

