-- ==== Sys2Proof/Machine/Words.lean ====
section
/-! DEFINITION. The 64-bit instruction words of a timetable (R72, R97, R99, R132, R184, R217, R241): the command that a word
spells on a pipe, and the words that the part accepts. The scan of R187 (code 0x0005) is `wordGood`. -/

set_option Elab.async false

namespace Sys2Proof.Machine

/-- A field of a word as a bit vector. -/
def wfld (w hi lo : Nat) : BitVec (hi + 1 - lo) := BitVec.ofNat (hi + 1 - lo) (bits w hi lo)

/-- The common fields of a vector word (R97). -/
def wordVArgs (w : Nat) : VArgs :=
  { vd := wfld w 51 47, va := wfld w 46 42, vb := wfld w 41 37, bmode := wfld w 36 35, cnt := wfld w 34 30
    mask := wfld w 29 27, l0 := wfld w 26 21, g := wfld w 20 0 }

/-- Fields of MM.MOVE, MM.SREQ, MM.ASTASH, the edition instructions and MM.TXFER. -/
def wordMove (w : Nat) : MoveArgs := { clear := bit w 55, cnt := wfld w 54 47, shelf := wfld w 46 31, desk := wfld w 30 17 }
/-- Fields of MM.SREQ. -/
def wordSreq (w : Nat) : SreqArgs :=
  { shelf := bit w 55, laddr := wfld w 54 39, saddr := wfld w 38 8, lines := wfld w 7 2, ctr := wfld w 1 0 }
/-- Fields of MM.ASTASH. -/
def wordStash (w : Nat) : StashArgs :=
  { shelf := bit w 56, recNo := wfld w 55 44, lines := wfld w 43 36, laddr := wfld w 35 20 }
/-- Fields of an edition instruction. -/
def wordEd (w : Nat) : EdArgs := { region := wfld w 53 48, slot := wfld w 47 43, desk := wfld w 42 29 }
/-- Fields of MM.TXFER. -/
def wordTx (w : Nat) : TxArgs := { flits := wfld w 56 49, desk := wfld w 48 35, stream := wfld w 34 31, empty := bit w 30 }

/-! ### The matrix pipe (R72) -/

/-- MX.RUN. -/
def wordRun (a : Issue) (w : Nat) : Option Instr :=
  let f : RunArgs := { fmt := wfld w 57 54, grp := bit w 53, start := bit w 52, swap := bit w 51, rows := wfld w 49 44
                       src := wfld w 43 42, addr := wfld w 41 22, side := wfld w 19 0 }
  if bits w 21 20 ≠ 0 then none else if bit w 50 then some (.tallyRun a f) else some (.mxRun a f)

/-- MX.SIDE. -/
def wordSide (a : Issue) (w : Nat) : Option Instr :=
  let f : SideArgs := { grp := bit w 55, len := wfld w 54 49, addr := wfld w 35 16 }
  if bits w 48 36 ≠ 0 ∨ bits w 15 0 ≠ 0 then none
  else
    match bits w 57 56 with
    | 0 => some (.mxSideStore a f)
    | 1 => some (.mxSideSend a f)
    | 2 => some (.mxSideFoldDesk a f)
    | _ => some (.mxSideFoldStream a f)

/-- MX.PSEND and MX.PADD. -/
def wordPartial (a : Issue) (add : Bool) (w : Nat) : Option Instr :=
  let f : PartialArgs := { grp := bit w 53, start := bit w 52, rows := wfld w 51 46, stream := wfld w 19 16 }
  if bits w 57 54 ≠ 0 ∨ bits w 45 20 ≠ 0 ∨ bits w 15 0 ≠ 0 then none
  else if add then some (.mxPadd a f) else some (.mxPsend a f)

/-- A word of the matrix pipe. -/
def wordMatrix (a : Issue) (w : Nat) : Option Instr :=
  match bits w 63 58 with
  | 0x30 =>
    let f : LdwArgs := { fmt := wfld w 57 54, blk := wfld w 47 32, side := wfld w 31 10 }
    if bits w 52 48 ≠ 0 ∨ bits w 9 0 ≠ 0 then none else if bit w 53 then some (.mxLdwCrossRead a f) else some (.mxLdw a f)
  | 0x31 => wordRun a w
  | 0x32 =>
    if bits w 12 0 ≠ 0 then none
    else some (.mxOut a { fmt := wfld w 57 54, grp := bit w 53, fold := bit w 52, rows := wfld w 51 46, c := wfld w 45 38
                          dst := wfld w 37 36, addr := wfld w 35 16, q := wfld w 15 14, wide := bit w 13 })
  | 0x33 => wordSide a w
  | 0x34 => wordPartial a false w
  | 0x35 => wordPartial a true w
  | _ => none

/-! ### The vector pipe (R99) -/

/-- VX.FP. -/
def wordFp (a : Issue) (f : VArgs) : Nat → Option Instr
  | 0 => some (.add a f) | 1 => some (.sub a f) | 2 => some (.mul a f) | 3 => some (.fma a f) | 4 => some (.fnma a f)
  | 5 => some (.min a f) | 6 => some (.max a f) | 7 => some (.abs a f) | 8 => some (.neg a f) | 9 => some (.div a f)
  | _ => none

/-- VX.CMP. -/
def wordCmp (a : Issue) (f : VArgs) : Nat → Option Instr
  | 0 => some (.eq a f) | 1 => some (.ne a f) | 2 => some (.lt a f) | 3 => some (.le a f) | 4 => some (.sel a f)
  | _ => none

/-- VX.INT. -/
def wordInt (a : Issue) (f : VArgs) : Nat → Option Instr
  | 0 => some (.iadd a f) | 1 => some (.isub a f) | 2 => some (.and a f) | 3 => some (.or a f) | 4 => some (.xor a f)
  | 5 => some (.shl a f) | 6 => some (.shr a f) | 7 => some (.iota a f)
  | _ => none

/-- VX.CVT. -/
def wordCvt (a : Issue) (f : VArgs) : Nat → Option Instr
  | 0 => some (.fround a f) | 1 => some (.f2i a f) | 2 => some (.i2f a f) | 3 => some (.srnd a f) | 4 => some (.mxq a f)
  | _ => none

/-- VX.TR. -/
def wordTr (a : Issue) (f : VArgs) : Nat → Option Instr
  | 0 => some (.exp a f) | 1 => some (.exp2 a f) | 2 => some (.log a f) | 3 => some (.log2 a f) | 4 => some (.rcp a f)
  | 5 => some (.sqrt a f) | 6 => some (.rsqrt a f) | 7 => some (.tanh a f) | 8 => some (.sigm a f) | 9 => some (.erf a f)
  | 10 => some (.sin a f) | 11 => some (.cos a f)
  | _ => none

/-- VX.PERM. -/
def wordPerm (a : Issue) (f : VArgs) : Nat → Option Instr
  | 0 => some (.mov a f) | 1 => some (.perm a f) | 2 => some (.bcast a f) | 3 => some (.sget a f) | 4 => some (.sput a f)
  | _ => none

/-- VX.GRID. -/
def wordGrid (a : Issue) (f : VArgs) : Nat → Option Instr
  | 0 => some (.emax a f) | 1 => some (.emaxl a f) | 2 => some (.gadd a f) | 3 => some (.gsq a f) | 4 => some (.gdot a f)
  | 5 => some (.gfold a f) | 6 => some (.grnd a f) | 7 => some (.gout a f) | 8 => some (.gin a f)
  | _ => none

/-- VX.TREE, VX.LD, VX.ST, VX.SIDE and VX.TALLY. -/
def wordRest (a : Issue) (f : VArgs) : Nat → Nat → Option Instr
  | 0x27, 0 => some (.fsum a f) | 0x27, 1 => some (.fsumsq a f) | 0x27, 2 => some (.fdot a f)
  | 0x28, 0 => some (.vxLdDesk a f) | 0x28, 1 => some (.vxLdStream a f)
  | 0x29, 0 => some (.vxStDesk a f) | 0x29, 1 => some (.vxStStream a f)
  | 0x2A, 0 => some (.vxSideStore a f) | 0x2A, 1 => some (.vxSideSend a f)
  | 0x2A, 2 => some (.vxSideFoldDesk a f) | 0x2A, 3 => some (.vxSideFoldStream a f)
  | 0x2B, 0 => some (.tadd a f) | 0x2B, 1 => some (.tcvt a f)
  | _, _ => none

/-- VX.CTL: bits that no field of it names are 0 (DEDUCED from R97). -/
def wordCtl (a : Issue) (w : Nat) : Option Instr :=
  if bits w 51 41 ≠ 0 ∨ bits w 36 32 ≠ 0 then none
  else
    match bits w 57 52 with
    | 0 => some (.setvl a (wfld w 40 37) (wfld w 31 0))
    | 1 => some (.simm a (wfld w 40 37) (wfld w 31 0))
    | _ => none

/-- A word of the vector pipe. -/
def wordVector (a : Issue) (w : Nat) : Option Instr :=
  let f := wordVArgs w
  let fn := bits w 57 52
  match bits w 63 58 with
  | 0x20 => wordFp a f fn
  | 0x21 => wordCmp a f fn
  | 0x22 => wordInt a f fn
  | 0x23 => wordCvt a f fn
  | 0x24 => wordTr a f fn
  | 0x25 => wordPerm a f fn
  | 0x26 => wordGrid a f fn
  | 0x2C => wordCtl a w
  | m => wordRest a f m fn

/-! ### The memory pipe (R132, R217, R241) -/

/-- The edition instructions. -/
def wordEdition (a : Issue) (w : Nat) : Option Instr :=
  let f := wordEd w
  if bits w 28 0 ≠ 0 then none
  else
    match bits w 57 55, bit w 54 with
    | 0, false => some (.edTake a f)
    | 0, true => some (.edTakeWait a f)
    | 1, false => some (.edDrop a f)
    | 2, false => some (.edOpen a f)
    | 3, false => some (.edSeal a f)
    | 4, false => some (.edSet a f)
    | _, _ => none

/-- A word of the memory pipe. -/
def wordMemory (a : Issue) (w : Nat) : Option Instr :=
  match bits w 63 58 with
  | 0x38 =>
    if bits w 16 0 ≠ 0 then none
    else
      match bits w 57 56 with
      | 0 => some (.mmCopyToShelf a (wordMove w))
      | 1 => some (.mmCopyToDesk a (wordMove w))
      | 2 => some (.tfold a (wordMove w))
      | _ => none
  | 0x39 =>
    match bits w 57 56 with
    | 0 => some (.mmSreqRead a (wordSreq w))
    | 1 => some (.mmSreqWrite a (wordSreq w))
    | _ => none
  | 0x3A =>
    if bits w 54 16 ≠ 0 then none
    else some (.mmWait a { ctr := wfld w 57 56, consume := bit w 55, n := wfld w 15 0 })
  | 0x3B =>
    if bits w 19 0 ≠ 0 then none
    else if bit w 57 then some (.aget a (wordStash w)) else some (.aput a (wordStash w))
  | 0x3C => wordEdition a w
  | 0x3D =>
    if bits w 29 0 ≠ 0 then none
    else if bit w 57 then some (.trecv a (wordTx w)) else some (.tsend a (wordTx w))
  | _ => none

/-- The command that a word spells on the pipe its entry names (R184); none: an undefined opcode, function or kind, or a
reserved bit. -/
def wordInstr (a : Issue) (pipe w : Nat) : Option Instr :=
  match pipe with
  | 0 => wordMatrix a w
  | 1 => wordVector a w
  | _ => wordMemory a w

/-! ### Acceptance -/

/-- Whether the part accepts a tile instruction's fields (code 0x0005 of R187 otherwise); false for a command that is no
tile instruction. -/
def wordOk : Instr → Bool
  | .mxLdw _ f | .mxLdwCrossRead _ f => fmtCode f.fmt
  | .mxRun _ f | .crossReadRun _ f | .tallyRun _ f => fmtCode f.fmt && srcCode f
  | .mxOut _ f => outOk f
  | .mxSideStore _ _ | .mxSideSend _ _ | .mxSideFoldDesk _ _ | .mxSideFoldStream _ _ => true
  | .mxPsend _ f => !f.start
  | .mxPadd _ _ => true
  | .add _ f | .sub _ f | .mul _ f | .fma _ f | .fnma _ f | .min _ f | .max _ f | .div _ f | .fdot _ f => fpOk f
  | .abs _ f | .neg _ f | .mov _ f | .fsum _ f | .fsumsq _ f => unOk f
  | .eq _ f | .ne _ f | .lt _ f | .le _ f => cmpOk f
  | .sel _ f => runsOk f true true true
  | .iadd _ f | .isub _ f | .and _ f | .or _ f | .xor _ f | .shl _ f | .shr _ f => intOk f
  | .iota _ f => runsOk f true false false && decide (vSpec f < 65536)
  | .fround _ f => runsOk f true true false && cvtCode (bits (vSpec f) 20 18)
  | .f2i _ f | .i2f _ f => runsOk f true true false
  | .srnd _ f => runsOk f true true true
  | .mxq _ f => runsOk f false true false
  | .exp _ f | .exp2 _ f | .log _ f | .log2 _ f | .rcp _ f | .sqrt _ f | .rsqrt _ f | .tanh _ f | .sigm _ f | .erf _ f
  | .sin _ f | .cos _ f => trOk f
  | .perm _ f => runsOk f true true true && f.g == 0
  | .bcast _ f => runsOk f true true false && decide (vSpec f < 64)
  | .sget _ f => runsOk f false true false && scalarsOk f f.vd.toNat && decide (vSpec f < 64)
  | .sput _ f => runsOk f true false false && scalarsOk f f.va.toNat && decide (vSpec f < 64)
  | .emax _ f | .emaxl _ f | .gadd _ f | .gsq _ f => runsOk f false true false && gridBitsOk f
  | .gdot _ f => runsOk f false true true && gridBitsOk f
  | .gfold _ f => f.cnt == 0 && runsOk f false false false && gridBitsOk f
  | .grnd _ f => runsOk f true false false && gridBitsOk f
  | .gout _ f | .gin _ f => runsOk f false false false && gridBitsOk f
  | .vxLdDesk _ f => ldstOk f false false
  | .vxLdStream _ f => ldstOk f false true
  | .vxStDesk _ f => ldstOk f true false
  | .vxStStream _ f => ldstOk f true true
  | .vxSideStore _ f | .vxSideSend _ f | .vxSideFoldDesk _ f | .vxSideFoldStream _ f => sideOk f
  | .tadd _ f => bits (vSpec f) 20 18 == 0 && runsOk f false true false
  | .tcvt _ f => bits (vSpec f) 20 19 == 0 && runsOk f true false false
  | .setvl _ r imm => decide (imm.toNat ≤ 64) && r == 0
  | .simm _ _ _ => true
  | .mmCopyToShelf _ _ | .mmCopyToDesk _ _ | .tfold _ _ | .mmSreqRead _ _ | .mmSreqWrite _ _ | .mmWait _ _ | .aput _ _
  | .aget _ _ | .tsend _ _ | .trecv _ _ => true
  | .edTake _ f | .edTakeWait _ f | .edDrop _ f => edOk f
  | .edOpen _ f | .edSeal _ f => edOpenOk f
  | .edSet _ f => f.slot != 0 && f.region == 0
  | _ => false

/-- Whether the part accepts a word on a pipe. -/
def wordGood (pipe w : Nat) : Bool :=
  match wordInstr default pipe w with
  | some i => wordOk i
  | none => false

end Sys2Proof.Machine
end

