-- ==== Sys2Proof/Machine/Image.lean ====
section
/-! DEFINITION. The lesson image: its header, section table and sections as data (R179 to R185, R213, R429), and the
check of its form (code 0x0001 of R187). -/

set_option Elab.async false

namespace Sys2Proof.Machine

/-! ### Rejection places (R187) -/

/-- The first offending place of a rejection; a field that does not apply holds all ones. -/
structure Place where
  part   : Nat := 0xFFFF
  row    : Nat := 0xFF
  col    : Nat := 0xFF
  period : Nat := 0xFFFFFFFF
  entry  : Nat := 0xFFFFFFFF
  deriving DecidableEq, Repr

/-- A rejection: its code and its place. -/
abbrev Reject := Nat × Place

/-- A rejection as the results of a reply (R187, R301). -/
def rejectBytes (r : Reject) : Bytes :=
  toLE 2 r.1 ++ toLE 2 r.2.part ++ toLE 1 r.2.row ++ toLE 1 r.2.col ++ toLE 4 r.2.period ++ toLE 4 r.2.entry

/-- A check that fails with a rejection. -/
def unless_ (ok : Bool) (r : Reject) : Option Reject := if ok then none else some r

/-- A place as a number: by logical part, grid tile, period index and entry index; a place without one of them comes before the places
that have it (R187). -/
def Place.rank (x : Place) : Nat :=
  ((((x.part + 1) % 2 ^ 16 * 2 ^ 8 + (x.row + 1) % 2 ^ 8) * 2 ^ 8 + (x.col + 1) % 2 ^ 8) * 2 ^ 32 + (x.period + 1) % 2 ^ 32) * 2 ^ 32
    + (x.entry + 1) % 2 ^ 32

/-- Of two rejections with one code, the one whose place comes first. -/
def firstPlace (a b : Option Reject) : Option Reject :=
  match a, b with
  | some x, some y => if y.2.rank < x.2.rank then b else a
  | none, _ => b
  | _, none => a

/-- The first failing check over a list. -/
def failFirst {α : Type} (xs : List α) (f : α → Option Reject) : Option Reject := xs.findSome? f

/-! ### Bytes -/

/-- The whole n-byte entries of a string, in order. -/
def chunks (n : Nat) : Nat → Bytes → List Bytes
  | 0, _ => []
  | k + 1, b => if b.length < n ∨ n = 0 then [] else b.take n :: chunks n k (b.drop n)

/-- The n-byte entries of a string. -/
def entries (n : Nat) (b : Bytes) : List Bytes := chunks n (b.length / n) b

/-- Whether bytes o to o + n − 1 are 0. -/
def zeroAt (b : Bytes) (o n : Nat) : Bool := ((b.drop o).take n).all (· == 0)

/-! ### Header and sections (R179, R180) -/

/-- A section: type, logical part (0xFFFF for a common section), offset, bytes. -/
structure Section where
  type : Nat
  part : Nat
  off  : Nat
  data : Bytes
  deriving DecidableEq, Repr

/-- Whether the 256-byte header is well formed. -/
def headerOk (b : Bytes) : Bool :=
  decide (256 ≤ b.length) && b.take 8 == [0x42, 0x56, 0x32, 0x4C, 0x45, 0x53, 0x53, 0x4E] && field b 8 2 == 1
    && decide (field b 10 2 < 8) && field b 12 2 == 48 && (field b 14 2 == 48 || field b 14 2 == 44)
    && decide (1 ≤ field b 16 4) && decide (field b 16 4 ≤ 8192) && decide (1 ≤ field b 20 4)
    && decide (field b 20 4 ≤ 2 ^ 24) && field b 24 8 == b.length && zeroAt b 136 120
    && decide (256 ≤ field b 132 4) && decide (field b 132 4 + 16 * field b 128 4 ≤ b.length)

/-- The sections that the section table names. -/
def sectionsOf (b : Bytes) : List Section :=
  (entries 16 (cutAt b (field b 132 4) (16 * field b 128 4))).map fun e =>
    { type := field e 0 2, part := field e 2 2, off := field e 4 6, data := cutAt b (field e 4 6) (field e 10 6) }

/-- Whether two byte ranges overlap; an empty range overlaps nothing. -/
def overlap (a n c m : Nat) : Bool := decide (0 < n) && decide (0 < m) && decide (a < c + m) && decide (c < a + n)

/-- Whether every section is aligned, inside the image, of a known type and scope, appears once, and is clear of the header,
the section table and every other section; and none is missing. -/
def sectionsOk (b : Bytes) : Bool :=
  let es := entries 16 (cutAt b (field b 132 4) (16 * field b 128 4))
  let parts := field b 16 4
  let at_ := fun (e : Bytes) => (field e 4 6, field e 10 6)
  let tab := (field b 132 4, 16 * field b 128 4)
  es.all (fun e =>
      let t := field e 0 2
      let p := field e 2 2
      let x := at_ e
      decide (1 ≤ t) && decide (t ≤ 8) && (if t ≤ 3 then p == 0xFFFF else decide (p < parts)) && x.1 % 64 == 0
        && decide (x.1 + x.2 ≤ b.length) && !overlap x.1 x.2 0 256 && !overlap x.1 x.2 tab.1 tab.2)
    && decide (es.Pairwise fun c d =>
      (field c 0 4 ≠ field d 0 4) ∧ overlap (at_ c).1 (at_ c).2 (at_ d).1 (at_ d).2 = false)
    && es.length == 3 + 5 * parts

/-- The bytes of a section. -/
def sectionAt (ss : List Section) (type part : Nat) : Bytes :=
  match ss.find? fun x => x.type == type && x.part == part with
  | some x => x.data
  | none => []

/-! ### Common sections -/

/-- The class table: LENGTH, RECESS, WORK (R180). -/
def classesOf (b : Bytes) : List (Nat × Nat × Nat) := (entries 6 b).map fun e => (field e 0 2, field e 2 2, field e 4 2)

/-- The step plan: class and flags of each period index (R180). -/
def planOf (b : Bytes) : List (Nat × BitVec 8) := (entries 4 b).map fun e => (field e 0 1, BitVec.ofNat 8 (field e 1 1))

/-- Whether a step plan divides the step as R213 says. -/
def planForm (ps : List (Nat × BitVec 8)) : Bool :=
  let n := ps.length
  let at_ := fun (k : Nat) => (List.range n).filter fun i => match ps[i]? with | some x => x.2.toNat.testBit k | none => false
  match at_ 0, at_ 1, at_ 2 with
  | u :: _, [b], [c] => decide (4 ≤ n) && (at_ 0) == (List.range n).drop u && decide (b ≤ u) && decide (2 ≤ c) && decide (c < u)
  | _, _, _ => false

/-- ceil(log2 N), 0 for N = 0 (R58, R181). -/
def clog2 (n : Nat) : Nat := if n ≤ 1 then 0 else (n - 1).log2 + 1

/-- A tensor table entry (R181). -/
def tensorOf (e : Bytes) : TensorEnt :=
  { n := field e 0 2, watch := field e 2 2, kind := field e 4 1, fmt := field e 5 1, flags := BitVec.ofNat 8 (field e 6 1)
    lag := field e 7 1, count := field e 8 8, rows := field e 16 8, cols := field e 24 8
    edition := BitVec.ofNat 32 (field e 32 4), g0 := BitVec.ofNat 8 (field e 36 1), h := field e 37 1, k := field e 38 1
    slot := field e 39 1, maxN := field e 40 8, grad := field e 48 2, saddr := field e 52 4 }

/-- Whether a tensor table entry is well formed (R181); its fields outside their stated ranges count as malformed
(DEDUCED). -/
def tensorOk (b : Bytes) : Bool :=
  let e := tensorOf b
  decide (e.kind ≤ 5) && (decide (e.fmt ≤ 4) || e.fmt == 8) && decide (e.flags.toNat < 8) && zeroAt b 50 2 && zeroAt b 56 8
    && decide (e.count < 2 ^ 48) && e.rows * e.cols == e.count && e.k == clog2 e.maxN
    && (decide (e.watch < 4096) || e.watch == 0xFFFF) && (e.lag == 0 || e.flags.toNat.testBit 0)
    && (e.kind != 3 || (decide (-110 ≤ signed 8 e.g0.toNat) && decide (e.h ≤ 32) && decide (e.k ≤ 40)))
    && (e.kind != 5 || (decide (e.slot < 64) && e.saddr % 4 == 0))

/-- Whether the common sections are well formed. -/
def commonBad (ss : List Section) (periods : Nat) : Option Reject :=
  let cls := sectionAt ss 1 0xFFFF
  let plan := sectionAt ss 2 0xFFFF
  let ten := sectionAt ss 3 0xFFFF
  let ps := entries 4 plan
  unless_ (cls.length == 96 && plan.length == 4 * periods && ten.length % 64 == 0) (1, {})
    <|> failFirst (List.range ps.length) (fun i =>
      let e := (ps[i]?).getD []
      unless_ (decide (field e 1 1 < 8) && zeroAt e 2 2) (1, { period := i }))
    <|> unless_ (planForm (planOf plan)) (1, {})
    <|> failFirst (entries 64 ten) (fun e => unless_ (tensorOk e) (1, {}))
    <|> unless_ (decide ((entries 64 ten).Pairwise fun a b => field a 0 2 ≠ field b 0 2)) (1, {})

/-! ### The timetable (R180, R184) -/

/-- A timetable entry of a logical part: its grid tile, period index and entry index, and its 16 bytes. -/
structure TimeEnt where
  part   : Nat
  row    : Nat
  col    : Nat
  period : Nat
  entry  : Nat
  raw    : Bytes
  deriving DecidableEq, Repr

/-- Cycle offset, pipe and word of a timetable entry. -/
def TimeEnt.cyc (e : TimeEnt) : Nat := field e.raw 0 3
/-- Pipe. -/
def TimeEnt.pipe (e : TimeEnt) : Nat := field e.raw 4 1
/-- Instruction word. -/
def TimeEnt.word (e : TimeEnt) : Nat := field e.raw 8 8
/-- The place of a timetable entry. -/
def TimeEnt.place (e : TimeEnt) : Place := { part := e.part, row := e.row, col := e.col, period := e.period, entry := e.entry }

/-- The index entries of a part's period index: grid tile, period, first entry, count. -/
def indexOf (ss : List Section) (q cols periods : Nat) : List (Nat × Nat × Nat × Nat × Nat) :=
  let es := entries 8 (sectionAt ss 4 q)
  (List.range es.length).zip es |>.map fun x =>
    (x.1 / periods / cols, x.1 / periods % cols, x.1 % periods, field x.2 0 4, field x.2 4 4)

/-- The timetable entries that an index entry names. -/
def timesAt (raw : Bytes) (q : Nat) (x : Nat × Nat × Nat × Nat × Nat) : List TimeEnt :=
  let es := entries 16 (cutAt raw (16 * x.2.2.2.1) (16 * x.2.2.2.2))
  ((List.range es.length).zip es).map fun y =>
    { part := q, row := x.1, col := x.2.1, period := x.2.2.1, entry := y.1, raw := y.2 }

/-- The timetable entries of a part in the order of R187. -/
def timesOf (ss : List Section) (q cols periods : Nat) : List TimeEnt :=
  (indexOf ss q cols periods).flatMap (timesAt (sectionAt ss 5 q) q)

/-- Whether an entry may follow another in its period: sorted by offset, then by pipe; one memory instruction a cycle. -/
def inOrder (a b : TimeEnt) : Bool :=
  decide (a.cyc < b.cyc) || (a.cyc == b.cyc && (decide (a.pipe < b.pipe) || (a.pipe == b.pipe && a.pipe != 2)))

/-- The first malformed entry of a tile's period: a byte that must be 0, a pipe above 2, or an entry out of order. -/
def timesBad : List TimeEnt → Option Reject
  | [] => none
  | e :: es =>
    unless_ (decide (e.pipe ≤ 2) && zeroAt e.raw 3 1 && zeroAt e.raw 5 3) (1, e.place)
      <|> (match es with
        | f :: _ => unless_ (inOrder e f) (1, f.place)
        | [] => none)
      <|> timesBad es

/-- What is malformed first in a part's period index and timetable, tile by tile and period by period (R184, R187). -/
def timetableBad (ss : List Section) (q cols periods : Nat) : Option Reject :=
  let tt := sectionAt ss 5 q
  unless_ ((sectionAt ss 4 q).length == 48 * cols * periods * 8 && tt.length % 16 == 0) (1, { part := q })
    <|> failFirst (indexOf ss q cols periods) (fun x =>
      unless_ (x.2.2.2.2 == 0 || decide (16 * (x.2.2.2.1 + x.2.2.2.2) ≤ tt.length))
        (1, { part := q, row := x.1, col := x.2.1, period := x.2.2.1 })
      <|> timesBad (timesAt tt q x))

/-! ### Bindings (R182, R429) -/

/-- The three arrays of a bindings section, 16 bytes an entry. -/
def bindArrays (b : Bytes) : List Bytes × List Bytes × List Bytes :=
  let es := entries 16 (b.drop 16)
  let nq := field b 0 4
  let ns := field b 4 4
  (es.take nq, (es.drop nq).take ns, es.drop (nq + ns))

/-- Whether a bindings section is well formed: its length and the bytes that every queue and slot binding keeps 0 (R182). A port class,
a direction, a far dimension or a stream binding outside its rule is the loader's to reject (0x0018, R182, R429; log 115). -/
def bindingsOk (b : Bytes) : Bool :=
  let a := bindArrays b
  decide (16 ≤ b.length) && zeroAt b 12 4 && b.length == 16 + 16 * (field b 0 4 + field b 4 4 + field b 8 4)
    && a.1.all (fun e => zeroAt e 12 4) && a.2.1.all (fun e => zeroAt e 11 5)

/-- A queue binding. -/
def queueBindOf (e : Bytes) : QueueBind :=
  { idx := field e 0 2, far := field e 2 1 == 1, q := field e 3 1, peer := field e 4 4, row := field e 8 1, col := field e 9 1
    stream := field e 10 1, fmt := field e 11 1 }

/-- A slot binding. -/
def slotBindOf (e : Bytes) : SlotBind :=
  { idx := field e 0 2, recv := field e 2 1 == 1, slot := field e 3 1, period := field e 4 4, quantum := field e 8 2
    flits := field e 10 1 }

/-- A stream binding. -/
def streamBindOf (e : Bytes) : StreamBind :=
  { row := field e 0 1, col := field e 1 1, out := field e 2 1, toQueue := field e 3 1 == 1, dRow := field e 4 1
    dCol := field e 5 1, bind := field e 4 2, dStream := field e 6 1 }

/-! ### The memory plan (R183) -/

/-- The arrays of a memory plan section: tiles, regions, placements, stash pages, watch codes. -/
def planArrays (b : Bytes) : List Bytes × List Bytes × List Bytes × List Bytes × List Bytes :=
  let n := fun (k : Nat) => field b (4 * k) 4
  let o1 := 64 + 16 * n 0
  let o2 := o1 + 8 * n 1
  let o3 := o2 + 48 * n 2
  let o4 := o3 + 8 * n 3
  (entries 16 (cutAt b 64 (16 * n 0)), entries 8 (cutAt b o1 (8 * n 1)), entries 48 (cutAt b o2 (48 * n 2)),
    entries 8 (cutAt b o3 (8 * n 3)), entries 8 (cutAt b o4 (8 * n 4)))

/-- Whether a memory plan section is well formed. -/
def memPlanOk (b : Bytes) : Bool :=
  let a := planArrays b
  decide (64 ≤ b.length) && zeroAt b 26 2 && zeroAt b 44 20
    && b.length == 64 + 16 * field b 0 4 + 8 * field b 4 4 + 48 * field b 8 4 + 8 * field b 12 4 + 8 * field b 16 4
    && a.1.all (fun e => zeroAt e 2 2) && a.2.1.all (fun e => decide (field e 2 1 < 64) && decide (field e 3 1 < 2))
    && a.2.2.1.all (fun e => zeroAt e 7 1)
    && a.2.2.2.1.all (fun e => decide (field e 0 4 < 2 ^ 21) && decide (field e 4 1 < 2) && zeroAt e 5 3)

/-- The tile entries of a memory plan: one per grid tile, in row-major order (R183). -/
def tilesBad (cols q : Nat) (es : List Bytes) : Option Reject :=
  unless_ (es.length == 48 * cols) (1, { part := q })
    <|> failFirst es.zipIdx fun e => unless_ (field e.1 0 1 == e.2 / cols && field e.1 1 1 == e.2 % cols)
      (1, { part := q, row := e.2 / cols, col := e.2 % cols })

/-- A region entry. -/
def regionOf (e : Bytes) : RegionEnt :=
  { row := field e 0 1, col := field e 1 1, region := field e 2 1, frozen := field e 3 1 == 1, base := field e 4 2
    size := field e 6 2 }

/-- A placement entry. -/
def placementOf (e : Bytes) : Placement :=
  { tensor := field e 0 2, role := field e 2 1, mem := field e 3 1, row := field e 4 1, col := field e 5 1
    region := field e 6 1, row0 := field e 8 8, nrows := field e 16 8, col0 := field e 24 8, ncols := field e 32 8
    addr := field e 40 8 }

/-- A tile entry. -/
def tilePlanOf (e : Bytes) : TilePlan :=
  { row := field e 0 1, col := field e 1 1, aplan := BitVec.ofNat 32 (field e 4 4), spillB := BitVec.ofNat 32 (field e 8 4)
    spillS := BitVec.ofNat 32 (field e 12 4) }

/-- A watch code entry. -/
def watchCodeOf (e : Bytes) : WatchCode :=
  { watch := field e 0 2, row := field e 2 1, col := field e 3 1, addr := field e 4 4 }

/-! ### The image -/

/-- The stash pages of a memory plan section: number and writable. -/
def planPages (b : Bytes) : List (Nat × Bool) := (planArrays b).2.2.2.1.map fun e => (field e 0 4, field e 4 1 == 1)

/-- The stash plan of a memory plan section. -/
def stashPlanOf (b : Bytes) : StashPlan := { pages := planPages b, bank := field b 28 4, size := field b 32 4 }

/-- Code 0x0001: the image's header, section table, common sections and the sections of every part (R179 to R184), each part's first
offending place first (R187). -/
def formBad (b : Bytes) : Option Reject :=
  let cols := field b 14 2
  let parts := field b 16 4
  let periods := field b 20 4
  unless_ (headerOk b) (1, {})
    <|> unless_ (sectionsOk b) (1, {})
    <|> commonBad (sectionsOf b) periods
    <|> failFirst (List.range parts) (fun q =>
      unless_ (bindingsOk (sectionAt (sectionsOf b) 6 q) && memPlanOk (sectionAt (sectionsOf b) 7 q)) (1, { part := q })
        <|> firstPlace (timetableBad (sectionsOf b) q cols periods)
          (tilesBad cols q (planArrays (sectionAt (sectionsOf b) 7 q)).1))

/-- The lesson digest: SHA-384 over the image with bytes 32 to 79 read as zero (R185). -/
def imageDigest (b : Bytes) : Bytes := sha384 (b.take 32 ++ List.replicate 48 0 ++ b.drop 80)

/-- Every timetable entry of the image, in the order of R187. -/
def imageTimes (b : Bytes) : List TimeEnt :=
  (List.range (field b 16 4)).flatMap fun q => timesOf (sectionsOf b) q (field b 14 2) (field b 20 4)

/-- The derivation periods: update periods that contain an SRND (R223). -/
def derivOf (plan : List (Nat × BitVec 8)) (ts : List TimeEnt) : List Nat :=
  (List.range plan.length).filter fun i =>
    (match plan[i]? with | some x => x.2.toNat.testBit 0 | none => false)
      && ts.any fun e => e.period == i && e.pipe == 1 && bits e.word 63 52 == 0x23 * 64 + 3

/-- The lesson of an image with the sections of logical part q. -/
def lessonOf (b : Bytes) (q : Nat) (standby : Bool) : Lesson :=
  let ss := sectionsOf b
  let plan := planOf (sectionAt ss 2 0xFFFF)
  let binds := bindArrays (sectionAt ss 6 q)
  let mp := sectionAt ss 7 q
  let pa := planArrays mp
  { flags := BitVec.ofNat 16 (field b 10 2), cols := field b 14 2, parts := field b 16 4, periods := field b 20 4
    digest := cutAt b 32 48, pdigest := cutAt b 80 48
    classes := classesOf (sectionAt ss 1 0xFFFF), plan := plan, deriv := derivOf plan (imageTimes b)
    tensors := (entries 64 (sectionAt ss 3 0xFFFF)).map tensorOf, me := q, standby := standby
    queues := binds.1.map queueBindOf, slots := binds.2.1.map slotBindOf, streams := binds.2.2.map streamBindOf
    tilePlans := pa.1.map tilePlanOf, regions := pa.2.1.map regionOf, places := pa.2.2.1.map placementOf
    pages := planPages mp
    codes := pa.2.2.2.2.map watchCodeOf, admBase := field mp 20 4, admLen := field mp 24 2
    bank := BitVec.ofNat 32 (field mp 28 4), bankSize := BitVec.ofNat 32 (field mp 32 4)
    mbase := BitVec.ofNat 32 (field mp 36 4), mstage := BitVec.ofNat 32 (field mp 40 4)
    init := sectionAt ss 8 q
    stashPlans := (List.range (field b 16 4)).map fun k => stashPlanOf (sectionAt ss 7 k) }

end Sys2Proof.Machine
end

