-- ==== Sys2Proof/Machine/Pigeon.lean ====
section
/-! DEFINITION. Shared operations of pigeonholes and doorbells (R304 to R308) and vectors (R295, R350). -/

set_option Elab.async false

namespace Sys2Proof.Machine

/-! ### Doorbells, vectors -/

/-- A doorbell that the store does not list. -/
def noBell : Nat → Bool := fun _ => false

/-- The doorbell of a queue (R304). -/
def State.doorbell (s : State) (q : Nat) : Bool := Bank.get noBell s.bells q

/-- The part with a queue's doorbell set or cleared. -/
def State.setDoorbell (s : State) (q : Nat) (b : Bool) : State := { s with bells := Bank.set noBell s.bells q b }

/-- Whether partition p is in its eraser pass. -/
def State.erasing (s : State) (p : Bool) : Bool := s.regBit (.secPstat p) 30

/-- Whether host port h is out of reset and reachable (R350, R374, R401). -/
def State.hostUp (s : State) (h : Bool) : Bool := if h then s.pins.hostB else s.pins.hostA

/-- Raises a vector of a host port; none is raised during the eraser pass of its partition (R350). -/
def State.raise (s : State) (h : Bool) (v : Nat) : State :=
  if s.erasing h || !s.hostUp h then s else s.emit (.vector h v)

/-! ### Pigeonholes -/

/-- The seat port on which a peer's pigeonhole message arrived and its tag. -/
def noPeer : Nat → Option (Nat × BitVec 16) := fun _ => none

/-- The reply frame to a peer's message (R307). Frames of kind 6 carry no lesson's digest, period or attempt. -/
def State.peerReply (s : State) (port g : Nat) (tag : BitVec 16) (outcome : Nat) : State :=
  let body := padTo 256 ([2] ++ toLE 1 g ++ toLE 2 tag.toNat ++ toLE 1 outcome)
  s.sendFrame port ⟨0, 0, 6, 7938, 0, 0, BitVec.ofNat 5 s.seat, body⟩

/-- Ends the message of pigeonhole g toward a peer that sent it (R307). -/
def State.answerPeer (s : State) (g outcome : Nat) : State :=
  match Bank.get noPeer s.peerMsg g with
  | some x => ({ s with peerMsg := Bank.set noPeer s.peerMsg g none }).peerReply x.1 g x.2 outcome
  | none => s

/-- TIMEOUT with a cause: GO and the claim end (R308). -/
def State.pigeonTimeout (s : State) (g cause : Nat) : State :=
  let w := setFld (setFld (setFld (s.reg (.pigeonStat g)) 31 30 0) 29 29 1) 26 24 cause
  (s.setReg (.pigeonStat g) w).answerPeer g cause

/-- Whether a message of pigeonhole g waits for TAKE. -/
def State.pigeonGo (s : State) (g : Nat) : Bool := s.regBit (.pigeonStat g) 31

/-- The state of a pigeonhole's receiver at GO: the TOCAUSE of R308, or 0 for one that is alive. -/
def State.receiverCause (s : State) (g : Nat) : Nat :=
  let k := s.regFld (.pigeonOwn g) 30 27
  let mon := fun i : Nat =>
    match s.regFld .fwMonstat (2 * i + 1) (2 * i) with
    | 3 => 1
    | 2 => 0
    | _ => 2
  let host := fun h : Bool =>
    if s.regBit (.secPstat h) 28 then 1
    else if s.cmds.any (fun c => decide (c.opcode = 0x0110) && c.part == some h) then 2
    else if (if h then s.pins.asleepB else s.pins.asleepA) then 3
    else 0
  match k with
  | 0 => host false
  | 1 => host true
  | 2 => if s.fwPaused then 2 else 0
  | 3 => mon (s.regFld (.pigeonOwn g) 26 25)
  | 4 => mon 4
  | 5 => mon 5
  | _ => 0

/-- GO of pigeonhole g: a receiver that is dead, in reset or asleep times it out at once (R308); else the doorbell of queue
8000 + g is set and a host receiver gets vector 255 (R305). -/
def State.pigeonSendNow (s : State) (g : Nat) : State :=
  let s1 := s.setRegBit (.pigeonStat g) 31 true
  match s1.receiverCause g with
  | 0 =>
    let s2 := s1.setDoorbell (8000 + g) true
    match s2.regFld (.pigeonOwn g) 30 27 with
    | 0 => s2.raise false 255
    | 1 => s2.raise true 255
    | _ => s2
  | c => s1.pigeonTimeout g c

end Sys2Proof.Machine
end

