-- ==== Sys2Proof/Machine/Staged.lean ====
section
/-! DEFINITION. Staged sets: their application and refusal (R17, R18, R139, R166, R204, R291, R292, R310, R344, R345). -/

set_option Elab.async false

namespace Sys2Proof.Machine

/-- A register with nothing staged. -/
def noStage : Nat → Option Word := fun _ => none

/-- What is staged in the addresses lo to hi − 1. -/
def State.stagedIn (s : State) (lo hi : Nat) : List (Nat × Option Word) :=
  s.staged.filter fun e => decide (lo ≤ e.1) && decide (e.1 < hi)

/-- The part with the staging copy of a set discarded (R17). -/
def State.discard (s : State) (lo hi : Nat) : State := { s with staged := Bank.clear s.staged lo hi }

/-- The ST mask of the word at an office address. -/
def stMask (a : Nat) : Word :=
  match regAt a with
  | some r => r.info.st
  | none => 0

/-- The value that a register takes when its set is applied. -/
def State.applied (s : State) (a : Nat) : Word :=
  match Bank.get noStage s.staged a with
  | some w => (s.word a &&& ~~~stMask a) ||| (w &&& stMask a)
  | none => s.word a

/-- Applies everything staged in a range, and empties its staging copy (R17). -/
def State.applyRange (s : State) (lo hi : Nat) : State :=
  let s1 := (s.stagedIn lo hi).foldl (fun (acc : State) e => acc.setWord e.1 (s.applied e.1)) s
  s1.discard lo hi

/-- The writer of a set's latest staged write, coded as in R291, keyed by its commit register. -/
def noWriter : Nat → BitVec 2 := fun _ => 0

/-! ### The BELL set -/

/-- Whether a class's values are valid (R146). -/
def classValid (len recess work : Nat) : Bool :=
  decide (Nat.max 5 ((len + 49) / 50) ≤ recess) && decide (recess + work ≤ len)

/-- Whether the lesson of partition p runs: its bells run, or it recalls, pauses or is pre-empted. -/
def State.lessonRuns (s : State) (p : Bool) : Bool :=
  let x := s.part p
  s.running p || x.rcl.isSome || x.fwStop || x.saving.isSome || s.regBit (.secPstat p) 29

/-- The check of R166 over the values that an application would give: valid classes, and every class of the running lesson's step
plan in
use. -/
def State.bellSetOk (s : State) (p : Bool) : Bool :=
  let used : List Nat := match if s.lessonRuns p then s.lesson p else none with
    | some l => l.plan.map fun x => x.1
    | none => []
  (List.range 16).all fun n =>
    let len := fld (s.applied (Reg.bellPeriod p n).addr) 15 0
    let rec_ := fld (s.applied (Reg.bellRecess p n).addr) 15 0
    if len = 0 then !used.contains n else classValid len rec_ (s.regFld (.bellWork p n) 15 0)

/-- Applies the BELL set of a partition, or refuses it whole (R166). -/
def State.applyBell (s : State) (p : Bool) : State :=
  let lo := (Reg.bellPeriod p 0).addr
  let hi := (Reg.bellWork p 0).addr
  if (s.stagedIn lo hi).isEmpty then s
  else if s.bellSetOk p then s.applyRange lo hi
  else (s.discard lo hi).setRegBit (.bellStat p) 28 true

/-! ### The WATCH set -/

/-- Writes a watch event to its ring (R291). -/
def State.watchEvent (s : State) (p : Bool) (b : Bytes) : State :=
  let x := s.part p
  let r := x.eventRing.push 1024 65535 b
  (s.setPart p { x with eventRing := r }).setReg (.watchEvhead p) (BitVec.ofNat 32 (r.lost * 65536 + r.head))

/-- Applies the WATCH set and writes its event, or refuses it (R291, R292). -/
def State.applyWatch (s : State) (p : Bool) : State :=
  let lo := (Reg.watchZerothr p).addr
  let hi := (Reg.watchRechead p).addr
  if (s.stagedIn lo hi).isEmpty then s
  else
    let thr := s.applied lo
    let run := s.applied (Reg.watchZerorun p).addr
    if 1000000 < fld thr 19 0 ∨ fld run 15 0 = 0 then s.discard lo hi
    else
      let old := s.reg (.watchZerorun p)
      let e := toLE 8 (s.cstep64 p).toNat
        ++ [2, BitVec.ofNat 8 (Bank.get noWriter s.writer (Reg.watchCommit p).addr).toNat, 0xFF, 0xFF]
        ++ toLE 2 (fld run 15 0) ++ toLE 1 (2 * fld old 31 31 + fld run 31 31) ++ [0]
        ++ toLE 4 (fld thr 19 0) ++ toLE 4 (s.regFld (.watchZerothr p) 19 0) ++ toLE 2 (fld old 15 0)
      (s.applyRange lo hi).watchEvent p (padTo 32 e)

/-! ### LINK, PIGEON, SEC -/

/-- RELAY of a port set or cleared: while it is 1, LINK_DELAY is the relayed path's; the port's own values come back with 0 (R211). -/
def State.setRelay (s : State) (l : Nat) (b : Bool) : State :=
  if s.regBit (.linkStat l) 26 = b then s
  else
    let s1 := s.setRegBit (.linkStat l) 26 b
    let y := s1.port l
    if b then s1.setPort l { y with ownDelay := some (s1.reg (.linkDelay l)).toNat }
    else
      match y.ownDelay with
      | some w => (s1.setPort l { y with ownDelay := none }).setReg (.linkDelay l) (BitVec.ofNat 32 w)
      | none => s1

/-- A substitute carries one relay at most, and none while it acts for a seat (R205): a further forward relay does not come into
effect, and its EN reads 0 (DESIGN CHOICE, log 138). -/
def State.oneRelay (s : State) : State :=
  let fwd := [17, 18, 19].filter fun l => s.relayOn l true
  let held := fwd.filter (fun l => s.regBit (.linkStat l) 26) ++ fwd.filter fun l => !s.regBit (.linkStat l) 26
  let acts := [false, true].any fun p => (s.part p).subst.any fun e => e.2 == s.seat
  (if acts then held else held.drop 1).foldl (fun (acc : State) l => acc.setRegBit (.linkRelay l) 31 false) s

/-- A relay register takes effect: RELAY of its far port and of the near port it names; a path that this part originates is probed
(R204, R207, R211). -/
def State.applyLink (s : State) : State :=
  let lo := (Reg.linkStat 0).addr
  let hi := lo + 0x500
  if (s.stagedIn lo hi).isEmpty then s
  else
    let s1 := (s.applyRange lo hi).oneRelay
    let on := [17, 18, 19].filter fun l => s1.regBit (.linkRelay l) 31
    let vias := on.map fun l => s1.regFld (.linkRelay l) 4 0
    let new := on.filter fun l => !s1.regBit (.linkStat l) 26 && !s1.regBit (.linkRelay l) 30
    let s2 := (List.range 20).foldl (fun (acc : State) l => acc.setRelay l (on.contains l || vias.contains l)) s1
    new.foldl (fun (acc : State) l => (List.range 64).foldl (fun (a : State) _ => a.sendProbe (a.txPort l)) acc) s2

/-- Applies the PIGEON set; a message that has GO set ends with TIMEOUT and TOCAUSE 1 (R310). -/
def State.applyPigeon (s : State) : State :=
  let lo := (Reg.pigeonData 0 0).addr
  let hi := lo + 0x2000
  if (s.stagedIn lo hi).isEmpty then s
  else
    let s1 := ((List.range 64).filter s.pigeonGo).foldl (fun (acc : State) g => acc.pigeonTimeout g 1) s
    s1.applyRange lo hi

/-- Whether partition p exists: it has a field (R342). -/
def State.exists_ (s : State) (p : Bool) : Bool := decide (s.partFields p ≠ 0)

/-- Whether partition p is swept (R344). -/
def State.swept (s : State) (p : Bool) : Bool := s.regBit (.secPstat p) 31

/-- Whether a resource may leave partition p: it is swept (R344). -/
def State.mayLose (s : State) (p : Bool) : Bool := s.swept p

/-- Whether a resource may enter partition p: no lesson is loaded into it (R344). -/
def State.mayGain (s : State) (p : Bool) : Bool := (s.lesson p).isNone && (s.part p).image.isEmpty

/-- A page range as its first page and the page beyond its last. -/
def pageRange (base count : Word) : Nat × Nat :=
  if fld count 20 0 = 0 then (0, 0) else (fld base 20 0, fld base 20 0 + fld count 20 0)

/-- Whether the first range holds a page that the second does not. -/
def loses (a b : Nat × Nat) : Bool := decide (a.1 < a.2) && !(decide (b.1 ≤ a.1) && decide (a.2 ≤ b.2))

/-- What an application of the staged SEC set would leave: owners and the page ranges of both partitions. -/
def State.secNext (s : State) : Word × (Nat × Nat) × (Nat × Nat) :=
  (s.applied Reg.secPortown.addr,
   pageRange (s.applied (Reg.secPagebase false).addr) (s.applied (Reg.secPagecnt false).addr),
   pageRange (s.applied (Reg.secPagebase true).addr) (s.applied (Reg.secPagecnt true).addr))

/-- The page range in effect of partition p. -/
def State.pages (s : State) (p : Bool) : Nat × Nat := pageRange (s.reg (.secPagebase p)) (s.reg (.secPagecnt p))

/-- Whether a port or page enters (first) or leaves (second) partition p at the application. -/
def State.secMoves (s : State) (p : Bool) : Bool × Bool :=
  let n := s.secNext
  let old := s.regFld .secPortown 21 0
  let new := fld n.1 21 0
  let rng := if p then n.2.2 else n.2.1
  let gain := (List.range 22).any fun i => bit new i == p && bit old i != p
  let lose := (List.range 22).any fun i => bit new i != p && bit old i == p
  (gain || loses rng (s.pages p), lose || loses (s.pages p) rng)

/-- Whether the part accepts the staged SEC set (R344, R345). -/
def State.secOk (s : State) : Bool :=
  let n := s.secNext
  let inside := fun r : Nat × Nat => decide (r.1 = r.2) || (decide (0x40000 ≤ r.1) && decide (r.2 ≤ 0x180000))
  let apart := decide (n.2.1.1 = n.2.1.2) || decide (n.2.2.1 = n.2.2.2) || decide (n.2.1.2 ≤ n.2.2.1)
    || decide (n.2.2.2 ≤ n.2.1.1)
  let conns := s.retained.conns.all fun e =>
    bit (fld n.1 21 0) (20 + field e.2 2 1 % 2) == decide (field e.2 1 1 = 1)
  let ok := fun p : Bool => (!(s.secMoves p).1 || s.mayGain p) && (!(s.secMoves p).2 || s.mayLose p)
  inside n.2.1 && inside n.2.2 && apart && conns && ok false && ok true

/-- Applies the staged SEC set, closing every partition that gains by it (R344), or refuses it. -/
def State.applySec (s : State) : State :=
  let lo := 0x90000
  let hi := 0xA0000
  if (s.stagedIn lo hi).isEmpty then s
  else if !s.secOk then (s.discard lo hi).setRegBit .secPartmap 31 true
  else
    let g := ((s.secMoves false).1, (s.secMoves true).1)
    let s1 := s.applyRange lo hi
    { s1 with
      part0 := { s1.part0 with closed := s1.part0.closed || g.1 }
      part1 := { s1.part1 with closed := s1.part1.closed || g.2 } }

/-! ### Tile windows -/

/-- Applies the staged set of tile t; a directory that holds records is emptied and the tile's mark is bad (R139). -/
def State.applyTile (s : State) (t : Nat) : State :=
  let lo := 0x100000 + 0x1000 * t
  let hi := lo + 0x1000
  if (s.stagedIn lo hi).isEmpty then s
  else
    let s1 := s.applyRange lo hi
    let x := s1.tile t
    if x.dir.isEmpty then s1
    else
      ((s1.setReg (.tileAstat t) (s1.reg (.tileAstat t) &&& 0x3F)).setTile t
        { x with dir := [], planPtr := 0, spillPtr := 0 }).markTile t 3

/-! ### Bells and commit writes -/

/-- The tiles with something staged. -/
def State.stagedTiles (s : State) : List Nat :=
  ((s.staged.filter fun e => decide (0x100000 ≤ e.1)).map fun e => (e.1 - 0x100000) / 0x1000).eraseDups

/-- HOLD of a commit register (R18). -/
def State.held (s : State) (r : Reg) : Bool := s.regBit r 1

/-- Action 2 of R156: every set that a bell of partition p applies, unless its HOLD is 1. -/
def State.applyAtBell (s : State) (p : Bool) : State :=
  let s1 := if s.held (.bellCommit p) then s else s.applyBell p
  let s2 := if s1.held (.watchCommit p) then s1 else s1.applyWatch p
  let s3 := if s2.held .linkCommit then s2 else s2.applyLink
  let s4 := if s3.held .pigeonCommit then s3 else s3.applyPigeon
  let s5 := if s4.held .secCommit then s4 else s4.applySec
  (s5.stagedTiles.filter fun t => decide (s5.tilePart t = some p) && !s5.held (.tileCommit t)).foldl
    (fun (acc : State) t => acc.applyTile t) s5

/-- The set that a commit register applies (R17). -/
def State.applyCommit (s : State) (r : Reg) : State :=
  match r with
  | .bellCommit p => s.applyBell p
  | .watchCommit p => s.applyWatch p
  | .linkCommit => s.applyLink
  | .pigeonCommit => s.applyPigeon
  | .secCommit => s.applySec
  | .tileCommit t => s.applyTile t
  | _ => s

end Sys2Proof.Machine
end

