-- ==== Sys2Proof/Machine/Command.lean ====
section
/-! DEFINITION. Command packets and replies (R293 to R301): taking, checking, replying, ending. -/

set_option Elab.async false

namespace Sys2Proof.Machine

/-! ### Replies -/

/-- The host port of an issuer; none for management. -/
def hostOf : Issuer → Option Bool
  | .hostA => some false
  | .hostB => some true
  | _ => none

/-- The 32 bytes of a reply (R297). -/
def replyBytes (status seq op : Nat) (phase final : Bool) (res : Bytes) : Bytes :=
  padTo 32 (toLE 2 status ++ toLE 2 seq ++ toLE 2 op ++ toLE 1 (b2n phase + 2 * b2n final) ++ [0] ++ padTo 24 res)

/-- Entries of a command or reply ring: RSIZE or CSIZE, log2, taken within 4 to 12 (R311). -/
def ringSize (log2 : Nat) : Nat := 2 ^ (Nat.min 12 (Nat.max 4 log2))

/-- Commands of a ring that still owe their final reply. -/
def State.owed (s : State) (i : Issuer) (ring : Nat) : Nat :=
  (s.cmds.filter fun c => c.issuer == i && (c.ring == ring || (hostOf i).isNone)).length

/-- The key of a host's ring. -/
def ringKey (h : Bool) (ring : Nat) : Nat := 256 * b2n h + ring

/-- A reply ring that the store does not list is empty. -/
def noReplies : Nat → Nat := fun _ => 0

/-- Whether the reply ring has a free entry for every reply still owed, plus two (R294). -/
def State.replyRoom (s : State) (h : Bool) (ring owed : Nat) : Bool :=
  decide (owed + 2 + Bank.get noReplies s.replies (ringKey h ring) ≤ ringSize (s.regFld (.cmdRctl h ring) 25 22))

/-- A drained ring is disabled once every owed reply is written (R303). -/
def State.drainRing (s : State) (h : Bool) (ring : Nat) (i : Issuer) : State :=
  if s.regBit (.cmdRctl h ring) 30 && decide (s.owed i ring = 0) then s.setRegFld (.cmdRctl h ring) 31 30 0 else s

/-- The header of a datagram on the management Ethernet (R406). -/
def bv2m (type : Nat) : Bytes := [0x42, 0x56, 0x32, 0x4D] ++ toLE 4 type

/-- A reply to management as it leaves, on the path on which its command came: a message on I3C (R417), or a datagram (R406). -/
def mgmtReply (path : Nat) (b : Bytes) : Bytes := if path = 0 then 1 :: b else bv2m 2 ++ b

/-- Writes one reply (R295): for a host into its reply ring at RTAIL, with the phase of the lap, and the vector after a
final reply with IRQ set; for management as a message. -/
def State.sendReply (s : State) (i : Issuer) (ring seq op : Nat) (irq final : Bool) (status : Nat) (res : Bytes) : State :=
  match hostOf i with
  | some h =>
    -- a port that is in reset takes no reply (R271, R401)
    if !s.hostUp h then s
    else
    let w := s.reg (.cmdChead h ring)
    let tail := fld w 27 16
    let n := ringSize (s.regFld (.cmdRctl h ring) 25 22)
    let base := (s.reg (.cmdRbaseHi h ring)).toNat * 2 ^ 32 + (s.reg (.cmdRbaseLo h ring)).toNat
    let wrap := decide (tail + 1 = n)
    let w1 := setFld w 27 16 (if wrap then 0 else tail + 1)
    let w2 := if wrap then setFld w1 31 31 (1 - fld w 31 31) else w1
    let k := ringKey h ring
    let s1 := ({ s with replies := Bank.set noReplies s.replies k (Bank.get noReplies s.replies k + 1) }.setReg (.cmdChead h ring) w2).emit
      (.hostWrite h (base + 32 * tail) (replyBytes status seq op (fld w 31 31 == 1) final res))
    let s2 := if irq && final then s1.raise h (s1.regFld (.cmdRctl h ring) 21 14) else s1
    if final then s2.drainRing h ring i else s2
  | none => s.emit (.reply i ring (mgmtReply ring (replyBytes status seq op true final res)))

/-! ### Outstanding commands -/

/-- The outstanding command with a number. -/
def State.cmd (s : State) (id : Nat) : Option Outstanding := s.cmds.find? fun c => c.id == id

/-- Ends a long command with its final reply (R295, R300). -/
def State.finish (s : State) (id status : Nat) (res : Bytes) : State :=
  match s.cmd id with
  | none => s
  | some c =>
    ({ s with cmds := s.cmds.filter fun d => d.id != id }).sendReply c.issuer c.ring c.seq.toNat c.opcode.toNat c.irq true
      status res

/-- The outstanding command of an opcode on a partition. -/
def State.cmdOf (s : State) (op : Nat) (p : Option Bool) : Option Outstanding :=
  s.cmds.find? fun c => c.opcode.toNat == op && (p.isNone || c.part == p)

/-- Ends the outstanding command of an opcode on a partition, if there is one. -/
def State.finishOp (s : State) (op : Nat) (p : Option Bool) (status : Nat) (res : Bytes) : State :=
  match s.cmdOf op p with
  | some c => s.finish c.id status res
  | none => s

/-- The part of a management command that acts on partition p is done: its operand names the partitions still open, and
the command ends once none is left (R268, R301). -/
def State.finishFor (s : State) (op : Nat) (p : Bool) (status : Nat) : State :=
  (s.cmds.filter fun c => c.opcode.toNat == op && c.arg.testBit (b2n p)).foldl (fun (acc : State) c =>
    let left := c.arg - 2 ^ b2n p
    if left = 0 ∨ status ≠ 0 then acc.finish c.id status []
    else { acc with cmds := acc.cmds.map fun d => if d.id == c.id then { d with arg := left } else d }) s

/-- Whether an outstanding command acts on partition p. -/
def Outstanding.actsOn (c : Outstanding) (p : Bool) : Bool :=
  c.part == some p || (c.part.isNone && (c.opcode.toNat == 0x0402 || c.opcode.toNat == 0x0203) && c.arg.testBit (b2n p))

/-- Ends every outstanding command that acts on partition p, but those of `keep`, with 0x000B (R301, R303, R349). -/
def State.abortCmds (s : State) (p : Bool) (keep : Nat) : State :=
  (s.cmds.filter fun c => c.actsOn p && c.id != keep).foldl (fun (acc : State) c => acc.finish c.id 0x000B []) s

/-! ### Opcodes and checks -/

/-- A row of R301: opcode, parameter length, whether a host and whether management may use it, whether it is long. -/
structure OpRow where
  op    : Nat
  len   : Nat
  host  : Bool
  mgmt  : Bool
  long  : Bool
  deriving DecidableEq, Repr

/-- Parameters of a packet from packet byte o (o ≥ 8), n bytes. -/
def pktArg (k : Packet) (o n : Nat) : Nat := field k.params (o - 8) n

/-- The first byte beyond the parameter length that is not 0, as a packet offset. -/
def pktTail (k : Packet) (len : Nat) : Option Nat := ((k.params.drop len).findIdx? (· != 0)).map (· + 8 + len)

/-- Checks 1 to 4 of R298: a status and, for statuses 0x0003 to 0x0005, the offset of the first offending byte. -/
def pktCheck (k : Packet) (r : OpRow) : Option (Nat × Nat) :=
  if k.opcode.toNat ≠ r.op then some (0x0002, 0)
  else if k.plen.toNat ≠ r.len then some (0x0003, 6)
  else if k.flags.toNat % 256 / 4 ≠ 0 then some (0x0005, 2)
  else if k.flags.toNat / 256 ≠ 0 then some (0x0005, 3)
  else
    match pktTail k r.len with
    | some o => some (0x0005, o)
    | none => if (if k.issuer == Issuer.mgmt then r.mgmt else r.host) then none else some (0x0006, 0)

/-- The partition that a host's commands act on (R293). -/
def pktHost (k : Packet) : Option Bool := hostOf k.issuer

/-- The part takes a packet: its scan clears the ring's doorbell, management's too, and a host ring's head moves on (R294, R304). -/
def State.takePacket (s : State) (k : Packet) : State :=
  match pktHost k with
  | some h =>
    let n := ringSize (s.regFld (.cmdRctl h k.ring) 29 26)
    let a := s.regFld (.cmdChead h k.ring) 11 0
    (s.setDoorbell (512 * b2n h + k.ring) false).setRegFld (.cmdChead h k.ring) 11 0 (if a + 1 = n then 0 else a + 1)
  | none => s.setDoorbell 8064 false

/-- Whether the part takes a command of management (R271, R374, R377, R379): from the end of step 6 of a start on, TEST_RESULTS at any
step once the interface is out of reset, and on a fenced part reports alone. -/
def State.mgmtTakes (s : State) (opcode : Nat) : Bool :=
  s.pins.mgmt && (if s.pins.fenced then [0x0101, 0x0102, 0x0501, 0x0502, 0x0601, 0x0703, 0x0802].contains opcode
    else opcode == 0x0802 || decide (6 ≤ s.regFld .testStat 31 28))

/-- Whether the part takes a command now (R294, R303, R349, R367, R374): the interface is out of reset, the principal is
not between its slots, the ring is enabled with
room for the replies and holds a packet between HEAD and CMD_CTAIL (R304), and an ORDER packet waits for the earlier commands of
its ring. -/
def State.takes (s : State) (k : Packet) : Bool :=
  !s.fwPaused && !(k.flags.toNat.testBit 1 && decide (s.owed k.issuer k.ring ≠ 0)) &&
    (match pktHost k with
     | some h => s.hostUp h && !s.erasing h && !s.regBit (.secPstat h) 28 && decide (k.ring < 256) && s.regBit (.cmdRctl h k.ring) 31
        && !s.regBit (.cmdRctl h k.ring) 30
        && s.regFld (.cmdChead h k.ring) 11 0 != s.regFld (.cmdCtail h k.ring) 11 0 % ringSize (s.regFld (.cmdRctl h k.ring) 29 26)
        && s.replyRoom h k.ring (s.owed k.issuer k.ring)
     | none => s.mgmtTakes k.opcode.toNat && k.issuer == Issuer.mgmt)

/-- Ends a packet with one final reply; statuses 0x0002 to 0x0006 count in REJECTS of the host's CMD_STAT (R311). -/
def State.answer (s : State) (k : Packet) (status : Nat) (res : Bytes) : State :=
  let s1 := match pktHost k with
    | some h => if 2 ≤ status ∧ status ≤ 6 then
        s.setRegFld (.cmdStat h) 15 0 (satAdd 0xFFFF (s.regFld (.cmdStat h) 15 0) 1) else s
    | none => s
  s1.sendReply k.issuer k.ring k.seq.toNat k.opcode.toNat (k.flags.toNat.testBit 0) true status res

/-- A long command's interim reply, and its entry among the outstanding commands (R300). -/
def State.accept (s : State) (k : Packet) (p : Option Bool) (arg : Nat) : State :=
  let c : Outstanding := { id := s.nextCmd, issuer := k.issuer, ring := k.ring, opcode := k.opcode, seq := k.seq,
                           irq := k.flags.toNat.testBit 0, part := p, arg := arg }
  ({ s with cmds := s.cmds ++ [c], nextCmd := s.nextCmd + 1 }).sendReply k.issuer k.ring k.seq.toNat k.opcode.toNat false
    false 1 []

/-- Whether the partition of a host is open to it: it has a field and is not closed under R344 (R342). -/
def State.openTo (s : State) (p : Bool) : Bool := s.exists_ p && !(s.part p).closed

/-- What a command's own checks and effect come to: a status with results, or the part after a taken command. `field` is
status 0x0004 or 0x0005 with the offset of the first offending byte, or 0x0006, which has none. -/
inductive CmdRes where
  | field (status offset : Nat)
  | refuse
  | reply (s : State) (status : Nat) (res : Bytes)
  | long (s : State) (p : Option Bool) (arg : Nat) (then_ : State → Nat → State)

/-- Runs a packet of one row: it waits in its ring while the part does not take it; checks 1 to 4; a host of a closed
partition (exempt: IDENTIFY, PART_STATE, REPORT_CARD); then the command's own field and state checks and its effect. -/
def runPacket (k : Packet) (r : OpRow) (exempt : Bool) (body : State → CmdRes) (s : State) : Host.Outcome State Fault Refusal :=
  if !s.takes k then .next s
  else
    let s1 := s.takePacket k
    match pktCheck k r with
    | some (st, o) => .next (s1.answer k st (if st = 3 ∨ st = 5 then toLE 2 o else []))
    | none =>
      let shut : Bool := match pktHost k with
        | some h => !exempt && !s.openTo h
        | none => false
      match body s1 with
      | .field st o => .next (s1.answer k st (if st = 6 then [] else toLE 2 o))
      | .refuse => .next (s1.answer k 7 [])
      | .reply s2 st res => .next (if shut then s1.answer k 7 [] else s2.answer k st res)
      | .long s2 p arg f =>
        .next (if shut then s1.answer k 7 [] else f (s2.accept k p arg) s2.nextCmd)

end Sys2Proof.Machine
end

