-- ==== Sys2Proof/Machine/Power.lean ====
section
/-! DEFINITION. The power monitor's throttle (R387 to R391), a remap of tiles at a step boundary (R272, R275), and the
pause of a partition's DMA channels (R322). -/

set_option Elab.async false

namespace Sys2Proof.Machine

/-! ### Throttle -/

/-- Fields of partition p. -/
def State.fieldCount (s : State) (p : Bool) : Nat := ((List.range 4).filter fun f => bit (s.partFields p) f).length

/-- EFF: the limit, or what the working stages can carry (R387). -/
def State.effNow (s : State) : Nat := Nat.min (s.regFld .powerLimit 15 0) (300 * s.regFld .powerStat 31 28)

/-- EFF taken into effect at a bell of partition p: a change forgets the energies measured so far (R389, R392). -/
def State.takeEff (s : State) (p : Bool) : State :=
  let e := s.effNow
  let x := s.part p
  let s1 := s.setRegFld .powerLimit 31 16 e
  if x.eff = e then s1 else s1.setPart p { x with eff := e, ec := [] }

/-- A sensor's latest reading that the store does not list. -/
def noReading : Nat → Nat := fun _ => 0

/-- The hottest of a set of sensors, keyed 4·place + index, in 0.25 °C. -/
def State.hottest (s : State) (keys : List Nat) : Nat := keys.foldl (fun a k => Nat.max a (Bank.get noReading s.sensors k)) 0

/-- The sensors of partition p's fields. -/
def State.partSensors (s : State) (p : Bool) : List Nat :=
  (List.range 16).filter fun k => bit (s.partFields p) (k / 4)

/-- The hottest of the sensor reports of partition p's fields since its previous bell; none: no report has come. -/
def State.fresh (s : State) (p : Bool) : Option Nat := if p then s.fresh1 else s.fresh0

/-- A sensor report of partition p's fields (R391). -/
def State.takeReading (s : State) (p : Bool) (reading : Nat) : State :=
  let top := some (Nat.max ((s.fresh p).getD 0) reading)
  if p then { s with fresh1 := top } else { s with fresh0 := top }

/-- The partition with its sensor reports taken at a bell. -/
def State.clearFresh (s : State) (p : Bool) : State := if p then { s with fresh1 := none } else { s with fresh0 := none }

/-- T of R391: the hottest report since the previous bell; where none has come, the hottest of the latest ones. -/
def State.junction (s : State) (p : Bool) : Nat := (s.fresh p).getD (s.hottest (s.partSensors p))

/-- Xt at a bell that opens a period of L quanta (R391). -/
def nextXt (xt len t tgt : Nat) : Nat :=
  let step := (len + 63) / 64
  Nat.min (4 * len) (if 4 * tgt < t then xt + step else if t + 8 < 4 * tgt then xt - step else xt)

/-- E_c of a class: measured (stored plus one), or 650 W × f_p × LENGTH (R389). -/
def State.energy (s : State) (p : Bool) (cls len : Nat) : Nat :=
  match Bank.get noReading (s.part p).ec cls with
  | 0 => 650 * s.fieldCount p * len
  | e + 1 => e

/-- Xp of R390: the energy beyond the budget over what an extension quantum saves, rounded up. -/
def State.powerX (s : State) (p : Bool) (cls len : Nat) : Nat :=
  let f := s.fieldCount p
  let eff := (s.part p).eff
  let past := 4 * s.energy p cls len - eff * f * len
  let den := eff * f - 180 * f
  (past + den - 1) / den

/-- The throttle extension and its cause (R390): equal terms in the order 0x22, 0x21, 0x23. -/
def throttleX (xp xt xm : Nat) : Nat × Nat :=
  let x := Nat.max xt (Nat.max xp xm)
  (Nat.min 65535 x, if x = xt then 0x22 else if x = xp then 0x21 else 0x23)

/-! ### Holdover ring -/

/-- Writes a holdover or throttle record to its ring (R163). -/
def State.bellRecord (s : State) (p : Bool) (b : Bytes) : State :=
  let x := s.part p
  let r := x.holdRing.push 4096 65535 b
  (s.setPart p { x with holdRing := r }).setReg (.bellLoghead p) (BitVec.ofNat 32 (r.lost * 65536 + r.head))

/-- Action 6 of R156: the throttle extension of the period that a bell opens, with its record (R161, R390). -/
def State.fixThrottle (s : State) (p : Bool) (cls : Nat) (last : Bool) : State :=
  let len := s.regFld (.bellPeriod p cls) 15 0
  let s0 := s.takeEff p
  let t := s0.junction p
  let xt := nextXt (s0.part p).xt len t (s0.regFld .powerTherm 31 24)
  let go := if last then s0.moving.filter fun n => decide (s0.tilePart n = some p) else []
  let xm := Nat.max (s0.regFld (.powerStretch p) 15 0) (if go.isEmpty then 0 else 512)
  let x := throttleX (s0.powerX p cls len) xt xm
  let y := s0.part p
  let s1 := ({ s0 with moving := s0.moving.filter fun n => !go.contains n }.setPart p { y with xt := xt, remap := go }).clearFresh p
  let s2 := (s1.setRegFld (.powerPart p) 31 16 x.1).setRegBit (.bellStat p) 29 (decide (0 < x.1))
  let s3 := s2.setReg (.bellLcount p) (BitVec.ofNat 32 (satAdd 0xFFFFFFFF (s2.reg (.bellLcount p)).toNat x.1))
  if x.1 = 0 then s3
  else s3.bellRecord p (padTo 32 (toLE 6 (s3.pnum p).toNat ++ toLE 1 (s3.attempt p) ++ toLE 1 x.2 ++ toLE 2 x.1
      ++ toLE 2 (s3.regFld (.powerPart p) 15 0) ++ toLE 2 t ++ [0] ++ toLE 1 (b2n p) ++ List.replicate 12 0
      ++ toLE 4 ((s3.step64 p).toNat % 2 ^ 32)))

/-! ### Remap -/

/-- Columns of a field that a lesson of partition p uses; without one, those that the grade's spares leave (R6). -/
def State.colsUsed (s : State) (t : Nat) : Nat :=
  match s.tilePart t with
  | some p =>
    match s.lesson p with
    | some l => gridW l.cols
    | none => 25 - s.spares
  | none => 25 - s.spares

/-- A strip's tile that passed its test and stands by as free substitute outside the map (R275). -/
def State.freed (s : State) (n : Nat) : Option Nat :=
  ((List.range 25).map (25 * n + ·)).find? fun t => s.retained.exTiles.contains t && (s.tile t).spare

/-- Whether the strip of tile t has a free substitute tile (R6, R275): one that passed its test, or one of the grade's spares that the
map does not exclude and no grid tile uses. -/
def State.hasFree (s : State) (t : Nat) : Bool :=
  (s.freed (t / 25)).isSome ||
    (decide (s.colsUsed t < (s.usableTiles (t / 25)).length) && decide (25 - (s.usableTiles (t / 25)).length < s.spares))

/-- Where a tile's state goes when a mapping changes from `a` to `b`. -/
def renamed (a b : List Nat) (t : Nat) : Nat :=
  match a.findIdx? (· == t) with
  | some i => (b[i]?).getD t
  | none => t

/-- The window registers of tile t that the office store lists, moved to tile d. -/
def moveWindow (m : Bank Word) (t d : Nat) : List (Nat × Word) :=
  Bank.slice m (0x100000 + 0x1000 * t) (0x101000 + 0x1000 * t) (0x100000 + 0x1000 * d)

/-- A flit whose sender has moved. -/
def Flit.moved (f : Nat → Nat) (x : Flit) : Flit :=
  if x.sender < 2 ^ 20 then { x with sender := 16 * f (x.sender / 16) + x.sender % 16 } else x

/-- Moves every tile whose place in the mapping changes from `a` to `b`: desk, shelf and register state (R272). -/
def State.moveTiles (s : State) (a b : List Nat) : State :=
  let f := renamed a b
  let src := a.filter fun t => decide (f t ≠ t)
  let gone := src.filter fun t => !(src.map f).contains t
  let s1 := src.foldl (fun (acc : State) t => acc.setTile (f t) (s.tile t)) s
  let s2 := gone.foldl (fun (acc : State) t => acc.setTile t {}) s1
  let cleared := (src ++ src.map f).foldl (fun (m : Bank Word) t =>
    Bank.clear m (0x100000 + 0x1000 * t) (0x101000 + 0x1000 * t)) s2.office
  let office := src.foldl (fun (m : Bank Word) t => Bank.setAll resetWord m (moveWindow s.office t (f t))) cleared
  { s2 with
    office := office
    mesh := s2.mesh.map fun e : Nat × Nat × Flit => (f e.1, e.2.1, e.2.2.moved f)
    meshCred := Bank.setAll (fun _ => 0) [] (s2.meshCred.map fun e : Nat × Nat =>
      if e.1 < 2 ^ 20 then (16 * f (e.1 / 16) + e.1 % 16, e.2) else e)
    tiles := s2.tiles.map fun e : Nat × Tile => (e.1, { e.2 with inb := e.2.inb.map fun q : Nat × List Flit =>
      (q.1, q.2.map (Flit.moved f)) }) }

/-- The map with tile t excluded; a free substitute of its strip that stood outside the map comes into it (R272, R275). -/
def State.exclude (s : State) (t : Nat) : State :=
  let ex := s.retained.exTiles
  let back := s.freed (t / 25)
  let kept := match back with
    | some x => ex.filter (· != x)
    | none => ex
  let s1 := { s with retained := { s.retained with exTiles := if kept.contains t then kept else kept ++ [t] } }
  match back with
  | some x => s1.setTile x { s1.tile x with spare := false }
  | none => s1

/-- Excludes tile t and moves the tiles that its field's mapping moves: those east of it in its strip, or, where the strip is left
with more excluded tiles than its spares, every strip south of it (R177, R272). -/
def State.remapTile (s : State) (t : Nat) : State :=
  let w := s.colsUsed t
  let s1 := s.exclude t
  s1.moveTiles (s.fieldTiles (t / 625) w) (s1.fieldTiles (t / 625) w)

/-- Takes tile t out of the mapping (R272, R275): the strip's free substitute rotates into its role, and the freed tile is fenced and
its test begins. A tile that is fenced already has failed its test. -/
def State.rotate (s : State) (t : Nat) : State :=
  let s1 := s.remapTile t
  if (s1.tile t).fenced then s1 else { s1.fenceTile t with testing := s1.testing ++ [t] }

/-- Whether the remaps of partition p's next step boundary leave fewer usable strips or tiles than its lesson's grid needs (R272,
R281). -/
def State.remapShort (s : State) (p : Bool) : Bool :=
  let x := s.part p
  let s1 := x.remap.foldl (fun (acc : State) t => acc.exclude t) s
  x.remap.any fun t => decide ((s1.fieldTiles (t / 625) (s.colsUsed t)).length < 24 * s.colsUsed t)

/-! ### DMA channels at a pre-emption -/

/-- The channels of partition p (R312). -/
def chansOf (p : Bool) : List Nat := (List.range 256).map (256 * b2n p + ·)

/-- Pauses the running channels of partition p: at once between descriptors, else at the end of the current one (R322). -/
def State.pauseChans (s : State) (p : Bool) : State :=
  (chansOf p).foldl (fun (acc : State) c =>
    if acc.regFld (.dmaChstat c) 31 28 = 1 then
      let x := acc.chan c
      let a1 := acc.setChan c { x with paused := true }
      if x.cur.isNone then a1.setRegFld (.dmaChstat c) 31 28 3 else a1
    else acc) s

end Sys2Proof.Machine
end

