-- ==== Sys2Proof/Machine/Channel.lean ====
section
/-! DEFINITION. DMA channels (R312, R313, R320 to R323): their state word, starting a pending chain, stopping at a boundary
and on an error. -/

set_option Elab.async false

namespace Sys2Proof.Machine

/-- The partition of channel c (R312). -/
def chanPart (c : Nat) : Bool := decide (256 ≤ c)

/-- STATE of a channel: 0 idle, 1 running, 2 stopped on error, 3 paused, 4 halted (R324). -/
def State.chState (s : State) (c : Nat) : Nat := s.regFld (.dmaChstat c) 31 28

/-- The channel with STATE set. -/
def State.setChState (s : State) (c n : Nat) : State := s.setRegFld (.dmaChstat c) 31 28 n

/-- Whether a channel's partition is pre-empted, or pausing for it (R322). -/
def State.chanHeld (s : State) (c : Nat) : Bool :=
  s.regBit (.secPstat (chanPart c)) 29 || (s.part (chanPart c)).saving.isSome

/-- Step 3 of R320: an idle, stopped or halted channel with EN = 1, a pending chain and its doorbell rung takes the chain. -/
def State.tryStart (s : State) (c : Nat) : State :=
  let st := s.chState c
  if (st = 0 ∨ st = 2 ∨ st = 4) ∧ s.regBit (.dmaChctl c) 31 ∧ s.regBit (.dmaChstat c) 27 ∧ s.doorbell (1024 + c) ∧ !s.chanHeld c then
    let s1 := s.setDoorbell (1024 + c) false
    let s2 := (s1.setReg (.dmaChcurLo c) (s1.reg (.dmaChstartLo c))).setReg (.dmaChcurHi c) (s1.reg (.dmaChstartHi c))
    let s3 := ((s2.setRegBit (.dmaChstat c) 27 false).setRegFld (.dmaChstat c) 23 16 0).setChState c 1
    let x := s3.chan c
    s3.setChan c { x with cur := none, done := false, mgmt := x.next, halt := false, off := false, paused := false, moved := 0 }
  else s

/-- A channel disabled and at rest: idle, with no chain pending (R323). -/
def State.idleChan (s : State) (c : Nat) : State :=
  let x := s.chan c
  ((s.setChState c 0).setRegBit (.dmaChstat c) 27 false).setChan c
    { x with cur := none, done := false, halt := false, off := false, paused := false, moved := 0 }

/-- A channel stops on an error (R321): state 2, the error code, the offset, and DMA_CHCUR kept at the descriptor. -/
def State.stopChan (s : State) (c code offset : Nat) : State :=
  let x := s.chan c
  let s1 := ((s.setRegFld (.dmaChstat c) 23 16 code).setReg (.dmaChoff c) (BitVec.ofNat 32 (offset / 64 * 64))).setChState c 2
  (s1.setChan c { x with cur := none, done := false, halt := false, off := false, paused := false, moved := 0 }).tryStart c

/-- A channel that an eraser pass or RESET_PARTITION stops, running or not (R323). -/
def State.abortChan (s : State) (c : Nat) : State :=
  let x := s.chan c
  let s1 := (s.setRegFld (.dmaChstat c) 23 16 0x0A).setChState c 2
  ((s1.setRegBit (.dmaChstat c) 27 false).setRegBit (.dmaChctl c) 31 false).setChan c
    { x with cur := none, done := false, halt := false, off := false, paused := false, moved := 0 }

/-- Every channel of a partition stopped with 0x0A. -/
def State.abortChans (s : State) (p : Bool) : State := (chansOf p).foldl (fun (acc : State) c => acc.abortChan c) s

/-- A halt at a boundary (R323): state 4; with EN = 0 the channel then becomes idle. -/
def State.rest (s : State) (c : Nat) : State :=
  if s.regBit (.dmaChctl c) 31 then ((s.setChState c 4).setChan c { s.chan c with halt := false, off := false }).tryStart c
  else s.idleChan c

/-- What a channel does at a descriptor boundary, its chain at an end or not (R320, R322, R323): a pause leaves it in state 3; a
halt, or EN written 0, in state 4, and with EN = 0 idle; the end of the chain leaves it idle, and it checks its doorbell. -/
def State.boundary (s : State) (c : Nat) (ended : Bool) : State :=
  let x := s.chan c
  if x.paused ∧ !(ended && !x.halt && !x.off) then s.setChState c 3
  else if x.off ∨ x.halt then s.rest c
  else if ended then ((s.setChState c 0).setChan c { x with paused := false }).tryStart c
  else s

/-- HALT written to a channel (R323): at once between descriptors, else at the next boundary. -/
def State.haltChan (s : State) (c : Nat) : State :=
  let x := s.chan c
  if s.chState c = 1 then
    let s1 := s.setChan c { x with halt := true }
    if x.cur.isNone then s1.boundary c false else s1
  else if s.chState c = 3 then s.setChan c { x with halt := true }
  else s

/-- A write of DMA_CHCTL (R323, R324). -/
def State.writeChctl (s : State) (c : Nat) (v : Word) : State :=
  let st := s.chState c
  let was := s.regBit (.dmaChctl c) 31
  let en := bit v.toNat 31
  let dspace := if st = 1 ∨ st = 3 then s.regFld (.dmaChctl c) 29 29 else fld v 29 29
  let w := setFld (setFld (setFld (s.reg (.dmaChctl c)) 31 31 (b2n en)) 29 29 dspace) 28 21 (fld v 28 21)
  let s1 := s.setReg (.dmaChctl c) w
  let s2 := if en && !was then s1.setRegFld (.dmaChstat c) 15 0 0 else s1
  let s3 :=
    if was && !en then
      let x := s2.chan c
      if st = 1 then
        let a := s2.setChan c { x with off := true }
        if x.cur.isNone then a.boundary c false else a
      else if st = 3 then s2.setChan c { x with off := true }
      else s2.idleChan c
    else if en && st == 3 then s2.setChan c { s2.chan c with off := false }
    else s2
  let s4 := if bit v.toNat 30 then s3.haltChan c else s3
  s4.tryStart c

/-- A write of one word of DMA_CHSTART (R320): ignored while a chain is pending; the high word makes the chain pending. -/
def State.writeChstart (s : State) (c : Nat) (high mgmt : Bool) (v : Word) : State :=
  if s.regBit (.dmaChstat c) 27 then s.setRegBit (.dmaChstat c) 26 true
  else if high then
    let s1 := (s.setReg (.dmaChstartHi c) v).setRegBit (.dmaChstat c) 27 true
    (s1.setChan c { s1.chan c with next := mgmt }).tryStart c
  else s.setReg (.dmaChstartLo c) v

/-- The channels of partition p that a pause stopped go on with the next descriptor, one with a halt in state 4; a start that was
pending runs (R322, R323). Those of a pre-empted partition wait for its resumption. -/
def State.resumeChans (s : State) (p : Bool) : State :=
  if s.regBit (.secPstat p) 29 || (s.part p).saving.isSome then s
  else (chansOf p).foldl (fun (acc : State) c =>
    let x := acc.chan c
    let a1 := acc.setChan c { x with paused := false }
    if a1.chState c = 3 then (if x.halt ∨ x.off then a1.rest c else a1.setChState c 1) else a1.tryStart c) s

/-- Whether a channel of partition p runs. -/
def State.chansRun (s : State) (p : Bool) : Bool := (chansOf p).any fun c => s.chState c == 1

/-- The lines of the shared buffer in use (R313, R325): none without a descriptor under way; else a free number, within the limits of
the channels and of the buffer (how far the engines have come is timing). -/
def State.bufferLines (s : State) : Nat :=
  let most := Nat.min 32768 (s.chans.foldl (fun a e =>
    match e.2.cur with
    | some d => a + Nat.min 4096 (d.length.toNat / 64 * d.count.toNat)
    | none => a) 0)
  Config.linesInUse s.free % (most + 1)

end Sys2Proof.Machine
end

