-- ==== Sys2Proof/Machine/Bundle.lean ====
section
/-! DEFINITION. Firmware bundles and slots (R361), and the start of a slot in the pause of an activation, a fallback or a watchdog
lapse
(R362, R366, R367, R371). -/

set_option Elab.async false

namespace Sys2Proof.Machine

/-! ### The bundle (R361) -/

/-- Offset and length of section k of a bundle: principal, field monitor, link monitor, power monitor. -/
def bundleSect (b : Bytes) (k : Nat) : Nat × Nat := (field b (128 + 16 * k) 4, field b (132 + 16 * k) 4)

/-- The bytes of section k. -/
def bundlePart (b : Bytes) (k : Nat) : Bytes := cutAt b (bundleSect b k).1 (bundleSect b k).2

/-- Whether a bundle's header, sections and lengths are well formed. -/
def bundleForm (b : Bytes) : Bool :=
  let ss := (List.range 4).map (bundleSect b)
  decide (512 ≤ b.length) && decide (b.length ≤ 16777216) && field b 16 4 == b.length
    && b.take 8 == [0x42, 0x56, 0x32, 0x46, 0x57, 0x42, 0x4E, 0x44] && field b 8 2 == 1 && decide (field b 10 1 < 2)
    && zeroAt b 11 1 && decide (1 ≤ field b 12 1) && decide (field b 12 1 ≤ 64) && decide (1 ≤ field b 13 1)
    && decide (field b 13 1 ≤ 64) && zeroAt b 14 2 && zeroAt b 72 56 && zeroAt b 384 128
    && ((List.range 4).all fun k => zeroAt b (136 + 16 * k) 8)
    && ss.all (fun x => x.1 % 64 == 0 && decide (512 ≤ x.1) && decide (x.1 + x.2 ≤ b.length))
    && decide (ss.Pairwise fun x y => overlap x.1 x.2 y.1 y.2 = false)
    && ((field b 10 1).testBit 0 || zeroAt b 288 96)
    && cutAt b 24 48 == sha384 (b.drop 512)

/-- Whether the signatures that a bundle needs verify: the owner's too once an owner key is fused (R354). -/
def State.bundleSigned (s : State) (b : Bytes) : Bool :=
  let d := sha384 (b.take 192)
  Config.lumduogSig d (cutAt b 192 96) &&
    (!s.regBit .secBoot 30 || ((field b 10 1).testBit 0 && Config.ownerSig (s.fuses.owner.getD []) d (cutAt b 288 96)))

/-- The outcome of R365 for a bundle as written: 0 valid, 4 malformed, 1 signature, 2 version. -/
def State.bundleOutcome (s : State) (b : Bytes) : Nat :=
  if !bundleForm b then 4
  else if !s.bundleSigned b then 1
  else if field b 12 1 < s.fuses.svnPri ∨ field b 13 1 < s.fuses.svnMon then 2
  else 0

/-- The status of an outcome of R365. -/
def outcomeStatus (n : Nat) : Nat := if n = 0 then 0 else if n = 1 then 0x000C else 0x000A

/-! ### Slots -/

/-- The bundle of a slot (true: B). -/
def State.slot (s : State) (b : Bool) : Bytes := if b then s.fw.slotB else s.fw.slotA

/-- The slot that runs (SEC_BOOT). -/
def State.runSlot (s : State) : Bool := s.regBit .secBoot 31

/-- The preferred slot (FW_STAT). -/
def State.prefSlot (s : State) : Bool := s.regBit .fwStat 29

/-- State of a slot: 0 invalid, 1 valid, 2 failed, 3 stale. -/
def State.slotState (s : State) (b : Bool) : Nat := s.regFld (.fwSlot b) 31 29

/-- PHASE of FW_STAT. -/
def State.setPhase (s : State) (n : Nat) : State := s.setRegFld .fwStat 31 30 n

/-! ### The start of a slot (R362, R367, R371, R373) -/

/-- The ports that are up, as a set. -/
def State.upMask (s : State) : BitVec 20 :=
  BitVec.ofNat 20 (((List.range 20).filter fun l => s.regFld (.linkStat l) 31 28 == 3).foldl (fun a l => a + 2 ^ l) 0)

/-- Ends an activation's command, if it has one. -/
def State.endAct (s : State) (cmd : Option Nat) (status : Nat) : State :=
  match cmd with
  | some id => s.finish id status []
  | none => s

/-- The principal of a slot starts and begins to load the monitors, F0 first (R362); KIND shows the firmware restart (R373, R383;
DEDUCED, log 144). -/
def State.startSlot (s : State) (b : Bool) : State :=
  ((s.setRegBit .secBoot 31 b).setRegFld .fwMonstat 11 0 1).setRegFld .testStat 27 25 4

/-- The start of a fallback (R371): slot `t` is failed, the preferred slot runs, and the trial is over. -/
def State.startFallback (s : State) (a : Activation) (t : Bool) : State :=
  let s1 := (s.setRegFld (.fwSlot t) 31 29 2).startSlot s.prefSlot
  let s2 := ((s1.setRegBit .fwStat 28 true).setRegFld .fwStat 15 0 0).setPhase 2
  { s2 with fw := { s2.fw with act := some { a with fallback := true, started := true }, trialCmd := none } }

/-- The last stop of an activation (R367, R370, R371): the slot in question is verified and its principal runs, on trial from here on;
one that no longer verifies falls back at once. -/
def State.beginRun (s : State) (a : Activation) : State :=
  let other := !s.runSlot
  if a.fallback then s.startFallback a s.runSlot
  else if s.bundleOutcome (s.slot other) ≠ 0 then s.startFallback a other
  else
    let s1 := ((s.startSlot other).setRegFld .fwStat 15 0 60).setPhase 3
    { s1 with fw := { s1.fw with
      act := some { a with cmd := none, started := true }
      trialCmd := a.cmd
      before := s.upMask
      due0 := a.stopped0
      due1 := a.stopped1 } }

/-- Whether partition p stops at the bell that opens period index i of step n (R367, R371): any bell while the principal restarts, the
first bell of the named step, the first bell of the next step in a fallback. -/
def State.fwStops (s : State) (p : Bool) (n : BitVec 64) (i : Nat) : Bool :=
  match s.fw.act with
  | some a => a.started || (if p then a.wait1 else a.wait0)
      && (a.anyBell || (decide (i = 0) && (a.fallback || (if p then a.step1 else a.step0) == n)))
  | none => false

/-- Partition p is no longer waited for: its bells do not run (R366), or it stopped for the activation (`stop`, R367). With the
last one
the slot starts. -/
def State.fwArrive (s : State) (p stop : Bool) : State :=
  match s.fw.act with
  | some a =>
    let b := if p then { a with wait1 := false, stopped1 := a.stopped1 || stop }
      else { a with wait0 := false, stopped0 := a.stopped0 || stop }
    let s1 := { s with fw := { s.fw with act := some b } }
    if b.started || b.wait0 || b.wait1 then s1 else s1.beginRun b
  | none => s

end Sys2Proof.Machine
end

