-- ==== Sys2Proof/Machine/Bells.lean ====
section
/-! DEFINITION. Bells (R145 to R168): attribution and records, step start, commit (R226, R227), watch records (R286 to
R290), marks at a bell (R256), and the commands BELL, HOLDOVER_QUANTUM_END, HOLDOVER_LIMIT and RECESS_START. -/

set_option Elab.async false

namespace Sys2Proof.Machine

/-! ### Attribution (R160, R162) -/

/-- The wait at which the search stops, from tile t: the latest wait of each unit is followed into the unit that feeds
it. -/
def State.rootWait (s : State) : Nat → Nat → Wait
  | 0, t => { s.tile t with }.wait
  | n + 1, t =>
    let w := (s.tile t).wait
    if w.cause ≠ 0 ∧ w.src ≠ 0xFFFF then
      let f := w.src.toNat
      let up := s.rootWait n f
      if up.cause = 0 then { up with tile := BitVec.ofNat 16 f } else up
    else if w.cause = 0 then { w with tile := BitVec.ofNat 16 t } else w

/-- The wait that a holdover record of partition p names: of the tile that completed last, or the part's own (no such
tile), with the cause that it had while it lasted; a unit without a wait has cause 0x05, and the first period of a run, attempt or
resumption turns a late token or credit into start skew, 0x07. -/
def State.attribute (s : State) (p : Bool) (lastTile : Nat) : Wait :=
  let x := s.part p
  let w := if lastTile < 2500 then s.rootWait 2500 lastTile else x.late
  if w.cause = 0 then { w with cause := 5 }
  else if x.skew ∧ (w.cause = 1 ∨ w.cause = 3) then { w with cause := 7 }
  else w

/-- The 32 bytes of a holdover record (R161). An extension above 16 bits reads 0xFFFF (DESIGN CHOICE, log 121). -/
def State.holdBytes (s : State) (p : Bool) (w : Wait) (ext : Nat) : Bytes :=
  toLE 6 (s.pnum p).toNat ++ toLE 1 (s.attempt p) ++ [w.cause] ++ toLE 2 (Nat.min 65535 ext) ++ toLE 2 w.queue.toNat
    ++ [w.port, w.lane, w.seat] ++ toLE 1 (b2n p) ++ toLE 2 w.room.toNat ++ toLE 2 w.tile.toNat ++ toLE 4 w.cyc
    ++ toLE 4 (Nat.min 0xFFFFFFFF w.len) ++ toLE 4 ((s.step64 p).toNat % 2 ^ 32)

/-- The quanta of a late sender added to the step's list (R164). -/
def addLate (ls : List (Byte × BitVec 16 × Byte × Nat)) (w : Wait) (n : Nat) : List (Byte × BitVec 16 × Byte × Nat) :=
  if ls.any (fun e => e.1 == w.seat && e.2.1 == w.room && e.2.2.1 == w.port) then
    ls.map fun e => if e.1 == w.seat && e.2.1 == w.room && e.2.2.1 == w.port then (e.1, e.2.1, e.2.2.1, e.2.2.2 + n) else e
  else ls ++ [(w.seat, w.room, w.port, n)]

/-- The pace figures of a step with a holdover of n quanta. -/
def Pace.hold (a : Pace) (w : Wait) (n : Nat) : Pace :=
  let c := w.cause.toNat
  let b := { a with held := a.held + 1 }
  let b := if c = 4 ∨ c = 5 ∨ c = 9 then { b with inside := b.inside + n }
    else if c ≤ 3 then { b with links := b.links + n } else { b with other := b.other + n }
  if (c = 1 ∨ c = 2 ∨ c = 7) ∧ w.seat ≠ 0xFF then { b with late := addLate b.late w n } else b

/-- A unit that is late without a wait of its own: mark bit 5 and record 0x0060 (R162, R255, R277). -/
def State.lateUnit (s : State) (p : Bool) (w : Wait) (b : Bytes) : State :=
  let t := w.tile.toNat
  let s1 := if t < 2500 then s.markTile t 5 else s.markPart p 5
  s1.logErr { code := 0x0060, cls := 3, kind := if t < 2500 then 0 else 4, unit := if t < 2500 then tileUnit t else [0, 0, 0],
              part := some p, loc := t, syn := b.take 16 }

/-- Writes the holdover record of the current period (action 1 of R156). -/
def State.recordHold (s : State) (p : Bool) (lastTile : Nat) : State :=
  let n := (s.part p).holdQ
  let w := s.attribute p lastTile
  let b := s.holdBytes p w n
  let s1 := s.bellRecord p b
  let x := s1.part p
  let s2 := s1.setPart p { x with pace := x.pace.hold w n }
  let s3 := s2.setReg (.bellHcount p) (BitVec.ofNat 32 (satAdd 0xFFFFFFFF (s2.reg (.bellHcount p)).toNat n))
  if w.cause = 5 then s3.lateUnit p w b else s3

/-- Action 1 of R156 with the margin of the period (R164), the energy of its class and its power (R389). -/
def State.closePeriod (s : State) (p : Bool) (lastTile doneCyc energy power : Nat) : State :=
  let cls := s.regFld (.bellStat p) 3 0
  -- the class values applied at the bell that opened the period (R156, R166)
  let len := (s.part p).curLen
  let last := 256 * (len + s.regFld (.powerPart p) 31 16) - 1
  let held := decide (0 < (s.part p).holdQ)
  let s1 := if held then s.recordHold p lastTile else s
  let m := if held then 0 else last - doneCyc
  let s2 := s1.setRegFld (.bellMargin p) 23 0 (Nat.min (s1.regFld (.bellMargin p) 23 0) (Nat.min 0xFFFFFF m))
  let x := s2.part p
  let s3 := s2.setPart p { x with
    ec := Bank.set noReading x.ec cls (energy + 1)
    pace := { x.pace with quanta := x.pace.quanta + len } }
  s3.setRegFld (.powerPart p) 15 0 (Nat.min 65535 power)

/-! ### Completion of a period (R154, R226, R229, R260) -/

/-- Whether the part holds a good level-4 mark for every period of step n (R226, R258). -/
def State.marksHeld (s : State) (p : Bool) (l : Lesson) (n : BitVec 64) : Bool :=
  (List.range l.periods).all fun i => (s.part p).level4.any fun m => m.period == s.pnumOf p l.periods n i

/-- The room at offset o of this part's ring in a dimension, packed as in R161. -/
def State.roomAtOffset (s : State) (d o : Nat) : Nat :=
  let c := (roomCoord s.room d + o) % s.dim d
  let sh := 8 ^ (2 - d)
  s.room - roomCoord s.room d * sh + c * sh

/-- The first room of a dimension's line whose level-(d + 1) mark is missing: none where all are there. -/
def State.missingRoom (s : State) (x : Part) (d : Nat) (m : Mark) : Option Nat :=
  let ms := x.marksOf m (d + 1)
  if ms.all (·.from_.isSome) then none
  else
    let offs := s.offsets d ms
    ((List.range (s.dim d)).find? fun o => o != 0 && !offs.any fun e => e.1 == o).map (s.roomAtOffset d)

/-- The wait for marks (cause 0x08), naming the seat and room whose mark of the oldest incomplete period is missing: a seat of this
room, or, once the room is complete, a room of a line, whose marks all of its seats make: seat 0 of it is named (DESIGN CHOICE, log
111). -/
def State.markWait (s : State) (p : Bool) (l : Lesson) (cyc : Nat) : Wait :=
  let x := s.part p
  let own := x.marks.find? fun m => m.from_.isNone && m.level == 0 && !m.notice
  let seat := own.bind fun m => ((roomSeats l).map (s.actingSeat p)).find? fun n =>
    n != s.seat && !(x.marksOf m 0).any fun y => y.from_ == some (nearPort s.seat n)
  match seat with
  | some n => { cause := 8, cyc := cyc, seat := BitVec.ofNat 8 n, room := BitVec.ofNat 16 s.room }
  | none =>
    match own.bind fun m => [0, 1, 2].findSome? fun d => s.missingRoom x d m with
    | some r => { cause := 8, cyc := cyc, seat := 0, room := BitVec.ofNat 16 r }
    | none => { cause := 8, cyc := cyc, room := BitVec.ofNat 16 s.room }

/-- Whether a step commits at the bell that ends the current period (R215, R226): the commit period of step s + 1, with s
not yet committed. -/
def State.commits (s : State) (p : Bool) (l : Lesson) : Bool :=
  l.planFlag 2 (s.part p).idx && s.cstep64 p + 2 == s.step64 p

/-- The wait of a unit whose flits still stand at the gate of a queue that partition p's lesson binds: they leave with a credit of the
far end (R150, R154, R162). The tile is the one that sent the first of them. -/
def State.gateWait (s : State) (p : Bool) (l : Lesson) (cyc : Nat) : Option Wait :=
  l.queues.findSome? fun q =>
    match s.bindPort p q with
    | none => none
    | some n =>
      match Bank.get noFlits (s.port n).gate q.q with
      | [] => none
      | f :: _ => some { s.portWait { cause := 3, cyc := cyc } n q.q with tile := BitVec.ofNat 16 (f.sender / 16) }

/-- The wait of a mirror stream's frame for a credit of the receiver's gate (R229 item 6). -/
def State.mirrorWait (s : State) (p : Bool) (cyc : Nat) : Option Wait :=
  ((s.namedPorts p).find? fun n => (s.port n).late.any fun e => e.q == 191).map fun n => s.portWait { cause := 3, cyc := cyc } n 191

/-- The wait for a lane switch of a port that the partition's lesson names: no frame passes until it is complete, and what runs
past the
recess holds the bell (R154, R157, R196). The queue is that of the first data frame that waits for it. -/
def State.switchWait (s : State) (p : Bool) (cyc : Nat) : Option Wait :=
  (s.namedPorts p).findSome? fun n =>
    let y := s.port (s.txPort n)
    y.switching.map fun e =>
      { s.portWait { cause := 2, cyc := cyc } n 0 with
        lane := BitVec.ofNat 8 e.1
        queue := match y.txFrames.find? fun f => f.kind == 0 with
          | some f => BitVec.ofNat 16 f.queue.toNat
          | none => 0xFFFF }

/-- What keeps the bell of partition p from ringing, if anything. -/
def State.holdCause (s : State) (p : Bool) (l : Lesson) : Option Wait :=
  let x := s.part p
  let cyc := 256 * (x.curLen + s.regFld (.powerPart p) 31 16)
  let next := (x.idx + 1) % l.periods
  match (s.liveTiles p).find? fun t => (s.tile t).stalled with
  | some t => some (s.tile t).wait
  | none =>
    if let some w := s.switchWait p cyc then some w
    else if let some w := s.gateWait p l cyc then some w
    else if let some w := s.mirrorWait p cyc then some w
    else if s.commits p l && !s.marksHeld p l (s.step64 p - 1) then some (s.markWait p l cyc)
    else if next = l.firstUpdate ∧ !x.level4.any (fun m => decide (s.step64 p ≤ m.cstep + 1)) then some (s.markWait p l cyc)
    else if next = l.firstUpdate ∧ x.flip.isSome ∧ !x.allHeld then some (s.markWait p l cyc)
    else if next = l.firstUpdate ∧ x.refill then some { cause := 4, cyc := cyc, queue := BitVec.ofNat 16 mirrorQueue }
    else none

/-! ### Watch records -/

/-- Writes a watch record to its ring (R287, R292). -/
def State.watchRecord (s : State) (p : Bool) (b : Bytes) : State :=
  let x := s.part p
  let r := x.watchRing.push 262144 16383 b
  (s.setPart p { x with watchRing := r }).setReg (.watchRechead p) (BitVec.ofNat 32 (r.lost * 262144 + r.head))

/-- The zero run of a tensor that the store does not list. -/
def noRun : Nat → Nat := fun _ => 0

/-- The zero run of a tally after a committed step, and whether the step extended it (R290). -/
def nextRun (run thr : Nat) (c : Counts) : Nat × Bool :=
  if c.writes = 0 then (run, false)
  else if thr * c.writes ≤ c.zeroElem * 1000000 then (satAdd 65535 run 1, true) else (0, false)

/-- A silent-zero event: SILENT and TENSOR of WATCH_STAT, the event, the alert (R290, R291). -/
def State.silentZero (s : State) (p : Bool) (n : BitVec 64) (w run : Nat) (c : Counts) : State :=
  let s1 := (s.setRegBit (.watchStat p) 31 true).setRegFld (.watchStat p) 15 0 w
  (s1.watchEvent p (padTo 32 (toLE 8 n.toNat ++ [1, 0xFF] ++ toLE 2 w ++ toLE 2 run ++ [0, 0]
    ++ toLE 4 (c.zeroElem * 1000000 / c.writes)))).alert

/-- The record of one declared tensor at the commit of step n (R287, R290). -/
def State.tensorRecord (s : State) (p : Bool) (n : BitVec 64) (e : TensorEnt) : State :=
  let x := s.part p
  let c := Bank.get noCounts x.watch (watchKey n e.watch)
  let tally := decide (e.kind = 3)
  let thr := s.regFld (.watchZerothr p) 19 0
  let every := s.regFld (.watchZerorun p) 15 0
  let old := Bank.get noRun x.zeroRun e.watch
  let r := if tally then nextRun old thr c else (0, false)
  let hit := r.2 && decide (r.1 ≠ old) && decide (r.1 % every = 0)
  let s1 := s.setPart p { x with zeroRun := Bank.set noRun x.zeroRun e.watch r.1 }
  let s2 := if hit && s.regBit (.watchZerorun p) 31 then s1.silentZero p n e.watch r.1 c else s1
  s2.watchRecord p (toLE 8 n.toNat ++ toLE 2 e.watch ++ toLE 1 (b2n tally) ++ [c.maxCode, if tally then c.g else 0]
    ++ toLE 1 (c.flags.toNat % 8 / 4 * 4 + 2 * b2n hit + c.flags.toNat % 2) ++ toLE 2 r.1
    ++ toLE 8 c.writes ++ toLE 8 c.trueZero ++ toLE 8 c.bgZero ++ toLE 8 c.sat ++ toLE 8 c.nonfin
    ++ toLE 4 c.zeroElem ++ toLE 4 c.laneRange)

/-- The watch records of a committed step; its counters are final and leave the part (R286, R287). The zero runs before the step are
kept for a commit that is reverted (R267, R290). -/
def State.watchCommit (s : State) (p : Bool) (l : Lesson) (n : BitVec 64) : State :=
  let s1 := (l.tensors.filter fun e => decide (e.watch < 4096)).foldl (fun (acc : State) e => acc.tensorRecord p n e) s
  let x := s1.part p
  s1.setPart p { x with watch := Bank.clear x.watch (watchKey n 0) (watchKey (n + 1) 0), prevRun := (s.part p).zeroRun }

/-! ### Commit -/

/-- The present EDITION of every region, keyed 64·tile + region. -/
def State.editionsNow (s : State) (p : Bool) : Bank Word :=
  (s.lessonTiles p).foldl (fun (m : Bank Word) t =>
    (List.range 64).foldl (fun (m : Bank Word) n =>
      if s.regBit (.tileRegion t n) 31 then Bank.set noEdition m (t * 64 + n) (s.reg (.tileReged t n)) else m) m) []

/-- The mirror stream of a step (re)starts from its beginning (R228, R229). -/
def State.mirrorStart (s : State) (p : Bool) (n : BitVec 64) : State :=
  let x := s.part p
  (s.setPart p { x with flip := some n, flipEd := x.comEd, flipRun := x.zeroRun, inDone := false, allHeld := false, txPos := 0, rxPos := 0 }).setRegBit
    (.checkMirror p) 15 true

/-- Whether step n is a mirror step of the running job (R227). -/
def State.mirrorStep (s : State) (p : Bool) (l : Lesson) (n : BitVec 64) : Bool :=
  let m := s.regFld (.checkMirror p) 31 16
  decide (m ≠ 0) && decide (n.toNat % m = 0) && l.mirrors

/-- The commit of step n (R227, R269, R287). -/
def State.commit (s : State) (p : Bool) (l : Lesson) (n : BitVec 64) : State :=
  let s0 := { s with fw := if p then { s.fw with due1 := false } else { s.fw with due0 := false } }
  let s1 := (s0.setRegBit (.checkBank p) 31 (!s0.regBit (.checkBank p) 31)).setCstep64 p n
  let x := s1.part p
  let first := s1.pnum p - BitVec.ofNat 48 x.idx
  let s2 := s1.setPart p { x with
    prevEd := x.comEd, comEd := s1.editionsNow p, prevBank := true
    level4 := x.level4.filter fun m => decide ((m.period - first).toNat < 2 ^ 47) }
  let s3 := (s2.setRegFld (.checkRecall p) 31 24 0).watchCommit p l n
  if s3.mirrorStep p l n then s3.mirrorStart p n else s3

/-- What the bell that ends the commit period does beside its actions: the commit, or in a replay the restart of an
interrupted mirror stream (R226, R228). -/
def State.commitPeriod (s : State) (p : Bool) (l : Lesson) : State :=
  if s.commits p l then s.commit p l (s.step64 p - 1)
  else if l.planFlag 2 (s.part p).idx && (s.part p).flip == some (s.cstep64 p) then s.mirrorStart p (s.cstep64 p)
  else s

/-! ### The first bell of a step -/

/-- The pace report of the step that ended (R164). -/
def State.paceReport (s : State) (p : Bool) : State :=
  let x := s.part p
  let a := x.pace
  let top := a.late.foldl (fun (best : Byte × BitVec 16 × Byte × Nat) e => if best.2.2.2 < e.2.2.2 then e else best)
    (0xFF, 0xFFFF, 0xFF, 0)
  let sat := fun n : Nat => toLE 4 (Nat.min 0xFFFFFFFF n)
  let b := toLE 8 (s.step64 p).toNat ++ sat a.quanta ++ sat (s.reg (.bellHcount p)).toNat ++ sat a.inside ++ sat a.links
    ++ sat a.other ++ sat (s.reg (.bellLcount p)).toNat ++ sat (s.regFld (.bellMargin p) 23 0) ++ sat a.held ++ sat a.stale
    ++ [top.1] ++ toLE 2 top.2.1.toNat ++ [top.2.2.1] ++ sat top.2.2.2
  s.setPart p { x with paceRing := x.paceRing.push 1024 65535 (padTo 64 b) }

/-- A step's G that the store does not list: not fixed yet. Bit 8 says that it is fixed, bit 9 that it was clamped. -/
def noG : Nat → BitVec 10 := fun _ => 0

/-- The key of a tally tensor's G in a step. -/
def gKey (step : BitVec 64) (n : Nat) : Nat := step.toNat * 65536 + n

/-- The code byte of a tally's maximum, where the memory plan places one (R289), read with the outcome of R125; 0 where there is
none. -/
def State.codeByte (s : State) (l : Lesson) (e : TensorEnt) : Nat × State :=
  match (l.codes.find? fun c => c.watch == e.watch).bind fun c => (s.physTile l.cols c.row c.col).map fun t => (t, c.addr) with
  | none => (0, s)
  | some c =>
    let r := s.readCore (queueCtx c.1) false c.2 1
    (leNat r.1, r.2)

/-- G of a tally tensor in step n (R62): a replay uses the G of the original run; the first step of the run, the initial
G; a tally without a code byte keeps its G. -/
def State.fixG (s : State) (p : Bool) (l : Lesson) (n : BitVec 64) (e : TensorEnt) : BitVec 10 × State :=
  let m := (s.part p).gExp
  let now := Bank.get noG m (gKey n e.n)
  let word := fun (r : Int × Bool) => BitVec.ofNat 10 (512 * b2n r.2 + 256 + (r.1 % 256).toNat)
  let prev := Bank.get noG m (gKey (n - 1) e.n)
  if now ≠ 0 then (now, s)
  else if prev = 0 then (word (nextG 0 (signed 8 e.g0.toNat) 0), s)
  else
    let c := s.codeByte l e
    (word (nextG c.1 (signed 8 prev.toNat) e.h), c.2)

/-- Writes the tally grid entries of step n and the clamps of G (R62, R90, R285). -/
def State.writeGrid (s : State) (p : Bool) (l : Lesson) (n : BitVec 64) : State :=
  let ts := (l.tensors.filter fun e => e.kind == 3)
  let s1 := ts.foldl (fun (acc : State) e =>
    let r := acc.fixG p l n e
    let g := r.1
    let x := r.2.part p
    let key := watchKey n e.watch
    let c := Bank.get noCounts x.watch key
    let hit := bit g.toNat 9
    let c1 := { c with g := BitVec.ofNat 8 g.toNat, sat := satAdd counterMax c.sat (b2n hit), flags := if hit then c.flags ||| 1 else c.flags }
    r.2.setPart p { x with
      gExp := Bank.set noG x.gExp (gKey n e.n) g
      watch := if e.watch < 4096 then Bank.set noCounts x.watch key c1 else x.watch }) s
  let words := ((ts.take 16).map fun e =>
    BitVec.ofNat 32 (2 ^ 31 + (Bank.get noG (s1.part p).gExp (gKey n e.n)).toNat % 256 * 2 ^ 23 + e.k % 64 * 2 ^ 17 + e.watch % 65536))
  (s1.lessonTiles p).foldl (fun (acc : State) t =>
    (List.range 16).foldl (fun (a : State) i => a.setReg (.tileTgrid t i) ((words[i]?).getD 0)) acc) s1

/-- The value in effect of a scalar slot at step n: the latest step not beyond n, the later of two for one step (R303). -/
def scalarAt (xs : List (Nat × BitVec 64 × Word)) (slot : Nat) (n : BitVec 64) : Option Word :=
  (xs.foldl (fun (acc : Option (BitVec 64 × Word)) e =>
    if e.1 = slot ∧ e.2.1 ≤ n then
      match acc with
      | some b => if e.2.1 < b.1 then acc else some e.2
      | none => some e.2
    else acc) none).map (·.2)

/-- Writes a word into every lesson tile's desk memory at one address. -/
def State.deskWord (s : State) (p : Bool) (addr : Nat) (w : Word) : State :=
  (s.lessonTiles p).foldl (fun (acc : State) t => acc.writeCore (queueCtx t) false addr (toLE 4 w.toNat)) s

/-- The run-time scalars of step n (R303). -/
def State.writeScalars (s : State) (p : Bool) (l : Lesson) (n : BitVec 64) : State :=
  (l.tensors.filter fun e => e.kind == 5).foldl (fun (acc : State) e =>
    match scalarAt (s.part p).scalars e.slot n with
    | some w => acc.deskWord p e.saddr w
    | none => acc) s

/-- The switch of the edition pointer at the first bell of step S, and the admission word of step n (R334, R337). -/
def State.letIn (s : State) (p : Bool) (l : Lesson) (n : BitVec 64) : State :=
  let x := s.part p
  let s1 := match x.wave with
    | some w =>
      if w.turned ∨ n < w.s then s
      else if w.left.isEmpty then
        ((s.setPart p { x with wave := none, stagedEd := none, released := true }).setRegBit (.checkEdwave p) 31 false).setReg
          (.checkEdptr p) (s.reg (.checkEdptr p) + 1)
      else (s.setPart p { x with wave := some { w with turned := true } }).setReg (.checkEdptr p) (s.reg (.checkEdptr p) + 1)
    | none => s
  if l.serving ∧ l.admLen ≠ 0 then s1.deskWord p (l.admBase + 4 * (n.toNat % l.admLen)) (s1.reg (.checkEdptr p)) else s1

/-- Action 3 of R156: the first bell of step n. -/
def State.stepStart (s : State) (p : Bool) (l : Lesson) (n : BitVec 64) (ended : Bool) : State :=
  let s1 := if ended then s.paceReport p else s
  let x := s1.part p
  let moved := x.remap.foldl (fun (acc : State) t => acc.rotate t) (s1.setPart p { x with remap := [], pace := {} })
  let s2 := (moved.stepReset (moved.lessonTiles p)).setStep64 p n
  let s3 := ((s2.setReg (.bellHcount p) 0).setReg (.bellLcount p) 0).setRegFld (.bellMargin p) 23 0 0xFFFFFF
  (((s3.writeGrid p l n).writeScalars p l n).letIn p l n).waveOpen p

/-! ### Opening a period -/

/-- Actions 6 and 7 of R156: the throttle and the start of the period at the partition's index. -/
def State.openPeriod (s : State) (p : Bool) (l : Lesson) : State :=
  let i := (s.part p).idx
  let cls := l.classOf i
  let s1 := s.fixThrottle p cls (decide (i + 1 = l.periods))
  let s2 := s1.setReg (.bellStat p) (setFld (setFld (s1.reg (.bellStat p)) 31 30 2) 3 0 cls)
  let x := s2.part p
  s2.setPart p { x with
    holdQ := 0, inRecess := false, late := {}
    -- the first update period of a step begins to overwrite window 1 (R221, R231)
    prevBank := x.prevBank && decide (i < l.firstUpdate)
    curLen := s2.regFld (.bellPeriod p cls) 15 0
    -- after the last step of a run, periods 0 to c of one further step carry no timetabled instruction (R215)
    further := x.haltReq && s2.cstep64 p + 2 == s2.step64 p }

/-- The partition's bells stopped (RUN, HOLD and THROTTLE read 0). -/
def State.stopBells (s : State) (p : Bool) : State := s.setRegFld (.bellStat p) 31 29 0

/-- Action 5 of R156, or the stop of R367 in its place; otherwise the period opens. -/
def State.nextPeriod (s : State) (p : Bool) (l : Lesson) : State :=
  let x := s.part p
  match x.preReq with
  | some k =>
    let s1 := (s.stopBells p).setPart p { x with preReq := none, saving := some k }
    (s1.fwArrive p false).pauseChans p
  | none =>
    if s.fwStops p (s.step64 p) x.idx then
      ((s.stopBells p).setPart p { x with fwStop := true }).fwArrive p true
    else s.openPeriod p l

/-! ### Marks at a bell -/

/-- PENDING of CHECK_MARK: the periods whose level-4 mark is incomplete, shown saturating (R282). -/
def State.countPending (s : State) (p : Bool) (n : Nat) : State :=
  (s.setPart p { s.part p with pend := n }).setRegFld (.checkMark p) 12 0 (Nat.min 8191 n)

/-- A complete level-4 mark takes effect (R226, R258, R265, R267, R282): a bad one recalls; a good one is held, and shows
when every part holds its mirror target. -/
def State.settle4 (s : State) (p : Bool) (l : Lesson) (m : Mark) : State :=
  let x := s.part p
  match x.level4Of m with
  | none => s
  | some y =>
    if y.notice then s.tryAgree p l y
    else if y.cover.toNat ≠ jobParts l then s
    else
      let left := x.marks.filter fun k => !(k.period == m.period && k.attempt == m.attempt && k.notice == m.notice)
      let s1 := s.countPending p (x.pend - 1)
      let x := s1.part p
      if y.bad then (s1.setPart p { x with marks := left }).recall p y.causes (s1.pnum p) false
      else
        (s1.setPart p { x with
          marks := left
          level4 := x.level4 ++ [y]
          allHeld := x.allHeld || (y.mirror && x.flip.isSome) }).setReg (.checkMarkpnum p) (BitVec.ofNat 32 y.period.toNat)

/-- The part's own level-0 mark enters the tree and goes to its room (R256, R258); in twin mode the mark with the digest
goes to the twin first (R264). -/
def State.giveMark (s : State) (p : Bool) (l : Lesson) (m : Mark) : State :=
  let s1 := if m.bad then s.setRegBit (.checkMark p) 31 true else s
  (s1.ownMark p l m).settle4 p l m

/-- The port to this part's twin (R262). -/
def State.twinPort (s : State) (p : Bool) : Nat := nearPort s.seat (s.twinSeat p)

/-! ### The twin digest (R263) -/

/-- Sent frames in order of binding index, then sequence number. -/
def insertFrame (f : Nat × Nat × Bytes) : List (Nat × Nat × Bytes) → List (Nat × Nat × Bytes)
  | [] => [f]
  | g :: gs => if f.1 < g.1 ∨ (f.1 = g.1 ∧ f.2.1 < g.2.1) then f :: g :: gs else g :: insertFrame f gs

/-- The bytes of which the twin digest of the ending period is taken: data frames, then stash write lines by grid place. -/
def State.digestBytes (s : State) (p : Bool) : Bytes :=
  let x := s.part p
  let fs := x.digFrames.foldr insertFrame []
  let ls := (s.lessonTiles p).flatMap fun t => x.digLines.filter fun y : Nat × Nat × Bytes => y.1 == t
  (fs.flatMap fun y : Nat × Nat × Bytes => toLE 2 y.1 ++ toLE 2 y.2.1 ++ padTo 256 y.2.2)
    ++ ls.flatMap fun y : Nat × Nat × Bytes => toLE 8 y.2.1 ++ y.2.2

/-- The twin digest: the first 64 bits of SHA-384 (R263). -/
def State.twinDigest (s : State) (p : Bool) : BitVec 64 := BitVec.ofNat 64 (field (sha384 (s.digestBytes p)) 0 8)

/-- The part's mark of the period that ends (R256, R257): the causes of its tiles and its own, and in twin mode the
digest. -/
def State.endMark (s : State) (p : Bool) (l : Lesson) : Mark :=
  s.partMark p (s.pnum p) (s.part p).inDone false (s.periodCauses p) (if Lesson.twin l then s.twinDigest p else 0) (s.mstep64 p)

/-- The twin's digest mark of a period against this part's own (R264), once both are there: a difference makes the own mark
bad with bit 6 and is recorded; the own mark then goes to the room. -/
def State.twinTry (s : State) (p : Bool) (l : Lesson) (per : BitVec 48) : State :=
  let x := s.part p
  match x.twinOwn.find? (·.period == per),
      x.marks.find? fun y => y.period == per && y.level == 0 && !y.notice && y.from_ == some (s.twinPort p) with
  | some own, some y =>
    let s1 := s.setPart p { x with twinOwn := x.twinOwn.filter fun k => k.period != per }
    if own.twin = y.twin then s1.giveMark p l own
    else
      let s2 := (s1.setRegBit (.checkMark p) 28 true).logErr
        { code := 0x0070, cls := 1, kind := 4, part := some p, loc := per.toNat
          syn := toLE 8 own.twin.toNat ++ toLE 8 y.twin.toNat }
      s2.giveMark p l { own with bad := true, causes := own.causes ||| 64, badParts := 1, seat := BitVec.ofNat 8 s.seat }
  | _, _ => s

/-- Gives the mark of an ended period: outside twin mode into the tree; in twin mode to the twin, and the mark waits for
the twin's (R264). From here on the period counts as pending, and a bad mark shows (R282). -/
def State.sendEndMark (s0 : State) (p : Bool) (l : Lesson) (m : Mark) : State :=
  let s := (if m.bad then s0.setRegBit (.checkMark p) 31 true else s0).countPending p ((s0.part p).pend + 1)
  let m1 := { m with cstep := s.cstep64 p, mstep := s.mstep64 p }
  if Lesson.twin l then
    let x := s.part p
    ((s.setPart p { x with twinOwn := x.twinOwn ++ [m1] }).sendMark p m1 [s.twinPort p]).twinTry p l m1.period
  else s.giveMark p l m1

/-! ### The bell -/

/-- What a bell leaves of the ended period's marks: causes and digests of the next period start empty. -/
def State.startMarks (s : State) (p : Bool) : State :=
  let s1 := s.clearCauses p
  let x := s1.part p
  s1.setPart p { x with digFrames := [], digLines := [] }

/-- LESSON_HALT after a commit: the bells stop in committed state and the command ends (R301). -/
def State.haltNow (s : State) (p : Bool) : State :=
  let x := s.part p
  (((s.stopBells p).setPart p { x with haltReq := false }).fwArrive p false).finishFor 0x0203 p 0

/-- Sequence numbers of the ports that the lesson names count from 0 in every period (R151). -/
def State.freshSeq (s : State) (p : Bool) : State :=
  (s.namedPorts p).foldl (fun (acc : State) l => acc.setPort l { acc.port l with nextSeq := [], sendSeq := [] }) s

/-- The bell of partition p (R156). -/
def State.ringBell (s : State) (p : Bool) (l : Lesson) (lastTile doneCyc energy power : Nat) : State :=
  let mark0 := s.closePeriod p lastTile doneCyc energy power
  let m := mark0.endMark p l
  let did := mark0.commits p l
  let s1 := (mark0.startMarks p).commitPeriod p l
  let s2 := s1.applyAtBell p
  let x := s2.part p
  if did && x.haltReq then ((s2.freshTiles p).haltNow p).sendEndMark p l m
  else
    let i := (x.idx + 1) % l.periods
    let s3 := (s2.setPart p { x with idx := i, skew := false, noMax := false }).freshSeq p
    let s4 := s3.setPnum p (s3.pnum p + 1)
    -- a remap at this step boundary that finds too few usable units stops the job (R272, R281)
    if i = 0 ∧ s4.remapShort p then ((((s4.freshTiles p).stopBells p).stopJob p).fwArrive p false).sendEndMark p l m
    else
    let s5 := if i = 0 then s4.stepStart p l (s4.step64 p + 1) true else s4
    let s6 := s5.freshTiles p
    let y := s6.part p
    let s7 := match if i = l.firstUpdate then y.flip else none with
      | some n => s6.mirrorFlip p n
      | none => s6
    (s7.nextPeriod p l).sendEndMark p l m

end Sys2Proof.Machine
end

