-- ==== Sys2Proof/Machine/Link.lean ====
section
/-! DEFINITION. The link layer (R189 to R198): blocks, retry, lane switches, and the commands BLOCK_RECEIVED, NAK, PROBE,
LINK_SILENCE_TIMEOUT, LANE_FAILURE, LANE_CE_WINDOW, LANE_SWITCH_REQUEST and LANE_SWITCH_COMPLETE. -/

set_option Elab.async false

namespace Sys2Proof.Machine

/-! ### Lane map -/

/-- The slot of an active lane pair in LINK_LANEMAP (R211). -/
def State.laneSlot (s : State) (l lane : Nat) : Option Nat :=
  (List.range 4).find? fun k => s.regFld (.linkLanemap l) (3 * k + 5) (3 * k + 3) == lane

/-- The spare lane pair; 7 none. -/
def State.spareLane (s : State) (l : Nat) : Nat := s.regFld (.linkLanemap l) 2 0

/-- Whether a trained spare is available on a port. -/
def State.hasSpare (s : State) (l : Nat) : Bool := s.regBit (.linkStat l) 27 && decide (s.spareLane l ≠ 7)

/-- A lane event's error record (R277): lane, LINK_LANECE, MAPGEN. -/
def State.laneRec (s : State) (l lane : Nat) : State :=
  s.logErr { code := 0x0050, cls := 0, kind := 1, unit := toLE 1 l ++ toLE 1 lane ++ [0], part := s.portPart l, loc := lane,
             syn := toLE 4 (s.reg (.linkLanece l)).toNat ++ toLE 1 (s.port l).mapgen.toNat }

/-- A lost port: record 0x0052 with LINK_ERR and the cause of R194 (1 the same SEQ eight times, 2 a NAK beyond the
sender's blocks, 3 silence, 4 no spare lane), then its fence; a RESHARD whose lesson names the port fails (R253). -/
def State.portLost (s : State) (l lane cause : Nat) : State :=
  let s1 := (s.logErr { code := 0x0052, cls := 2, kind := 1, unit := toLE 1 l ++ toLE 1 lane ++ [0], part := s.portPart l, loc := l,
                        syn := toLE 4 (s.reg (.linkErr l)).toNat ++ toLE 1 cause }).fencePort l
  match s.portPart l with
  | some p => s1.finishOp 0x0205 (some p) 0x000A []
  | none => s1

/-- A retry or a lane switch begins on a port: what waits for a late token of the port waits for it (cause 0x02 with the lane: R157,
R162). -/
def State.hurtWaits (s : State) (l lane : Nat) : State :=
  let mark := fun (w : Wait) =>
    if w.cause = 1 ∧ s.txPort w.port.toNat = l then { w with cause := 2, lane := BitVec.ofNat 8 lane } else w
  let s1 := s.mapTiles ((s.tiles.map (·.1)).filter fun t => (s.tile t).stalled) fun x => { x with wait := mark x.wait }
  [false, true].foldl (fun (acc : State) p => acc.setPart p { acc.part p with late := mark (acc.part p).late }) s1

/-- The spare no longer available. -/
def State.dropSpare (s : State) (l : Nat) : State := (s.setRegFld (.linkLanemap l) 2 0 7).setRegBit (.linkStat l) 27 false

/-- The map change of a switch (R196): the spare takes the excluded lane's slot, SPARE becomes 7, MAPGEN rises, and the
switch is recorded. -/
def State.switchMap (s : State) (l lane : Nat) : State :=
  match s.laneSlot l lane with
  | none => s
  | some k =>
    if s.spareLane l = 7 then s else
    let s1 := (s.setRegFld (.linkLanemap l) (3 * k + 5) (3 * k + 3) (s.spareLane l)).dropSpare l
    let y := s1.port l
    ((s1.setPort l { y with mapgen := y.mapgen + 1, switching := some (lane, true) }).laneRec l lane).hurtWaits l lane

/-- Requests a switch on the spare lane pair; no block passes until it is complete (R196). -/
def State.requestSwitch (s : State) (l lane : Nat) : State :=
  let y := s.port l
  ((s.setPort l { y with switching := some (lane, false), degraded := none }).emit (.laneRequest l lane)).hurtWaits l lane

/-- A lane that waits degraded for a switch stays in use and is reported (R197). -/
def State.keepDegraded (s : State) (l : Nat) : State :=
  match (s.port l).degraded with
  | some d => (s.setPort l { s.port l with degraded := none }).laneRec l d
  | none => s

/-- A failed lane pair (R195, R197): the spare's failure is reported, and is a second failure while a switch to it is asked for; an
active lane takes the spare at once, and the port is lost without one. -/
def State.failLane (s : State) (l lane : Nat) : State :=
  if lane = s.spareLane l then
    let s1 := (s.dropSpare l).laneRec l lane
    if (s.port l).switching.isSome then s1.portLost l lane 4 else s1.keepDegraded l
  else if (s.laneSlot l lane).isNone then s
  else
    match (s.port l).switching with
    | some (n, _) => if n = lane then s else s.portLost l lane 4
    | none =>
      if !s.hasSpare l then s.portLost l lane 4
      else (if (s.port l).degraded = some lane then s else s.keepDegraded l).requestSwitch l lane

/-- A degraded lane pair (R195, R197): it stays in use and is reported where no spare is left for it, or a switch of another lane
is on;
it switches at once where no bells run on the port, else at the next recess. -/
def State.degradeLane (s : State) (l lane : Nat) : State :=
  let y := s.port l
  if (s.laneSlot l lane).isNone ∨ y.switching.any (fun w => w.1 == lane) ∨ y.degraded = some lane then s
  else if !s.hasSpare l ∨ y.degraded.isSome ∨ y.switching.isSome then s.laneRec l lane
  else if s.portRuns l then s.setPort l { y with degraded := some lane }
  else s.requestSwitch l lane

/-- Degraded lanes of the partition's ports switch at the start of a recess (R195); one whose port has lost its spare since stays in
use. -/
def State.recessSwitches (s : State) (p : Bool) : State :=
  (s.namedPorts p).foldl (fun (acc : State) l =>
    match (acc.port l).degraded with
    | some lane => if acc.hasSpare l then acc.requestSwitch l lane else acc.keepDegraded l
    | none => acc) s

/-! ### Retry -/

/-- A NAK sent in a link-control entry (R191, R193). -/
def State.sendNak (s : State) (l : Nat) (seq : BitVec 12) : State := s.sendControl l 1 (BitVec.ofNat 32 seq.toNat)

/-- Failures of a SEQ that the store does not list. -/
def noFails : Nat → Nat := fun _ => 0

/-- A failure of one SEQ, counted (R194): eight of the same lose the port unless a lane switch is on. -/
def State.failSeq (s : State) (l lane : Nat) (seq : BitVec 12) : State :=
  let y := s.port l
  let n := Bank.get noFails y.fails seq.toNat + 1
  let s1 := (s.setPort l { y with fails := Bank.set noFails y.fails seq.toNat n }).hurtWaits l lane
  if 8 ≤ n ∧ y.switching.isNone then s1.portLost l lane 1 else s1.sendNak l seq

/-- NAKs for the SEQs up to one that a received block shows to be skipped, counted as failures (R193). -/
def State.nakSkipped (s : State) (l lane : Nat) (seq : BitVec 12) : Nat → State
  | 0 => s
  | n + 1 =>
    let y := s.port l
    if y.rxTop = seq then s
    else ((s.setPort l { y with rxTop := y.rxTop + 1, reorder := Bank.set (fun _ => none) y.reorder y.rxTop.toNat none }).failSeq
      l lane y.rxTop).nakSkipped l lane seq n

/-- How many SEQs a port has yet to hand on before `seq`. -/
def Port.ahead (y : Port) (seq : BitVec 12) : Nat := (seq - y.rxSeq).toNat

/-- Whether a SEQ is one that the port still awaits: missing below the highest SEQ received. -/
def Port.missing (y : Port) (seq : BitVec 12) : Bool :=
  decide (y.ahead seq < y.ahead y.rxTop) && (Bank.get (fun _ => none) y.reorder seq.toNat).isNone

/-- A block that does not decode (R193 to R195): UNCORR rises; a stream or replay block is asked for again by its SEQ, and the SEQs
before it that are skipped with it; a lane that holds most errors of two failed blocks within 64 fails, and the switch that this
starts comes
before the count. The block is the one that was
sent: which block failed is what a receiver finds out by its place in the sequence (DESIGN CHOICE, log 109). -/
def State.badBlock (s : State) (l lane : Nat) (b : Block) : State :=
  let s1 := s.setRegFld (.linkErr l) 31 16 (satAdd 0xFFFF (s.regFld (.linkErr l) 31 16) 1)
  let y := s1.port l
  let near := y.bads.filter fun e => decide (y.rxCount - e.1 < 64)
  let again := near.any fun e => e.2 == lane
  let s2 := s1.setPort l { y with bads := near ++ [(y.rxCount, lane)], rxCount := y.rxCount + 1 }
  let up := (b.seq - y.rxTop).toNat
  let s3 := if again then s2.failLane l lane else s2
  if b.type = 0 ∧ up < 1024 then s3.nakSkipped l lane (b.seq + 1) (up + 1)
  else if (b.type = 0 ∨ b.type = 1) ∧ y.missing b.seq then s3.failSeq l lane b.seq
  else s3

/-- The length of a frame of a kind: header and payload (R191). -/
def frameLen (kind : Nat) : Nat := if kind = 0 ∨ kind = 5 ∨ kind = 6 then 272 else 64

/-- The frame that a byte string begins with (R151). -/
def frameOf (b : Bytes) : Frame :=
  let d := field b 10 2
  { digest := BitVec.ofNat 32 (field b 0 4), period := BitVec.ofNat 48 (field b 4 6), kind := BitVec.ofNat 3 (d / 8192),
    queue := BitVec.ofNat 13 d, seq := BitVec.ofNat 16 (field b 12 2), attempt := BitVec.ofNat 8 (field b 14 1),
    seat := BitVec.ofNat 5 (field b 15 1 / 8), payload := (b.drop 16).take (frameLen (d / 8192) - 16) }

/-- Cuts complete frames off a byte stream, at most n: the frames, and the bytes left. -/
def cutFrames : Nat → Bytes → List Frame × Bytes
  | 0, b => ([], b)
  | n + 1, b =>
    if b.length < 16 then ([], b)
    else
      let len := frameLen (field b 10 2 / 8192)
      if b.length < len then ([], b)
      else
        let r := cutFrames n (b.drop len)
        (frameOf b :: r.1, r.2)

/-- Hands on the frames of the blocks that follow in SEQ order (R193); idle frames end here (R192). -/
def State.handOn (s : State) (l : Nat) : Nat → State
  | 0 => s
  | n + 1 =>
    let y := s.port l
    match Bank.get (fun _ => none) y.reorder y.rxSeq.toNat with
    | none => s
    | some b =>
      let r := cutFrames 11 (y.rxBytes ++ padTo 640 b.body)
      let keep := r.1.filter fun f => f.kind != 3 && f.kind != 4
      (s.setPort l { y with
        reorder := Bank.set (fun _ => none) y.reorder y.rxSeq.toNat none
        fails := Bank.set noFails y.fails y.rxSeq.toNat 0
        rxSeq := y.rxSeq + 1, rxBytes := r.2, handed := y.handed ++ keep }).handOn l n

/-- The entries of a link-control block that are not empty: type and argument (R191). -/
def controlEntries (b : Bytes) : List (Byte × BitVec 32) :=
  ((List.range 80).map fun i =>
    let t : Byte := BitVec.ofNat 8 (field b (8 * i) 1)
    (t, BitVec.ofNat 32 (if t = 1 then field b (8 * i + 2) 2 else field b (8 * i + 4) 4))).filter fun e => e.1 != 0

/-- Takes a stream or replay block into the reorder buffer, and hands on what follows in SEQ order. -/
def State.takeBlock (s : State) (l : Nat) (b : Block) : State :=
  let y := s.port l
  (s.setPort l { y with reorder := Bank.set (fun _ => none) y.reorder b.seq.toNat (some b) }).handOn l 1024

/-- A decoded block (R190, R191, R193). A stream block beyond the reorder buffer's 1,024 counts as failed. The entries of a
link-control block are handed on as the commands NAK, PROBE and ECHO. -/
def State.goodBlock (s : State) (l lane : Nat) (b : Block) : State :=
  let y0 := s.port l
  let s0 := s.setPort l { y0 with rxCount := y0.rxCount + 1 }
  let up := (b.seq - y0.rxTop).toNat
  let s1 := if b.type != 1 && decide (up < 1024) then s0.nakSkipped l lane b.seq up else s0
  let y := s1.port l
  if b.type = 0 ∧ b.seq = y.rxTop then
    if y.ahead b.seq < 1024 then (s1.setPort l { y with rxTop := y.rxTop + 1 }).takeBlock l b
    else s1.nakSkipped l lane (b.seq + 1) 1
  else if b.type = 0 ∨ b.type = 1 then (if y.missing b.seq && decide (y.ahead b.seq < 1024) then s1.takeBlock l b else s1)
  else if b.type = 2 then s1.setPort l { y with control := y.control ++ controlEntries (padTo 640 b.body) }
  else s1

/-- Whether near and far ports are out of reset: from step 10 of a start, until the part is fenced (R271, R374, R377, R379). -/
def State.portsOut (s : State) : Bool :=
  decide (7 ≤ s.regFld .testStat 31 28) && decide (s.regFld .testStat 31 28 ≤ 9) && !s.pins.fenced

/-- An event of port l, 0 to 19: what it comes to, where the ports are out of reset; nothing else. -/
def onPort (l : Nat) (s r : State) : Host.Outcome State Fault Refusal :=
  if 20 ≤ l then .fault .noSuchUnit else .next (if s.portsOut then r else s)

/-- BLOCK_RECEIVED: a block that decodes, or not, and the lane that held most of its symbol errors (R193, R195). A dark
port receives nothing, and no block passes during a lane switch (R196). -/
def execBlockReceived (l : Nat) (r : Reception) (b : Block) (s : State) : Host.Outcome State Fault Refusal :=
  onPort l s (if s.regFld (.linkStat l) 31 28 = 0 ∨ (s.port l).switching.isSome then s
    else if r.ok then s.goodBlock l r.lane b
    else s.badBlock l r.lane b)

/-- A link-control entry that a block had handed on is taken. -/
def State.unControl (s : State) (l : Nat) (type : Byte) (arg : BitVec 32) : State :=
  s.setPort l { s.port l with control := (s.port l).control.erase (type, arg) }

/-- A NAK is answered with a replay of its SEQ ahead of further stream blocks; one that names a SEQ that the sender no
longer holds loses the port, unless a lane switch resolves it; a SEQ not yet sent is still to come (R193, R194). -/
def execNak (l : Nat) (seq : BitVec 12) (s0 : State) : Host.Outcome State Fault Refusal :=
  let s := s0.unControl l 1 (BitVec.ofNat 32 seq.toNat)
  let y := s.port l
  onPort l s0 (match y.sent.find? fun b => b.seq == seq with
    | some b => (s.setRegFld (.linkErr l) 15 0 (satAdd 0xFFFF (s.regFld (.linkErr l) 15 0) 1)).sendReplay l b
    | none => if y.switching.isSome ∨ (seq - y.txSeq).toNat < 2048 then s else s.portLost l 0xFF 2)

/-- A PROBE is answered with an ECHO of its stamp (R191, R207). -/
def execProbe (l : Nat) (stamp : BitVec 32) (s : State) : Host.Outcome State Fault Refusal :=
  onPort l s ((s.unControl l 2 stamp).sendControl l 3 stamp)

/-- No block decodes for 2 µs: the port is lost unless a lane switch resolves it (R194). -/
def execLinkSilenceTimeout (l : Nat) (s : State) : Host.Outcome State Fault Refusal :=
  onPort l s (if s.regFld (.linkStat l) 31 28 == 3 && (s.port l).switching.isNone then s.portLost l 0xFF 3 else s)

/-- A lane pair fails (R195). -/
def execLaneFailure (l lane : Nat) (s : State) : Host.Outcome State Fault Refusal := onPort l s (s.failLane l lane)

/-- The lane of the most corrected symbols, the lower of two, and its count. -/
def worst (counts : List Nat) : Nat × Nat :=
  counts.zipIdx.foldl (fun (b : Nat × Nat) x => if b.2 < x.1 then (x.2, x.1) else b) (0, 0)

/-- A window of 2^20 symbols ends: LINK_LANECE, and every lane above LINK_LANETHR is degraded, the worst first (R195,
R211). -/
def execLaneCeWindow (l : Nat) (counts : List Nat) (s : State) : Host.Outcome State Fault Refusal :=
  let w := worst (counts.take 5)
  let thr := s.regFld .linkLanethr 15 0
  let s1 := s.setReg (.linkLanece l) (BitVec.ofNat 32 (w.1 * 65536 + Nat.min 0xFFFF w.2))
  let past := (List.range 5).filter fun n => decide (thr < (counts[n]?).getD 0)
  let order := if past.contains w.1 then w.1 :: past.filter (· != w.1) else past
  onPort l s (order.foldl (fun (acc : State) n => acc.degradeLane l n) s1)

/-- The other end asks for a switch (R196, R197): it is acknowledged and the map changes. Both ends asking for one lane is
one switch; of two lanes, the lower takes the spare and the other is a failure without one. -/
def State.peerSwitch (s : State) (l lane : Nat) : State :=
  let ack := s.emit (.laneAck l lane)
  match (s.port l).switching with
  | some (n, done) =>
    if done then (if n = lane then ack else s.portLost l lane 4)
    else if n = lane then ack.switchMap l lane
    else (ack.switchMap l (Nat.min n lane)).portLost l (Nat.max n lane) 4
  | none => if s.hasSpare l then ack.switchMap l lane else s

/-- LANE_SWITCH_REQUEST (R196, R197). -/
def execLaneSwitchRequest (l lane : Nat) (s : State) : Host.Outcome State Fault Refusal := onPort l s (s.peerSwitch l lane)

/-- The new map is deskewed: the receiver asks for the first SEQ it has not delivered (R196). -/
def execLaneSwitchComplete (l : Nat) (s : State) : Host.Outcome State Fault Refusal :=
  onPort l s (match (s.port l).switching with
    | none => s
    | some (lane, done) =>
      let s1 := if done then s else s.switchMap l lane
      let y := s1.port l
      (s1.setPort l { y with switching := none, bads := [] }).sendNak l y.rxSeq)

end Sys2Proof.Machine
end

