-- ==== Sys2Proof/Machine/Frames.lean ====
section
/-! DEFINITION. Frames (R149 to R153, R170, R192, R204, R243 to R245): the checks of a receiving port, delivery into
streams, frame slots, the mirror stream (R229, R230), and the commands DATA_FRAME_RECEIVED, CREDIT_FRAME_RECEIVED,
MESH_CREDIT_RETURN, FRAME_SLOT, MIRROR_STREAM_COMPLETE and MIRROR_REFILL_COMPLETE. -/

set_option Elab.async false

namespace Sys2Proof.Machine

/-! ### Relays (R204) -/

/-- The port that a link queue's number names. -/
def queuePort (q : Nat) : Nat := (q - 4096) / 192

/-- Where a received frame is forwarded, unconsumed: from a forwarding far port to VIA, and from VIA to the far port whose
queues it names; a mark from VIA where no lesson of this part names that port, and a pigeonhole frame, which names no port
(DEDUCED, log 138). -/
def State.forwardTo (s : State) (port : Nat) (f : Frame) : Option Nat :=
  if 17 ≤ port ∧ s.relayOn port true then some (s.regFld (.linkRelay port) 4 0)
  else
    [17, 18, 19].find? fun l => s.relayOn l true && s.regFld (.linkRelay l) 4 0 == port
      && (if f.kind = 6 then true else if f.kind = 2 then (s.portPart port).isNone else queuePort f.queue.toNat == l)

/-- The port that a frame counts as arriving on: the relayed far port where VIA delivers for it. -/
def State.rxPort (s : State) (port : Nat) (f : Frame) : Nat :=
  let own := fun p : Bool => match s.lesson p with
    | some l => (s.roomPorts p l).contains port
    | none => false
  (([17, 18, 19].find? fun l => s.relayOn l false && s.regFld (.linkRelay l) 4 0 == port
    && (if f.kind = 2 then !own false && !own true else queuePort f.queue.toNat == l))).getD port

/-! ### Checks (R152) -/

/-- A frame fault's error record (R277): 0x0040. -/
def State.frameErr (s : State) (p : Bool) (f : Frame) (cls : Nat) : State :=
  s.logErr { code := 0x0040, cls := cls, kind := 2, unit := toLE 2 f.queue.toNat, part := some p, loc := f.queue.toNat,
             syn := headerBytes f }

/-- Whether a frame's attempt is older than the receiver's, modulo 256. -/
def staleAttempt (mine theirs : Nat) : Bool :=
  let d := (mine + 256 - theirs % 256) % 256
  decide (1 ≤ d) && decide (d ≤ 127)

/-- Whether a frame's attempt is newer than the receiver's. -/
def newerAttempt (mine theirs : Nat) : Bool := mine % 256 != theirs % 256 && !staleAttempt mine theirs

/-- A frame that a check drops, or that waits, or that goes on. -/
inductive Screen where
  | drop (s : State)
  | wait
  | pass
  deriving Repr

/-- The digest and attempt checks of R152, of every data, credit and mark frame of a running lesson. -/
def State.screen (s : State) (p : Bool) (port : Nat) (f : Frame) : Screen :=
  if f.digest ≠ s.lessonDigest p then .drop ((s.frameErr p f 2).fencePort port)
  else if staleAttempt (s.attempt p) f.attempt.toNat then
    let x := s.part p
    .drop (s.setPart p { x with pace := { x.pace with stale := x.pace.stale + 1 } })
  else if newerAttempt (s.attempt p) f.attempt.toNat then .wait
  else .pass

/-- The partition's frame is bad: cause bit 4 of the period (R152, R255). -/
def State.frameFault (s : State) (p : Bool) (f : Frame) : State := (s.markPart p 4).frameErr p f 1

/-! ### Delivery -/

/-- The 8-byte value that a packed 6-byte tally stands for (R243). -/
def unpackTally (v : Nat) : BitVec 64 :=
  let w : BitVec 48 := BitVec.ofNat 48 v
  if w = 0x800000000000 then marker else w.signExtend 64

/-- The flits that a frame's payload delivers under a transfer format (R149, R243). -/
def flitsIn (fmt n : Nat) (b : Bytes) : List Bytes :=
  if fmt = 2 then
    (List.range 5).map fun i => (List.range 8).flatMap fun j => toLE 8 (unpackTally (field b (48 * i + 6 * j) 6)).toNat
  else (List.range n).map fun i => padTo 64 ((b.drop (64 * i)).take 64)

/-- Slots in the order of their start: by bell quantum, then by slot (R170). -/
def slotInsert (b : SlotBind) : List SlotBind → List SlotBind
  | [] => [b]
  | c :: cs => if 78 * b.quantum + b.slot < 78 * c.quantum + c.slot then b :: c :: cs else c :: slotInsert b cs

/-- The flit count that the receive slots bind for the k-th frame of a queue in period index i (R170, R182): that of the k-th in the
order of their start; a frame beyond them brings 4 flits (DESIGN CHOICE, log 110). -/
def Lesson.rxFlits (l : Lesson) (q : QueueBind) (i k : Nat) : Nat :=
  match ((l.slots.filter fun b => b.recv && b.idx == q.idx && b.period == i).foldr slotInsert [])[k]? with
  | some b => b.flits
  | none => 4

/-! ### Mirror slots (R229) -/

/-- A frame of an incoming mirror stream, written into the target slot; with M = 1 the own snapshot is no longer whole. -/
def State.mirrorFrame (s : State) (p : Bool) (b : Bytes) : State :=
  let x := s.part p
  let s1 := s.putStash p (s.slotBase p (s.targetSlot p) + x.rxPos) b
  let s2 := (s1.setPart p { s1.part p with rxPos := x.rxPos + 256 }).setRegBit (.checkMirror p) 14 true
  if s.mirrorOne p then s2.setRegBit (.checkMirror p) 13 false else s2

/-- Whether a restoration runs in partition p (R129, R231): its rebuild, or the hold that follows it. -/
def State.restoring (s : State) (p : Bool) : Bool :=
  match (s.part p).rcl with
  | some r => r.phase != .agreement
  | none => false

/-- A frame of a restoration's stream (R129, R231): from the next seat, lines of the neighbour mirror for an active bank that was lost;
from the previous seat, its state for the neighbour-mirror slot. -/
def State.restoreFrame (s : State) (p : Bool) (l : Lesson) (port : Nat) (b : Bytes) : State :=
  let x := s.part p
  if port = nearPort s.seat (s.mirrorSeat p l) then
    match x.healPos with
    | none => s
    | some n =>
      let s1 := s.putStash p (s.bankBase p + n) (b.take (l.mirrorBytes - n))
      s1.setPart p { s1.part p with healPos := if l.mirrorBytes ≤ n + 256 then none else some (n + 256) }
  else if port = nearPort s.seat (s.mirroredSeat p l) then
    let s1 := s.putStash p (s.neighbourBase p + x.rxPos) b
    s1.setPart p { s1.part p with rxPos := x.rxPos + 256 }
  else s

/-! ### Receiving data frames -/

/-- Puts a data frame's flits on their way to the bound stream; none while the gate lacks mesh credits (R424). -/
def State.deliver (s : State) (l : Lesson) (i port : Nat) (q : QueueBind) (f : Frame) : Option State :=
  match s.physTile l.cols q.row q.col with
  | none => some s
  | some t =>
    let y := s.port port
    let k := f.seq.toNat
    let fl := flitsIn q.fmt (l.rxFlits q i k) (padTo 256 f.payload)
    let cr := Bank.get fullCredit y.gateCred q.q
    if cr < fl.length then none
    else
      let s1 := s.setPort port { y with
        gateCred := Bank.set fullCredit y.gateCred q.q (cr - fl.length)
        gateOut := Bank.set (fun _ => []) y.gateOut q.q (Bank.get (fun _ => []) y.gateOut q.q ++ [fl.length]) }
      some { s1 with mesh := s1.mesh ++ fl.map fun b => (t, q.stream, ⟨b, gateSender port q.q⟩) }

/-- One data frame at its port (R152): the part after it, and whether it waits in its queue. -/
def State.dataFrame (s : State) (p : Bool) (l : Lesson) (port : Nat) (f : Frame) : State × Bool :=
  match s.screen p port f with
  | .drop s1 => (s1, false)
  | .wait => (s, true)
  | .pass =>
    let x := s.part p
    let d := (f.period - s.pnum p).toNat
    if s.restoring p ∧ port < 17 ∧ f.queue.toNat = 4096 + 192 * port + 191 then
      ((s.restoreFrame p l port (padTo 256 f.payload)).linkCredit p port 191, false)
    else if d = 0 then
      if !s.running p && !s.rebuilding p then (s, true)
      else
        match l.queues.find? fun q => q.row != 0xFF && q.q == (f.queue.toNat - 4096) % 192 && s.bindPort p q == some port
          && queuePort f.queue.toNat == port with
        | none => (s.markPart p 4, false)
        | some q =>
          let y := s.port port
          let want := Bank.get noSeq y.nextSeq q.q
          if q.q = 191 ∧ !q.far then
            if x.refill ∧ s.mirrorOne p then (s, true)
            else
              let s1 := s.setPort port { y with nextSeq := Bank.set noSeq y.nextSeq q.q (f.seq + 1) }
              let s2 := if f.seq = want then s1 else s1.frameFault p f
              ((s2.mirrorFrame p (padTo 256 f.payload)).linkCredit p port q.q, false)
          else
            match s.deliver l x.idx port q f with
            | none => (s, true)
            | some s1 =>
              let z := s1.port port
              let s2 := s1.setPort port { z with nextSeq := Bank.set noSeq z.nextSeq q.q (f.seq + 1) }
              (if f.seq = want then s2 else s2.frameFault p f, false)
    else if d < 2 ^ 47 then (s, true)
    else (s.frameFault p f, false)

/-- Takes the waiting frames of a port in order; a queue whose frame waits holds the frames behind it. -/
def State.drainPort (s : State) (port : Nat) : State :=
  match s.portPart port with
  | none => s
  | some p =>
    match s.lesson p with
    | none => s
    | some l =>
      let fs := (s.port port).waiting
      let s0 := s.setPort port { s.port port with waiting := [] }
      let r := fs.foldl (fun (acc : State × List Frame) f =>
        if f.kind ≠ 0 ∨ acc.2.any (fun g => g.queue == f.queue) then (acc.1, acc.2 ++ [f])
        else
          let q := acc.1.dataFrame p l port f
          if q.2 then (q.1, acc.2 ++ [f]) else (q.1, acc.2)) (s0, [])
      r.1.setPort port { r.1.port port with waiting := r.2 ++ (r.1.port port).waiting }

/-- A frame that the link layer had handed on is taken from its port. -/
def State.unhand (s : State) (port : Nat) (f : Frame) : State :=
  let y := s.port port
  s.setPort port { y with handed := y.handed.erase f }

/-- A permute frame of queue 190 while a RESHARD of its partition runs (R251): a frame of another digest fences the port as in R152;
one of another period or attempt is discarded. -/
def State.shardFrame (s : State) (p : Bool) (port : Nat) (f : Frame) : State :=
  if f.digest ≠ s.lessonDigest p then (s.frameErr p f 2).fencePort port
  else if f.period ≠ 0 ∨ f.attempt ≠ 0 then s
  else
    let x := s.part p
    s.setPart p { x with shardIn := x.shardIn ++ [(port, f.seq.toNat, padTo 256 f.payload)] }

/-- A data frame received on a port. -/
def State.receiveData (s : State) (port0 : Nat) (f : Frame) : State :=
  let s1 := s.unhand port0 f
  if !s1.carries port0 then s1
  else
    match s1.forwardTo port0 f with
    | some o => s1.sendFrame o f
    | none =>
      let port := s1.rxPort port0 f
      match s1.portPart port with
      | none => s1
      | some p =>
        if !s1.lessonRuns p then
          (if (s1.cmdOf 0x0205 (some p)).isSome && (f.queue.toNat - 4096) % 192 == 190 then s1.shardFrame p port f else s1)
        else (s1.setPort port { s1.port port with waiting := (s1.port port).waiting ++ [f] }).drainPort port

/-- DATA_FRAME_RECEIVED (R152). -/
def execDataFrameReceived (port : Nat) (f : Frame) (s : State) : Host.Outcome State Fault Refusal :=
  onPort port s (s.receiveData port f)

/-- The credits of a credit frame: entries of index and count (R192). -/
def creditEntries (b : Bytes) : List (Nat × Nat) :=
  ((List.range 24).map fun i => (field b (2 * i + 1) 1, field b (2 * i) 1)).filter fun e => decide (0 < e.2)

/-- Returned credits, never beyond the depth. -/
def State.addCredits (s : State) (port : Nat) (es : List (Nat × Nat)) : State :=
  es.foldl (fun (acc : State) e =>
    let y := acc.port port
    acc.setPort port { y with credits := Bank.set fullLink y.credits e.1 (satAdd linkDepth (Bank.get fullLink y.credits e.1) e.2) }) s

/-- The link queue of the mirror's stream, in no tile's binding (R229). -/
def mirrorBind : QueueBind := ⟨0xFFFF, false, 191, 0, 0, 0, 0, 0⟩

/-- The binding of the mirror's link queue on a port: the lesson's, whose index the twin digest takes (R230, R263). -/
def State.mirrorQueue (s : State) (p : Bool) (l : Lesson) (port : Nat) : QueueBind :=
  (l.queues.find? fun q => q.q == 191 && !q.far && s.bindPort p q == some port).getD mirrorBind

/-- A slot's frame of the mirror's stream leaves under its header: 256 bytes of window 0 at the stream's position (R229, R230). An
uncorrectable line of the active bank recalls the step (R128). -/
def State.mirrorGo (s : State) (p : Bool) (l : Lesson) (port : Nat) (e : LateFrame) : State :=
  let total := l.mirrorBytes
  let pos := (s.part p).txPos
  let r := s.readLines p (s.bankBase p + pos) 256
  if !r.2.1.isEmpty then r.2.2.recall p 2 (s.pnum p) false
  else
    let s1 := r.2.2.setPart p { r.2.2.part p with txPos := pos + 256 }
    let s2 := s1.sendData p port (s.mirrorQueue p l port) e.period e.seq (padTo 256 (r.1.take (total - pos)))
    if total ≤ pos + 256 then s2.setRegBit (.checkMirror p) 15 false else s2

/-- The mirror's frames whose slots have passed leave while credits last, at most n (R229 item 6). -/
def State.mirrorOut (s : State) (p : Bool) (l : Lesson) (port : Nat) : Nat → State
  | 0 => s
  | n + 1 =>
    let y := s.port port
    match y.late.find? fun e => e.q == mirrorBind.q with
    | none => s
    | some e =>
      if Bank.get fullLink y.credits mirrorBind.q = 0 then s
      else ((s.setPort port { y with late := y.late.erase e }).mirrorGo p l port e).mirrorOut p l port n

/-- A slot of the mirror's queue: the next 256 bytes of window 0 until the stream ends; without a credit the frame waits at its
port (R229, R230). -/
def State.mirrorSlot (s : State) (p : Bool) (l : Lesson) (port : Nat) : State :=
  let owed := ((s.port port).late.filter fun e => e.q == mirrorBind.q).length
  if !s.regBit (.checkMirror p) 15 then s
  else if l.mirrorBytes ≤ (s.part p).txPos + 256 * owed then (if owed = 0 then s.setRegBit (.checkMirror p) 15 false else s)
  else
    let r := s.takeSeq port mirrorBind
    let y := r.2.port port
    (r.2.setPort port { y with late := y.late ++ [⟨mirrorBind.q, 4, s.pnum p, r.1⟩] }).mirrorOut p l port (owed + 1)

/-- Frames whose slots have passed leave with the credits that a port now has: those of its queues, then the mirror's (R150, R170). -/
def State.creditsIn (s : State) (p : Bool) (l : Lesson) (port : Nat) : State :=
  let s1 := (l.queues.filter fun q => s.bindPort p q == some port && !(q.q == 191 && !q.far)).foldl (fun (acc : State) q =>
    acc.lateOut p port q) s
  s1.mirrorOut p l port (s1.port port).late.length

/-- A substitute that returns credits has taken its seat (R231, R274). -/
def State.heard (s : State) (p : Bool) (port : Nat) : State :=
  let x := s.part p
  s.setPart p { x with awaited := x.awaited.filter fun k => nearPort s.seat k != port }

/-- A credit frame received on a port (R152, R192); one whose destination queue does not name the port is discarded, and the mark is
bad. -/
def State.receiveCredit (s : State) (port0 : Nat) (f : Frame) : State :=
  let s1 := s.unhand port0 f
  if !s1.carries port0 then s1
  else
    match s1.forwardTo port0 f with
    | some o => s1.sendFrame o f
    | none =>
      let port := s1.rxPort port0 f
      match s1.portPart port with
      | none => s1
      | some p =>
        if !s1.lessonRuns p then s1
        else
          match s1.screen p port f with
          | .drop s2 => s2
          | .wait => s1.setPort port { s1.port port with waiting := (s1.port port).waiting ++ [f] }
          | .pass =>
            if f.queue.toNat ≠ 4096 + 192 * port then s1.markPart p 4
            else
              let s2 := (s1.addCredits port (creditEntries (padTo 48 f.payload))).heard p port
              match s2.lesson p with
              | none => s2
              | some l => s2.creditsIn p l port

/-- CREDIT_FRAME_RECEIVED (R192). -/
def execCreditFrameReceived (port : Nat) (f : Frame) (s : State) : Host.Outcome State Fault Refusal :=
  onPort port s (s.receiveCredit port f)

/-- One flit that a port gate delivered has been read: with the last of its frame the link queue's credit returns to the sender of
the frame (R150, R171). -/
def State.gateRead (s : State) (port q : Nat) : State :=
  let y := s.port port
  match Bank.get (fun _ => []) y.gateOut q with
  | [] => s
  | n :: ns =>
    let s1 := s.setPort port { y with gateOut := Bank.set (fun _ => []) y.gateOut q (if n ≤ 1 then ns else (n - 1) :: ns) }
    match s.portPart port with
    | some p => if n ≤ 1 then s1.linkCredit p port q else s1
    | none => s1

/-- A credit reaches the sender it returns to: a tile's outbound stream, or a queue of a port gate (R150, R424), whose waiting
frames then go on. -/
def execMeshCreditReturn (toPort : Bool) (sender st : Nat) (s : State) : Host.Outcome State Fault Refusal :=
  if (toPort && (decide (20 ≤ sender) || decide (192 ≤ st))) || (!toPort && (decide (2500 ≤ sender) || decide (16 ≤ st))) then
    .fault .noSuchUnit
  else
    let key := if toPort then gateSender sender st else tileSender sender st
    let n := Bank.get (fun _ => 0) s.meshCred key
    if n = 0 then .next s
    else
      let s1 := { s with meshCred := Bank.set (fun _ => 0) s.meshCred key (n - 1) }
      if toPort then
        let y := s1.port sender
        .next (((s1.setPort sender { y with
          gateCred := Bank.set fullCredit y.gateCred st (satAdd streamDepth (Bank.get fullCredit y.gateCred st) 1) }).gateRead sender st).drainPort sender)
      else
        let x := s1.tile sender
        .next (s1.setTile sender { x with outCred := Bank.set fullCredit x.outCred st (satAdd streamDepth (Bank.get fullCredit x.outCred st) 1) })

/-! ### Sending data frames -/

/-- A slot of a port on which this part sends a restoration's stream: its next 256 bytes on the mirror's link queue (R129, R231). A
source line that is uncorrectable ends the stream; in the active bank it recalls (R128). -/
def State.restoreSlot (s : State) (p : Bool) (l : Lesson) (port base pos : Nat) : State :=
  let total := l.mirrorBytes
  if Bank.get fullLink (s.port port).credits 191 = 0 then s
  else
    let r := s.readLines p (base + pos) 256
    let more := decide (pos + 256 < total) && r.2.1.isEmpty
    let x := r.2.2.part p
    let rest := x.restores.filter fun e => e.1 != port
    let s1 := r.2.2.setPart p { x with restores := if more then rest ++ [(port, base, pos + 256)] else rest }
    let s2 := if more || base != s.bankBase p then s1 else s1.setRegBit (.checkMirror p) 15 false
    if r.2.1.isEmpty then
      s2.leave p port mirrorBind (padTo 256 (r.1.take (total - pos)))
    else if s.guarded p (base + pos) then s2.recall p 2 (s.pnum p) false
    else s2

/-- A timetabled frame slot of a port starts (R170): the queue that the lesson binds to it sends; a slot left unbound lets one
roll-call, management or pigeonhole frame start (R192). -/
def State.frameSlot (s : State) (port quantum slot : Nat) : State :=
  match s.portPart port with
  | none => s
  | some p =>
    match s.lesson p with
    | none => s
    | some l =>
      -- only marks travel in the further step after a run's last (R215)
      if !s.carries port || (s.part p).further || !(s.running p || s.restoring p) then s.flushSlot port true
      else if let some e := (if s.restoring p then (s.part p).restores.find? fun e => e.1 == port else none) then
        s.restoreSlot p l port e.2.1 e.2.2
      else
        match l.slots.find? fun b => !b.recv && b.slot == slot && b.quantum == quantum && b.period == (s.part p).idx
            && l.queues.any (fun q => q.idx == b.idx && s.bindPort p q == some port) with
        | none => s.flushSlot port true
        | some b =>
          match l.queues.find? fun q => q.idx == b.idx with
          | none => s
          | some q => if q.q = 191 ∧ !q.far then s.mirrorSlot p l port else s.sendSlot p port q b.flits

/-- FRAME_SLOT (R170): a port has slots 0 to 77 in a quantum (R149). -/
def execFrameSlot (port quantum slot : Nat) (s : State) : Host.Outcome State Fault Refusal :=
  if 78 ≤ slot then .fault .noSuchUnit else onPort port s (s.frameSlot port quantum slot)

/-! ### The mirror's ends -/

/-- The incoming mirror stream has landed whole (R229): the part's marks report it. -/
def execMirrorStreamComplete (p : Bool) (s : State) : Host.Outcome State Fault Refusal :=
  let x := s.part p
  if x.flip.isNone ∨ !s.regBit (.checkMirror p) 14 then .next s
  else .next ((s.setPart p { x with inDone := true, rxPos := 0 }).setRegBit (.checkMirror p) 14 false)

/-- The bank that holds step n of this part: window 0 for the committed step, window 1 for the step before it (R231). -/
def State.bankOf (s : State) (p : Bool) (n : BitVec 64) : Nat :=
  let b := s.regFld (.checkBank p) 20 0 * 65536
  s.window p (s.cstep64 p != n) b

/-- The refill of the own-snapshot slot ends (R229): it holds the part's state of the mirrored step; a stream that waited
for the slot goes on. An uncorrectable line of the source leaves the slot unfilled, and recalls the step where it lies in the
active bank (R128; log 108). -/
def execMirrorRefillComplete (p : Bool) (s : State) : Host.Outcome State Fault Refusal :=
  let x := s.part p
  if !x.refill then .next s
  else
    let n := s.regFld (.checkBanksize p) 20 0
    let r := s.copyPages p (s.bankOf p (s.mstep64 p)) (s.slotBase p (s.ownSlot p)) n
    if r.1 then .next (if s.cstep64 p = s.mstep64 p then r.2.recall p 2 (s.pnum p) false else r.2)
    else
    let s1 := r.2
    let s2 := (s1.setPart p { s1.part p with refill := false }).setRegBit (.checkMirror p) 13 true
    .next ((s2.namedPorts p).foldl (fun (acc : State) l => acc.drainPort l) s2)

end Sys2Proof.Machine
end

