-- ==== Sys2Proof/Machine/Period.lean ====
section
/-! DEFINITION. The events of a partition's time: BELL, HOLDOVER_QUANTUM_END, HOLDOVER_LIMIT and RECESS_START (R145, R154 to
R156). -/

set_option Elab.async false

namespace Sys2Proof.Machine

/-! ### Bells and holdovers -/

/-- What a recess begins with on the partition's ports: one alignment marker each (R191), but for a port on which a lane switch runs,
which no block passes (R196), and degraded lanes switch. -/
def State.recessPorts (s : State) (p : Bool) : State :=
  ((s.namedPorts p).foldl (fun (acc : State) l => if (acc.port l).switching.isSome then acc else acc.sendMarker l) s).recessSwitches p

/-- Corrected words of a partition's tiles are written back in a recess cycle, unless a port has written them, where no memory
instruction is in flight (R127). -/
def State.writeBack (s : State) (p : Bool) : State :=
  s.mapTiles ((s.tiles.map (·.1)).filter fun t => decide (s.tilePart t = some p) && !(s.tile t).memBusy) fun x =>
    { x with errs := x.wb.foldl (fun (e : Bank (BitVec 2)) k => if Bank.get noErr e k = 1 then Bank.set noErr e k 0 else e) x.errs
             wb := [] }

/-- Frames that waited for a period are taken in at its start (R152). -/
def State.drainPorts (s : State) (p : Bool) : State := (s.namedPorts p).foldl (fun (acc : State) l => acc.drainPort l) s

/-- A bell of a rebuild (R147, R228): a stalled tile holds it, and the extension has its record (R33, R154); with none stalled, VL
is 64
and the next of the step plan's derivation periods opens; after the last the rebuild waits for its end. -/
def State.rebuildBell (s : State) (p : Bool) (l : Lesson) (lastTile : Nat) : State :=
  match (s.part p).rcl with
  | none => s
  | some r =>
    let x := s.part p
    -- the periods of a rebuild run once window 0 is restored (R274)
    if x.healPos.isSome then s
    else
    match (s.liveTiles p).find? fun t => (s.tile t).stalled with
    | some t => s.setPart p { x with late := (s.tile t).wait, held := true }
    | none =>
      -- a holdover ends with a quantum (R154)
      if x.held && decide (x.holdQ = 0) then s
      else
        let s1 := ((if 0 < x.holdQ then s.recordHold p lastTile else s).freshTiles p)
        let s2 := s1.setPart p { s1.part p with holdQ := 0, late := {}, held := false }
        match l.deriv.find? fun i => decide (x.idx < i) with
        | some i => s2.openRebuild p l r.target i
        | none => s2

/-- BELL (R154, R156): with work outstanding the period becomes a holdover; in a holdover the bell rings only at the end of
a quantum; otherwise it rings. -/
def execBell (p : Bool) (lastTile doneCyc energy power : Nat) (s : State) : Host.Outcome State Fault Refusal :=
  match s.lesson p with
  | none => .next s
  | some l =>
    let x := s.part p
    if s.rebuilding p then .next (s.rebuildBell p l lastTile)
    else if !s.running p then .next s
    else
      match s.holdCause p l with
      | some w => .next ((s.setPart p { x with late := w }).setRegBit (.bellStat p) 30 true)
      | none =>
        if s.regBit (.bellStat p) 30 && decide (x.holdQ = 0) then .next s
        else .next ((s.ringBell p l lastTile doneCyc energy power).drainPorts p)

/-- A quantum of a holdover ends (R154): the extension grows by one; so does that of a rebuild period that a stalled tile holds. -/
def execHoldoverQuantumEnd (p : Bool) (s : State) : Host.Outcome State Fault Refusal :=
  let x := s.part p
  let s1 := s.setPart p { x with holdQ := x.holdQ + 1, late := { x.late with len := x.late.len + 256 } }
  if s.running p then .next (s1.setRegBit (.bellStat p) 30 true)
  else if s.rebuilding p ∧ x.held then .next s1
  else .next s

/-- A holdover that has reached BELL_HOLDMAX (R155): its record, LIMIT, record 0x0060, and the recall with bit 9. -/
def execHoldoverLimit (p : Bool) (s : State) : Host.Outcome State Fault Refusal :=
  let x := s.part p
  let max := s.regFld (.bellHoldmax p) 23 0
  if !s.running p || x.noMax || decide (max = 0) || decide (x.holdQ < max) then .next s
  else
    let late := (s.liveTiles p).find? fun t => (s.tile t).stalled
    let w := s.attribute p (late.getD 0xFFFF)
    let b := s.holdBytes p w x.holdQ
    let s1 := (s.recordHold p (late.getD 0xFFFF)).setRegBit (.bellStat p) 27 true
    let s2 := s1.logErr { code := 0x0060, cls := 3, kind := if late.isSome then 0 else 4,
                          unit := match late with | some t => tileUnit t | none => [0, 0, 0],
                          part := some p, loc := w.tile.toNat, syn := b.take 16 }
    .next (s2.recallNow p 9)

/-- The recess of the period begins (R145, R191, R195). -/
def execRecessStart (p : Bool) (s : State) : Host.Outcome State Fault Refusal :=
  let x := s.part p
  if !s.running p || x.inRecess then .next s
  else .next (((s.setPart p { x with inRecess := true }).recessPorts p).writeBack p)

end Sys2Proof.Machine
end

