-- ==== Sys2Proof/Machine/Recall.lean ====
section
/-! DEFINITION. Received marks and recalls (R257, R258, R264 to R270): the commands MARK_FRAME_RECEIVED, RECALL_NOTICE,
AGREEMENT_TIMEOUT and REBUILD_COMPLETE. -/

set_option Elab.async false

namespace Sys2Proof.Machine

/-! ### Marks from other parts -/

/-- The partition that a mark's destination queue names; none for another queue (R8, R257). -/
def markTarget (f : Frame) : Option Bool :=
  if f.queue.toNat = 7936 then some false else if f.queue.toNat = 7937 then some true else none

/-- A mark of a judged period: into the tree, passed on, compared with the own mark in twin mode, and in effect when it
completes level 4 (R258, R264, R265). -/
def State.periodMark (s : State) (p : Bool) (l : Lesson) (port : Nat) (m : Mark) : State :=
  let s1 := (s.takeMark p l port m).settle4 p l m
  if Lesson.twin l then s1.twinTry p l m.period else s1

/-- A notice of the current attempt: it starts a recall here, or joins one (R265, R270). A new attempt sends it on. -/
def State.notice (s : State) (p : Bool) (m : Mark) : State := s.recall p m.causes m.period false

/-- A mark that passed the checks of R152. -/
def State.markIn (s : State) (p : Bool) (l : Lesson) (port : Nat) (m : Mark) : State :=
  if !m.notice then s.periodMark p l port m
  else
    match (s.part p).rcl with
    | some r =>
      match r.phase with
      | .agreement => (s.takeMark p l port m).tryAgree p l m
      | _ => s.notice p m
    | none => s.notice p m

/-- A short frame that reached its port with the checks of R152 before it: relays forward it, a port that carries no lesson
traffic drops it, a queue that is not bound makes the mark bad. -/
def State.receiveMark (s : State) (port0 : Nat) (f : Frame) (take : State → Bool → Lesson → Nat → Mark → State) : State :=
  let s1 := s.unhand port0 f
  if !s1.carries port0 then s1
  else
    match s1.forwardTo port0 f with
    | some o => s1.sendFrame o f
    | none =>
      let port := s1.rxPort port0 f
      match s1.portPart port with
      | none => s1
      | some q =>
        if !s1.lessonRuns q then s1
        else
          match s1.lesson q, s1.screen q port f with
          | none, _ => s1
          | _, .drop s2 => s2
          | _, .wait => s1.setPort port { s1.port port with waiting := (s1.port port).waiting ++ [f] }
          | some l, .pass => if markTarget f ≠ some q then s1.markPart q 4 else take s1 q l port (markOf port (padTo 48 f.payload))

/-- MARK_FRAME_RECEIVED (R257, R258, R264, R267). -/
def execMarkFrameReceived (port : Nat) (f : Frame) (s : State) : Host.Outcome State Fault Refusal :=
  onPort port s (s.receiveMark port f fun a p l n m => a.markIn p l n m)

/-- RECALL_NOTICE (R265, R270): a mark frame with RECALL = 1 that a part sent as it abandoned its period. -/
def execRecallNotice (port : Nat) (f : Frame) (s : State) : Host.Outcome State Fault Refusal :=
  onPort port s (s.receiveMark port f fun a p _ _ m => a.notice p m)

/-- The recall is over: RECALL reads 0 (R282). -/
def State.endRecall (s : State) (p : Bool) : State :=
  let x := s.part p
  (s.setPart p { x with rcl := none }).setRegBit (.checkMark p) 30 false

/-- A recall ends in a stopped job (R268, R281): commands that wait for it or for its replay fail. -/
def State.jobEnds (s : State) (p : Bool) : State :=
  let s1 := (((s.endRecall p).stopJob p).fwArrive p false).finishFor 0x0402 p 0x000A
  (s1.setPart p { s1.part p with haltReq := false }).finishFor 0x0203 p 0x000A

/-- The seats of this part's room that sent no notice in the agreement round (R267), but for substitutes that still have to take their
seats. -/
def State.missingSeats (s : State) (p : Bool) (l : Lesson) : List Nat :=
  ((roomSeats l).map (s.actingSeat p)).filter fun n => n != s.seat && !(s.part p).awaited.contains n
    && !(s.part p).marks.any fun m => m.notice && m.level == 0 && m.from_ == some (nearPort s.seat n)

/-- The substitute of a seat (R203). -/
def substituteOf (n : Nat) : Nat := 16 + n % 2

/-- Whether substitute k may take seat n (R203): the one of its parity, or either where the campus has one room. -/
def State.mayTake (s : State) (k n : Nat) : Bool := k == substituteOf n || (decide (16 ≤ k) && decide (k < 18) && s.rooms == 1)

/-- Whether a substitute's grade can take a shard of the lesson: its identity of the latest roll call (R3, R5). -/
def State.eligible (s : State) (l : Lesson) (k : Nat) : Bool :=
  decide (l.cols ≤ 44) || (match (s.port (nearPort s.seat k)).peer with | some q => q.grade == 0x41 | none => false)

/-- Whether a substitute is free, its link present and without a relay of this seat (R205). -/
def State.spareFree (s : State) (p : Bool) (k : Nat) : Bool :=
  let l := nearPort s.seat k
  s.regFld (.linkStat l) 31 28 == 3 && !s.regBit (.linkStat l) 26 && !(s.part p).subst.any (fun e => e.2 == k)

/-- The substitutes of the room's missing seats, in seat order, each its own (R203, R205); none where one has none. Where the campus
has one room, the substitute of a seat's parity comes first (DESIGN CHOICE, log 113). -/
def State.assignSpares (s : State) (p : Bool) (l : Lesson) (gone : List Nat) : Option (List (Nat × Nat)) :=
  gone.foldl (fun (acc : Option (List (Nat × Nat))) n =>
    match acc with
    | none => none
    | some a =>
      match [substituteOf n, 33 - substituteOf n].find? fun k => decide (n < 16) && s.mayTake k n && s.spareFree p k && s.eligible l k
          && !a.any (fun e => e.2 == k) with
      | some k => some (a ++ [(n, k)])
      | none => none) (some [])

/-- The reports of coverage that stays short (R5, R274): every missing seat, and every free substitute that the lesson shuts out; that
this is the moment of the second is the model's choice (DESIGN CHOICE, log 141). -/
def State.reportGone (s : State) (p : Bool) (l : Lesson) (gone : List Nat) : State :=
  let s1 := gone.foldl (fun (acc : State) n => acc.emit (.report (.missingSeat p n))) s
  if gone.isEmpty then s1
  else ([16, 17].filter fun k => s.spareFree p k && !s.eligible l k).foldl (fun (acc : State) k =>
    acc.emit (.report (.ineligible p k))) s1

/-- Ports that a substitution rebinds carry the lesson's traffic again (R210). -/
def State.unpark (s : State) (ports : List Nat) : State :=
  ports.foldl (fun (acc : State) l => acc.setPort l { acc.port l with parked := false }) s

/-- The room rebound: the queues of each missing seat lead to its substitute (R200), which has still to take it. -/
def State.rebind (s : State) (p : Bool) (new : List (Nat × Nat)) : State :=
  let x := s.part p
  (s.setPart p { x with subst := x.subst ++ new, awaited := x.awaited ++ new.map (·.2) }).unpark
    (new.map fun e => nearPort s.seat e.2)

/-- Coverage short after 1 ms (R231, R267): the target is the largest mirror step that a part holds or can reach; a part whose
flip for it is outstanding completes the flip; the queues of the missing seats are rebound to their substitutes, window 0
is restored to the target, and the rebuild runs; the job then holds for the resume command. A job that cannot be
substituted stops (R274, R281). -/
def State.agreedShort (s : State) (p : Bool) : State :=
  match (s.part p).rcl, s.lesson p with
  | some r, some l =>
    let ms := (s.part p).marks.filter (·.notice)
    let target := ms.foldl (fun (acc : BitVec 64) m => if acc < m.mstep then m.mstep else acc) (s.mstep64 p)
    let gone := s.missingSeats p l
    let s1 := (if (s.part p).flip = some target then s.mirrorFlip p target else s).reportGone p l gone
    if s1.regFld (.checkMirror p) 31 16 = 0 ∨ (s1.part p).unmirrored then s1.jobEnds p
    else
      match s1.assignSpares p l gone with
      | none => (gone.foldl (fun (acc : State) n => acc.emit (.report (.noSubstitute p n))) s1).jobEnds p
      | some new =>
        let c := ms.foldl (fun (acc : BitVec 32) m => acc ||| m.causes) r.causes
        let s2 := ((s1.rebind p new).setRegFld (.checkRecall p) 15 0 (c.toNat % 65536)).restoreTo p target
        ((s2.beginRebuild p l { r with causes := c } target true).restoreStreams p l).alert
  | _, _ => s

/-- AGREEMENT_TIMEOUT (R267): coverage is short 1 ms after the first notice (201 ms under R369). -/
def execAgreementTimeout (p : Bool) (s : State) : Host.Outcome State Fault Refusal :=
  match (s.part p).rcl with
  | some r => if r.phase = .agreement then .next (s.agreedShort p) else .next s
  | none => .next s

/-! ### The end of a rebuild -/

/-- The replay starts at index 0 of the step after the target, under the new attempt number (R228, R268). -/
def State.replay (s : State) (p : Bool) (l : Lesson) : State :=
  let s0 := s.quiesce p
  let n := s0.step64 p + 1
  let s1 := s0.setPnum p (s0.pnumOf p l.periods n 0)
  let x := s1.part p
  let s2 := ((s1.setPart p { x with
    idx := 0, skew := true, causes := 0, awaited := [], restores := [], rxPos := 0, xt := 0
    digFrames := [], digLines := [] }).clearCauses p).stepStart p l n false
  ((s2.freshTiles p).nextPeriod p l).drainPorts p

/-- A management recall that chose halt (R268): the job stays halted in committed state, and the recall command and a
lesson halt that waits for it end. -/
def State.haltAfter (s : State) (p : Bool) : State :=
  let s1 := ((s.endRecall p).fwArrive p false).finishFor 0x0402 p 0
  (s1.setPart p { s1.part p with haltReq := false }).finishFor 0x0203 p 0

/-- Whether a recall ends in a stopped job (R268, R269): LIMIT recalls without a commit, or the stash exhausted. -/
def State.stops (s : State) (p : Bool) (r : Recall) : Bool :=
  let lim := s.regFld (.checkRecall p) 23 16
  (decide (lim ≠ 0) && decide (lim ≤ s.regFld (.checkRecall p) 31 24)) || r.causes.toNat.testBit 10

/-- Whether a copy of the rebuild still runs (R129, R228): a bank that comes back, leaves read again, or the mirror on its way to a
part that did not fail. A substitute's streams end before the resume command (R231). -/
def State.copying (s : State) (p failed : Bool) : Bool :=
  (s.part p).healPos.isSome || (s.part p).fix.any (fun w => w.want.any fun y => (w.ents[y.1]?).any fun e => !e.staged)
    || (!failed && !(s.part p).restores.isEmpty)

/-- REBUILD_COMPLETE (R228, R268, R269): frozen regions are whole, and the job stops, halts, waits for the resume command
after a part failure, or replays. -/
def execRebuildComplete (p : Bool) (s : State) : Host.Outcome State Fault Refusal :=
  match (s.part p).rcl, s.lesson p with
  | some r, some l =>
    if r.phase ≠ .rebuild || s.regBit (.secPstat p) 29 then .next s
    else
      let s1 := s.restoreFrozen p l
      if s1.copying p r.failed then .next s1
      else if s1.stops p r then .next (s1.jobEnds p)
      else if r.halt then .next (s1.haltAfter p)
      else if r.failed then .next (s1.setPart p { s1.part p with rcl := some { r with phase := .hold } })
      else .next (((s1.endRecall p).replay p l).finishFor 0x0402 p 0)
  | _, _ => .next s

end Sys2Proof.Machine
end

