-- ==== Sys2Proof/Machine/Roll.lean ====
section
/-! DEFINITION. Roll call (R198 to R212): the commands HELLO, VERDICT, ECHO, PORT_TRAINED, ROLL_CALL_TRAIN_TIMEOUT,
ROLL_CALL_COMPLETE and RELAY_PROBE_COMPLETE. -/

set_option Elab.async false

namespace Sys2Proof.Machine

/-! ### The plan (R206, R209) -/

/-- Whether a campus plan is held. -/
def State.hasPlan (s : State) : Bool := !s.retained.plan.isEmpty

/-- The serial number that the plan expects at a seat of a room index; all zero accepts any part. -/
def State.planSerial (s : State) (room seat : Nat) : Bytes :=
  padTo 16 ((s.retained.plan.drop (64 + 288 * room + 16 * seat)).take 16)

/-- A room with one coordinate changed, packed as in R161. -/
def roomWith (room d c : Nat) : Nat :=
  let f := fun i => if i = d then c else roomCoord room i
  64 * f 0 + 8 * f 1 + f 2

/-- The seat and the room that a port of this part leads to: near ports over the backplane, far ports to the neighbouring
room that this seat faces; none where the dimension is 1 (R199, R201, R202). -/
def State.leads (s : State) (l : Nat) : Option (Nat × Nat) :=
  if l < 17 then some (s.nearSeat l, s.room)
  else
    let d := l - 17
    let n := s.dim d
    if n = 1 then none
    else
      let c := roomCoord s.room d
      some (s.seat, roomWith s.room d (if facesPlus c s.seat then (c + 1) % n else (c + n - 1) % n))

/-- The seat and room that the plan expects at the far end of a port; none without a plan or a link. -/
def State.expected (s : State) (l : Nat) : Option (Nat × Nat) := if s.hasPlan then s.leads l else none

/-- The port number that the far end of port l has (R199, R202). -/
def farEnd (l : Nat) : Nat := if l < 17 then 16 - l else l

/-- The contract leg of a port (R169). -/
def contractLeg (l : Nat) : Nat := if l < 17 then 180 else 420

/-- Rooms and seats of the plan whose entry names a serial number. -/
def State.planPlaces (s : State) (serial : Bytes) : List (Nat × Nat) :=
  if serial.all (· == 0) then []
  else (List.range (s.dim 0 * s.dim 1 * s.dim 2)).flatMap fun r =>
    ((List.range 18).filter fun n => s.planSerial r n == serial).map fun n => (r, n)

/-- Whether an identity is the one that the plan expects at a seat and a room. -/
def State.matchesPlan (s : State) (e : Nat × Nat) (q : Peer) : Bool :=
  let want := s.planSerial (s.roomIndex e.2) e.1
  q.seat == e.1 && decide (q.room.toNat = e.2) &&
    (if want.all (· == 0) then (s.planPlaces q.serial).isEmpty else q.serial == want)

/-- Whether an identity's serial number is not in the plan, and the place that it claims accepts no other part (R206, R209). -/
def State.unlisted (s : State) (q : Peer) : Bool :=
  let inPlan := [0, 1, 2].all fun d => decide (roomCoord q.room.toNat d < s.dim d)
  (s.planPlaces q.serial).isEmpty && !(inPlan && decide (q.seat < 18) &&
    (s.planSerial (s.roomIndex q.room.toNat) q.seat).all (· == 0))

/-- The campus plan digest in the part's identity (R206, R208); zero without a plan. -/
def State.planDigest (s : State) : Bytes := if s.hasPlan then sha384 s.retained.plan else List.replicate 48 0

/-- A field of the port's own delay set: in LINK_DELAY, or beside it while RELAY gives LINK_DELAY to the relayed path (R211). -/
def State.setOwnDelay (s : State) (l hi lo v : Nat) : State :=
  match (s.port l).ownDelay with
  | some w => s.setPort l { s.port l with ownDelay := some (setFld (BitVec.ofNat 32 w) hi lo v).toNat }
  | none => s.setRegFld (.linkDelay l) hi lo v

/-- The port's own leg as roll call measured it (R207, R211). -/
def State.ownLeg (s : State) (l : Nat) : Nat :=
  match (s.port l).ownDelay with
  | some w => fld (BitVec.ofNat 32 w) 24 16
  | none => s.regFld (.linkDelay l) 24 16

/-- The outcome of a lit port whose leg is measured, the first that applies in code order (R209). -/
def State.judge (s : State) (l : Nat) (q : Peer) : Nat :=
  match s.expected l with
  | none => 5
  | some e =>
    let swap := (List.range 20).any fun k => k != l &&
      (match s.expected k, (s.port k).peer with
       | some ek, some qk => s.matchesPlan ek q && s.matchesPlan e qk && !s.matchesPlan e q
       | _, _ => false)
    let want := s.planSerial (s.roomIndex e.2) e.1
    if swap then 3
    else if !(s.planPlaces q.serial).isEmpty && !s.matchesPlan e q then 4
    else if q.seat ≠ e.1 ∨ q.room.toNat ≠ e.2 ∨ q.port ≠ farEnd l then (if s.unlisted q then 5 else 4)
    else if !want.all (· == 0) && q.serial != want then 5
    else if q.digest ≠ s.planDigest then 6
    else if contractLeg l < s.ownLeg l then 7
    else 0

/-! ### Identities -/

/-- The identity payload of HELLO and VERDICT (R208). -/
def State.identity (s : State) (l message verdict : Nat) : Bytes :=
  padTo 256 (toLE 1 message ++ toLE 1 l ++ toLE 1 s.seat
    ++ toLE 1 (b2n (decide (16 ≤ s.seat)) + 2 * b2n (s.relayOn l true) + 4 * b2n (s.relayOn l false))
    ++ toLE 2 s.room ++ [if s.fuses.gradeB then 0x42 else 0x41] ++ toLE 1 (b2n s.fuses.stepB1)
    ++ toLE 16 s.fuses.serial.toNat ++ s.planDigest ++ toLE 1 verdict)

/-- Sends a roll-call frame on the port under roll call itself, whatever relay it has (R207); it carries no lesson's digest, period
or attempt (R151). -/
def State.sendRoll (s : State) (l message verdict : Nat) : State :=
  s.sendOn l ⟨0, 0, 5, 0, 0, 0, BitVec.ofNat 5 s.seat, s.identity l message verdict⟩

/-- The identity that a roll-call payload gives. -/
def peerOf (b : Bytes) : Peer :=
  { port := field b 1 1, seat := field b 2 1, room := BitVec.ofNat 9 (field b 4 2), flags := BitVec.ofNat 8 (field b 3 1),
    grade := BitVec.ofNat 8 (field b 6 1), step := BitVec.ofNat 8 (field b 7 1), serial := (b.drop 8).take 16,
    digest := (b.drop 24).take 48, verdict := none }

/-! ### Progress of a port -/

/-- STATE of a port. -/
def State.linkState (s : State) (l : Nat) : Nat := s.regFld (.linkStat l) 31 28

/-- A port's state and outcome set. -/
def State.setOutcome (s : State) (l st outcome : Nat) : State :=
  (s.setRegFld (.linkStat l) 31 28 st).setRegFld (.linkStat l) 23 16 outcome

/-- A dark port: missing where the plan has a link, unused and held down where it has none (R209). It has no spare lane (R211). -/
def State.darkPort (s : State) (l : Nat) : State :=
  (if (s.expected l).isSome then s.setOutcome l 0 2 else s.setOutcome l 5 1).setRegBit (.linkStat l) 27 false

/-- A port begins roll call: it trains, and what the previous roll call found is dropped. -/
def State.beginPort (s : State) (l : Nat) : State :=
  let y := s.port l
  let s1 := s.setPort l { y with peer := none, probes := 0, verdictSent := false, trained := 0 }
  let s2 := s1.setRegFld (.linkStat l) 31 28 1
  (s2.setRegFld (.linkStat l) 13 0 0x3E00).setOwnDelay l 24 16 0

/-- Roll call begins on the ports of a mask (R207); LINK_ROOM takes effect (R199), and a new campus plan (R206). -/
def State.beginRoll (s : State) (mask : Nat) : State :=
  let ls := (List.range 20).filter (bit mask)
  let s1 := ls.foldl (fun (acc : State) l => acc.beginPort l) s
  let r := s1.retained
  let kept := if r.newPlan.isEmpty then r else { r with plan := r.newPlan, newPlan := [] }
  { s1 with retained := kept, rollMask := BitVec.ofNat 20 mask, roomNow := BitVec.ofNat 9 (s1.regFld .linkRoom 8 0) }.setRegBit .linkRoll 31 false

/-- The lane map after training (R198): active lanes that trained stay; a slot whose lane did not train takes a trained lane
outside the map; one more such lane is the spare. -/
def trainedMap (w : Word) (lanes : BitVec 5) : Word :=
  let act := (List.range 4).map fun k => fld w (3 * k + 5) (3 * k + 3)
  let ok := fun n : Nat => decide (n < 5) && bit lanes.toNat n
  let extra := (List.range 5).filter fun n => ok n && !act.contains n
  let r := act.foldl (fun (acc : List Nat × List Nat) n =>
    if ok n then (acc.1 ++ [n], acc.2)
    else match acc.2 with
      | e :: rest => (acc.1 ++ [e], rest)
      | [] => (acc.1 ++ [n], [])) (([] : List Nat), extra)
  let w1 := (r.1.zipIdx).foldl (fun (w : Word) x => setFld w (3 * x.2 + 5) (3 * x.2 + 3) x.1) w
  setFld w1 2 0 (r.2.headD 7)

/-- The link layer of a port starts again with its training. -/
def Port.fresh (y : Port) (lanes : BitVec 5) : Port :=
  { y with
    rxSeq := 0, rxTop := 0, reorder := [], fails := [], bads := [], rxCount := 0, rxBytes := [], txSeq := 0, txBytes := []
    txFrames := [], txControl := [], txReplay := [], unmarked := 0, control := []
    sent := [], mapgen := 0, switching := none, degraded := none, handed := [], trained := lanes, peer := none, probes := 0
    verdictSent := false }

/-- Lanes of a mask. -/
def laneCount (lanes : BitVec 5) : Nat := ((List.range 5).filter (bit lanes.toNat)).length

/-- A port's training ends (R198, R207): fewer than four lanes leave it dark; else its map is set and it sends HELLO. -/
def State.portTrained (s : State) (l : Nat) (lanes : BitVec 5) : State :=
  let s1 := s.setPort l ((s.port l).fresh lanes)
  if laneCount lanes < 4 then s1.darkPort l
  else
    let w := trainedMap (s1.reg (.linkLanemap l)) lanes
    let s2 := (s1.setReg (.linkLanemap l) w).setRegBit (.linkStat l) 27 (decide (fld w 2 0 ≠ 7))
    ((s2.setRegFld (.linkStat l) 31 28 2).setOwnDelay l 24 16 0).sendRoll l 1 0

/-- PORT_TRAINED (R198, R207). -/
def execPortTrained (l : Nat) (lanes : BitVec 5) (s : State) : Host.Outcome State Fault Refusal := onPort l s (s.portTrained l lanes)

/-- An outcome that fences a port (R209): its record, and the recall of a running job that names it (R271, R277), where it was not
fenced before. -/
def State.fenceOutcome (s : State) (l outcome : Nat) : State :=
  let s1 := s.setOutcome l 4 outcome
  if s.linkState l = 4 then s1 else s1.fencePort l

/-- Both verdicts are known: a port that both ends find present is up; the other end's fault fences it (R209). Under a running
lesson that names it, it waits for a rebinding (R210). -/
def State.settlePort (s : State) (l : Nat) : State :=
  let y := s.port l
  match y.peer with
  | none => s
  | some q =>
    if !y.verdictSent then s
    else
      let mine := s.judge l q
      if mine ≠ 0 then s.fenceOutcome l mine
      else
        match q.verdict with
        | none => s
        | some v =>
          if v ≠ 0 then s.fenceOutcome l v.toNat
          else
            let s1 := (s.setOutcome l 3 0).setOwnDelay l 8 0 (contractLeg l - s.ownLeg l)
            let named := fun p : Bool => s.lessonRuns p && (s.namedPorts p).contains l
            s1.setPort l { s1.port l with parked := named false || named true }

/-- A HELLO frame (R207, R208): the identity, and the first of 64 probes. -/
def State.hello (s : State) (l : Nat) (f : Frame) : State :=
  let s1 := s.unhand l f
  if s1.linkState l ≠ 2 then s1
  else
    let q := peerOf (padTo 256 f.payload)
    let y := s1.port l
    let s2 := s1.setPort l { y with peer := some q, probes := 0 }
    let s3 := s2.setRegFld (.linkStat l) 13 0 (512 * q.seat + q.room.toNat)
    s3.sendProbe l

/-- HELLO (R207). -/
def execHello (l : Nat) (f : Frame) (s : State) : Host.Outcome State Fault Refusal := onPort l s (s.hello l f)

/-- An ECHO (R207): the leg is half of the round trip less the turnaround, rounded up; MEASURED is the largest; the 64th sends
the verdict. -/
def State.echo (s : State) (l roundTrip turnaround : Nat) : State :=
  let y := s.port l
  match y.peer with
  | none => s
  | some q =>
    if s.linkState l ≠ 2 ∨ 64 ≤ y.probes then s
    else
      let leg := (roundTrip - turnaround + 1) / 2
      let s1 := s.setOwnDelay l 24 16 (Nat.min 511 (Nat.max leg (s.ownLeg l)))
      if y.probes < 63 then (s1.setPort l { s1.port l with probes := y.probes + 1 }).sendProbe l
      else
        let s2 := s1.setPort l { s1.port l with probes := 64, verdictSent := true }
        (s2.sendRoll l 2 (s2.judge l q)).settlePort l

/-- ECHO (R207). -/
def execEcho (l roundTrip turnaround : Nat) (s : State) : Host.Outcome State Fault Refusal :=
  onPort l s (s.echo l roundTrip turnaround)

/-- A VERDICT frame (R207 to R209): byte 72 is the outcome as the sender sees the port. -/
def State.verdict (s : State) (l : Nat) (f : Frame) : State :=
  let s1 := s.unhand l f
  let y := s1.port l
  match y.peer with
  | none => s1
  | some q =>
    if s1.linkState l ≠ 2 then s1
    else (s1.setPort l { y with peer := some { q with verdict := some (BitVec.ofNat 8 (field (padTo 256 f.payload) 72 1)) } }).settlePort l

/-- VERDICT (R209). -/
def execVerdict (l : Nat) (f : Frame) (s : State) : Host.Outcome State Fault Refusal := onPort l s (s.verdict l f)

/-- 300 ms of training are over: a port still untrained is dark (R207). -/
def execRollCallTrainTimeout (l : Nat) (s : State) : Host.Outcome State Fault Refusal :=
  onPort l s (if s.linkState l = 1 then s.darkPort l else s)

/-! ### The end of a roll call -/

/-- Whether a port is primary (R202, R209): both its ends on seats 0 to 15, with a link in the plan. -/
def State.primary (s : State) (l : Nat) : Bool :=
  match s.expected l with
  | some e => decide (s.seat < 16) && decide (e.1 < 16)
  | none => false

/-- Whether a port is present: up by its latest roll call. -/
def State.present (s : State) (l : Nat) : Bool := s.linkState l == 3 && s.regFld (.linkStat l) 23 16 == 0

/-- LINK_ROLL from the ports (R212). -/
def State.rollWord (s : State) : Word :=
  let here := (List.range 20).filter s.present
  let fenced := ((List.range 20).filter fun l => s.linkState l == 4).length
  let pass := (List.range 20).all fun l => !s.primary l || s.present l
  BitVec.ofNat 32 (2 ^ 31 + 2 ^ 30 * b2n pass + 2 ^ 20 * fenced + (here.map fun l => 2 ^ l).foldl (· + ·) 0)

/-- The identity that a port has seen: seat, room and serial number; zeros where there was none. -/
def State.seenAt (s : State) (l : Nat) : Nat × Nat × Bytes :=
  match (s.port l).peer with
  | some q => (q.seat, q.room.toNat, q.serial)
  | none => (0, 0, [])

/-- The identity that the plan expects at a port. -/
def State.wantedAt (s : State) (l : Nat) : Nat × Nat × Bytes :=
  match s.expected l with
  | some e => (e.1, e.2, s.planSerial (s.roomIndex e.2) e.1)
  | none => (0, 0, [])

/-- The reports of a port after roll call (R209, R280): a fenced one with both identities (a swapped pair as one pair, at its lower
port), a present one without a spare, and its permanent lanes. -/
def State.portReports (s : State) (l : Nat) : List Out :=
  let o := s.regFld (.linkStat l) 23 16
  let pair := (List.range 20).find? fun k => k != l && o == 3 && s.regFld (.linkStat k) 23 16 == 3 && s.seenAt k == s.wantedAt l
  let perm := (s.retained.locs.filter fun e => e.perm && field e.key 0 1 == 1 && field e.key 1 1 == l && field e.key 2 1 != 0xFF).map
    fun e => Out.report (.permanentLane l (field e.key 2 1))
  (if o < 3 ∨ 7 < o then []
   else match pair with
     | some k => if l < k then [.report (.swapped l k (s.seenAt l) (s.seenAt k))] else []
     | none => [.report (.port l o (s.seenAt l) (s.wantedAt l))])
  ++ (if s.present l && s.regFld (.linkLanemap l) 2 0 == 7 then [.report (.noSpare l)] else []) ++ perm.eraseDups

/-- The start sequence ends with roll call (R374): READY is set, and ALERT_N is pulsed. -/
def State.startReady (s : State) : State :=
  if s.regFld .testStat 31 28 ≠ 7 then s
  else ((s.setRegFld .testStat 31 28 8).setRegBit .testStat 23 true).alert

/-- Swapped ports told apart, once every port has its outcome (R209): a port that its verdict fenced is judged once more. -/
def State.settleFenced (s : State) (ls : List Nat) : State :=
  ls.foldl (fun (acc : State) l =>
    if acc.linkState l = 4 ∧ acc.regFld (.linkStat l) 23 16 ≠ 0 then acc.settlePort l else acc) s

/-- ROLL_CALL_COMPLETE (R207, R209, R210, R374): once every port that takes part has its outcome, swapped ports are told apart and the
ports are reported, LINK_ROLL is set, the ROLL_CALL command ends with it, and a start ends. -/
def execRollCallComplete (s : State) : Host.Outcome State Fault Refusal :=
  let ls := (List.range 20).filter (bit s.rollMask.toNat)
  if !s.portsOut || ls.any fun l => s.linkState l == 1 || s.linkState l == 2 then .next s
  else
    let s1 := s.settleFenced ls
    let s2 := ({ s1 with rollMask := 0, out := s1.out ++ ls.flatMap s1.portReports }).setReg .linkRoll s1.rollWord
    let s3 := match s2.rollCmd with
      | some k => { s2 with rollCmd := none }.finish k 0 (toLE 4 (s2.reg .linkRoll).toNat)
      | none => s2
    .next s3.startReady

/-- RELAY_PROBE_COMPLETE (R204): MEASURED of a relayed path and its padding to 420 cycles; a path beyond the contract is
fenced as slow. The path ends at a port with a relay, or at a far port of the acting substitute. -/
def State.relayProbed (s : State) (l measured : Nat) : State :=
  let acts := decide (17 ≤ l) && [false, true].any fun p => (s.part p).subst.any fun e => e.2 == s.seat
  if !s.regBit (.linkStat l) 26 && !acts then s
  else
    let s1 := s.setRegFld (.linkDelay l) 24 16 (Nat.min 511 measured)
    if 420 < measured then s1.fenceOutcome l 7 else s1.setRegFld (.linkDelay l) 8 0 (420 - measured)

/-- RELAY_PROBE_COMPLETE (R204). -/
def execRelayProbeComplete (l measured : Nat) (s : State) : Host.Outcome State Fault Refusal := onPort l s (s.relayProbed l measured)

end Sys2Proof.Machine
end

