-- ==== Sys2Proof/Machine/Access.lean ====
section
/-! DEFINITION. Accesses to the office space (R15, R17, R18, R304 to R311, R414 to R419): who reaches what, events, the write
of a register by its access codes and its own rule, the read of a word, and the pigeonhole operations. -/

set_option Elab.async false

namespace Sys2Proof.Machine

/-! ### Issuers and reach -/

/-- ISSUER of OFFICE_ACCERR (R420). -/
def issuerCode : Issuer → Nat
  | .hostA => 0
  | .hostB => 1
  | .mgmt => 2
  | .principal => 3
  | .monitor => 4

/-- Whether a host reaches pigeonhole g: EN = 1 and PART its own (R416). -/
def State.pigeonOf (s : State) (h : Bool) (g : Nat) : Bool :=
  s.regBit (.pigeonOwn g) 31 && s.regBit (.pigeonOwn g) 24 == h

/-- The partition of a tile's window: none where the map excludes the tile (R418). -/
def State.windowPart (s : State) (t : Nat) : Option Bool :=
  if s.tileExcluded t || s.stripExcluded (t / 25) then none else s.tilePart t

/-- Whether host h reaches the window of tile t: a tile of its fields that the map does not exclude (R416, R418). -/
def State.windowOf (s : State) (h : Bool) (t : Nat) : Bool := s.windowPart t == some h

/-- What host h may read (R416). -/
def State.hostReads (s : State) (h : Bool) : Reg → Bool
  | .officeId => true
  | .officeSerial _ => true
  | .cmdDoorbell x => x == h
  | .cmdStat x => x == h
  | .cmdDbpend x _ => x == h
  | .cmdCbaseLo x _ => x == h
  | .cmdCbaseHi x _ => x == h
  | .cmdRbaseLo x _ => x == h
  | .cmdRbaseHi x _ => x == h
  | .cmdRctl x _ => x == h
  | .cmdCtail x _ => x == h
  | .cmdChead x _ => x == h
  | .cmdRhead x _ => x == h
  | .pigeonData _ g => s.pigeonOf h g
  | .pigeonSend g => s.pigeonOf h g
  | .pigeonStat g => s.pigeonOf h g
  | .pigeonTake g => s.pigeonOf h g
  | .pigeonFrom g => s.pigeonOf h g
  | .pigeonOwn g => s.pigeonOf h g
  | .pigeonTimeout => true
  | .pigeonPendLo => true
  | .pigeonPendHi => true
  | .dmaChctl c => chanPart c == h
  | .dmaChstat c => chanPart c == h
  | .dmaChstartLo c => chanPart c == h
  | .dmaChstartHi c => chanPart c == h
  | .dmaChcurLo c => chanPart c == h
  | .dmaChcurHi c => chanPart c == h
  | .dmaChtag c => chanPart c == h
  | .dmaChoff c => chanPart c == h
  | .dmaLdstat => true
  | .dmaLdconn n => s.regBit (.dmaLdconn n) 29 == h
  | .bellStat p => p == h
  | .bellPnumLo p => p == h
  | .bellPnumHi p => p == h
  | .bellHcount p => p == h
  | .bellLcount p => p == h
  | .bellMargin p => p == h
  | .bellHoldmax p => p == h
  | .bellLoghead p => p == h
  | .bellCommit p => p == h
  | .bellPeriod p _ => p == h
  | .bellRecess p _ => p == h
  | .bellWork p _ => p == h
  | .linkStat l => s.regBit .secPortown l == h
  | .linkLanemap l => s.regBit .secPortown l == h
  | .linkErr l => s.regBit .secPortown l == h
  | .linkLanece l => s.regBit .secPortown l == h
  | .linkDelay l => s.regBit .secPortown l == h
  | .watchStat p => p == h
  | .watchZerothr p => p == h
  | .watchZerorun p => p == h
  | .watchRechead p => p == h
  | .watchEvhead p => p == h
  | .watchCommit p => p == h
  | .checkMark p => p == h
  | .checkMarkpnum p => p == h
  | .checkRecall p => p == h
  | .checkRpnum p => p == h
  | .checkBank p => p == h
  | .checkBanksize p => p == h
  | .checkMirror p => p == h
  | .checkMbase p => p == h
  | .checkMstage p => p == h
  | .checkSeedLo p => p == h
  | .checkSeedHi p => p == h
  | .checkStepLo p => p == h
  | .checkStepHi p => p == h
  | .checkCstepLo p => p == h
  | .checkCstepHi p => p == h
  | .checkMstepLo p => p == h
  | .checkMstepHi p => p == h
  | .checkEdptr p => p == h
  | .checkEdwave p => p == h
  | .checkEdstepLo p => p == h
  | .checkEdstepHi p => p == h
  | .secPartmap => true
  | .secBoot => true
  | .secDebug => true
  | .secPstat p => p == h
  | .secPagebase p => p == h
  | .secPagecnt p => p == h
  | .fwStat => true
  | .fwSlot _ => true
  | .tileMxres t => s.windowOf h t
  | .tileMxinj t => s.windowOf h t
  | .tileMemerr t => s.windowOf h t
  | .tileMemaddr t => s.windowOf h t
  | .tileAplan t => s.windowOf h t
  | .tileAspillb t => s.windowOf h t
  | .tileAspills t => s.windowOf h t
  | .tileAstat t => s.windowOf h t
  | .tileVxflags t => s.windowOf h t
  | .tilePad t => s.windowOf h t
  | .tileTgrid t _ => s.windowOf h t
  | .tileToken t _ => s.windowOf h t
  | .tileCommit t => s.windowOf h t
  | .tileRegion t _ => s.windowOf h t
  | .tileReged t _ => s.windowOf h t
  | .tileRegcnt t _ => s.windowOf h t
  | .tileEdslot t _ => s.windowOf h t
  | .tileEdslotr t _ => s.windowOf h t
  | _ => false

/-- What host h may write (R416): of what it reads, its CMD copy, channels, BELL, WATCH and CHECK copies and tile windows, and
the data, send, take and status registers of its pigeonholes. -/
def State.hostWrites (s : State) (h : Bool) (r : Reg) : Bool :=
  s.hostReads h r &&
    (match r with
     | .officeId => false
     | .officeSerial _ => false
     | .pigeonFrom _ => false
     | .pigeonOwn _ => false
     | .pigeonTimeout => false
     | .pigeonPendLo => false
     | .pigeonPendHi => false
     | .dmaLdstat => false
     | .dmaLdconn _ => false
     | .linkStat _ => false
     | .linkLanemap _ => false
     | .linkErr _ => false
     | .linkLanece _ => false
     | .linkDelay _ => false
     | .secPartmap => false
     | .secBoot => false
     | .secDebug => false
     | .secPstat _ => false
     | .secPagebase _ => false
     | .secPagecnt _ => false
     | .fwStat => false
     | .fwSlot _ => false
     | _ => true)

/-- The tile whose window holds an office address. -/
def windowAt (a : Nat) : Option Nat := if 0x100000 ≤ a ∧ a < 0xAC4000 then some ((a - 0x100000) / 0x1000) else none

/-- Whether tile t is being moved in a remap extension (R272, R418): a tile whose place the coming step boundary moves, or whose state
comes from another, once the recess of the step's last period has begun. -/
def State.beingMoved (s : State) (t : Nat) : Bool :=
  match s.tilePart t with
  | none => false
  | some p =>
    let x := s.part p
    x.inRecess && !x.remap.isEmpty &&
      (let w := s.colsUsed t
       let a := s.fieldTiles (t / 625) w
       let b := (x.remap.foldl (fun (acc : State) r => acc.exclude r) s).fieldTiles (t / 625) w
       renamed a b t != t || a.any fun u => u != t && renamed a b u == t)

/-- Whether the window of tile t is unavailable (R418). -/
def State.winBusy (s : State) (t : Nat) : Bool :=
  let f := t / 625
  s.regFld .fwMonstat (2 * f + 1) (2 * f) != 2 || s.beingMoved t ||
    (match s.windowPart t with
     | some p => s.regBit (.secPstat p) 29 || s.regBit (.secPstat p) 30
     | none => false)

/-- The partition that the registers of a window or a per-partition copy belong to. -/
def State.regPart (s : State) : Reg → Option Bool
  | .checkRecall p => some p
  | .checkBank p => some p
  | .checkBanksize p => some p
  | .checkMirror p => some p
  | .checkMbase p => some p
  | .checkMstage p => some p
  | .checkSeedLo p => some p
  | .checkSeedHi p => some p
  | .tilePad t => s.tilePart t
  | .tileRegion t _ => s.tilePart t
  | .tileReged t _ => s.tilePart t
  | _ => none

/-- Whether an access of a host port is served: the port is out of reset and its partition is not in its eraser pass (R350,
R401, R419). Management's path serves once it has left reset (R374). -/
def State.served (s : State) (who : Issuer) : Bool :=
  match who with
  | .hostA => s.hostUp false && !s.erasing false
  | .hostB => s.hostUp true && !s.erasing true
  | .mgmt => s.pins.mgmt
  | _ => true

/-- Whether an access is foreign (R416), a monitor's to the window of an excluded tile too (R418; DEDUCED, log 146). Offsets that
hold no
register raise no error (R415). -/
def State.foreign (s : State) (who : Issuer) (addr : Nat) (write : Bool) : Bool :=
  match hostOf who, regAt addr with
  | some h, some r => !(if write then s.hostWrites h r else s.hostReads h r)
  | none, some _ =>
    decide (who = .monitor) && (match windowAt addr with
      | some t => s.tileExcluded t || s.stripExcluded (t / 25)
      | none => false)
  | _, none => false

/-- An event of OFFICE_ACCERR (R414, R420): its bits, the issuer, the count and the address. -/
def State.accEvent (s : State) (who : Issuer) (addr : Nat) (foreign unaligned busy : Bool) : State :=
  if !foreign && !unaligned && !busy then s
  else
    let w := s.reg .officeAccerr
    let w1 := if foreign then setFld w 31 31 1 else w
    let w2 := if unaligned then setFld w1 30 30 1 else w1
    let w3 := if busy then setFld w2 29 29 1 else w2
    (s.setReg .officeAccerr (setFld (setFld w3 28 26 (issuerCode who)) 15 0 (satAdd 0xFFFF (fld w 15 0) 1))).setReg .officeAccaddr
      (BitVec.ofNat 32 addr)

/-! ### Pigeonholes (R305 to R309) -/

/-- KIND and FIELD of a writer (R309): a monitor's field 0 to 3 is a field monitor, 4 the link monitor, 5 the power monitor. -/
def kindOf (who : Issuer) (field : Nat) : Nat × Nat :=
  match who with
  | .hostA => (0, 0)
  | .hostB => (1, 0)
  | .principal => (2, 0)
  | .mgmt => (6, 0)
  | .monitor => if field < 4 then (3, field) else if field = 4 then (4, 0) else (5, 0)

/-- The stamp of a claimant (R309). -/
def stamp (who : Issuer) (field : Nat) : Word := BitVec.ofNat 32 ((kindOf who field).1 * 2 ^ 28 + (kindOf who field).2 * 2 ^ 26)

/-- CLAIMED of pigeonhole g. -/
def State.pigeonClaimed (s : State) (g : Nat) : Bool := s.regBit (.pigeonStat g) 30

/-- Whether a writer holds the claim of pigeonhole g. -/
def State.isClaimant (s : State) (who : Issuer) (field g : Nat) : Bool :=
  s.pigeonClaimed g && s.reg (.pigeonFrom g) == stamp who field

/-- BUSY: a write from a writer that is not the claimant was ignored (R305, R309). -/
def State.pigeonBusy (s : State) (g : Nat) : State := s.setRegBit (.pigeonStat g) 27 true

/-- CLAIM (R305): the first claim wins and is stamped; a pigeonhole that is not in use takes none. -/
def State.claimHole (s : State) (who : Issuer) (field g : Nat) : State :=
  if !s.regBit (.pigeonOwn g) 31 then s
  else if s.pigeonClaimed g then (if s.isClaimant who field g then s else s.pigeonBusy g)
  else (s.setRegBit (.pigeonStat g) 30 true).setReg (.pigeonFrom g) (stamp who field)

/-- GO by the claimant (R305, R308). -/
def State.goHole (s : State) (who : Issuer) (field g : Nat) : State :=
  if !s.isClaimant who field g then s.pigeonBusy g
  else if s.pigeonGo g then s
  else s.pigeonSendNow g

/-- DROP by the claimant (R309): the claim is released; a message that was sent waits on for TAKE. -/
def State.dropHole (s : State) (who : Issuer) (field g : Nat) : State :=
  if !s.isClaimant who field g then s.pigeonBusy g
  else if s.pigeonGo g then s
  else s.setRegBit (.pigeonStat g) 30 false

/-- Whether a writer is the receiver of pigeonhole g (R309). -/
def State.isReceiver (s : State) (who : Issuer) (field g : Nat) : Bool :=
  let k := kindOf who field
  s.regFld (.pigeonOwn g) 30 27 == k.1 && (k.1 != 3 || s.regFld (.pigeonOwn g) 26 25 == k.2)

/-- TAKE by the receiver (R305): GO and the claim end, TAKEN is set, the doorbell is clear, and a peer gets its reply. -/
def State.takeHole (s : State) (who : Issuer) (field g : Nat) : State :=
  if s.pigeonGo g && s.isReceiver who field g then
    let w := setFld (setFld (s.reg (.pigeonStat g)) 31 30 0) 28 28 1
    ((s.setReg (.pigeonStat g) w).setDoorbell (8000 + g) false).answerPeer g 0
  else s

/-- A message or a claim times out (R305, R308): cause 4 for a message not taken, 5 for a claim without GO. -/
def State.lapseHole (s : State) (g : Nat) : State :=
  if s.pigeonGo g then s.pigeonTimeout g 4 else if s.pigeonClaimed g then s.pigeonTimeout g 5 else s

/-! ### Command registers (R304, R311) -/

/-- Whether a writer owns a queue whose doorbell it rings (R304): a host its rings and its partition's channels; management its
ring and every channel (R312). -/
def ownsQueue (who : Issuer) (q : Nat) : Bool :=
  let chan := decide (1024 ≤ q) && decide (q < 1536)
  match who with
  | .hostA => decide (q < 512) || (chan && decide (q < 1280))
  | .hostB => (decide (512 ≤ q) && decide (q < 1024)) || (chan && decide (1280 ≤ q))
  | .mgmt => chan || decide (q = 8064)
  | _ => false

/-- Whether a queue is an enabled host command ring that holds no packet (R294, R311). -/
def State.ringEmpty (s : State) (q : Nat) : Bool :=
  let h := decide (512 ≤ q)
  let r := q % 512
  decide (q < 1024) && decide (r < 256) && s.regBit (.cmdRctl h r) 31
    && s.regFld (.cmdChead h r) 11 0 == s.regFld (.cmdCtail h r) 11 0 % ringSize (s.regFld (.cmdRctl h r) 29 26)

/-- A queue's doorbell rung. The part's scan of an empty command ring ends at once and leaves the bell clear (R304; DESIGN CHOICE,
log 142). -/
def State.ring (s : State) (q : Nat) : State := s.setDoorbell q (!s.ringEmpty q)

/-- CMD_DOORBELL (R304, R320). -/
def State.writeDoorbell (s : State) (who : Issuer) (h : Bool) (v : Word) : State :=
  let q := fld v 12 0
  if !ownsQueue who q then s.setRegBit (.cmdStat h) 31 true
  else
    let s1 := s.ring q
    if 1024 ≤ q ∧ q < 1536 then s1.tryStart (q - 1024) else s1

/-- CMD_CTAIL (R304, R311). -/
def State.writeCtail (s : State) (h : Bool) (r : Nat) (v : Word) : State :=
  (s.setReg (.cmdCtail h r) (v &&& 0xFFF)).ring (512 * b2n h + r)

/-- CMD_RHEAD (R295, R311): the entries that the host has read are free; a write of the index that stands frees none. -/
def State.writeRhead (s : State) (h : Bool) (r : Nat) (v : Word) : State :=
  let n := ringSize (s.regFld (.cmdRctl h r) 25 22)
  let read := (fld v 11 0 % n + n - s.regFld (.cmdRhead h r) 11 0 % n) % n
  let k := ringKey h r
  { s with replies := Bank.set noReplies s.replies k (Bank.get noReplies s.replies k - read) }.setReg (.cmdRhead h r) (v &&& 0xFFF)

/-- CMD_RCTL (R295, R303, R311): sizes are ignored while EN is 1; EN set starts the first lap; EN cleared drains. -/
def State.writeRctl (s : State) (h : Bool) (r : Nat) (v : Word) : State :=
  let w := s.reg (.cmdRctl h r)
  let was := bit w.toNat 31
  let w1 := if was then w else setFld w 29 22 (fld v 29 22)
  let s1 := s.setReg (.cmdRctl h r) (setFld w1 21 14 (fld v 21 14))
  if bit v.toNat 31 then
    if was then s1
    else ({ s1 with replies := Bank.set noReplies s1.replies (ringKey h r) 0 }.setRegBit (.cmdRctl h r) 31 true).setReg (.cmdChead h r)
      0x80000000
  else if was then (s1.setRegBit (.cmdRctl h r) 30 true).drainRing h r (if h then .hostB else .hostA)
  else s1

/-! ### Writes -/

/-- A write of a commit register (R17, R18): COMMIT applies the set and leaves HOLD at 0. -/
def State.writeCommit (s : State) (r : Reg) (v : Word) : State :=
  if bit v.toNat 0 then (s.applyCommit r).setReg r 0 else s.setReg r (v &&& 2)

/-- The commit register of the staged set that an ST register belongs to. -/
def commitOf : Reg → Option Reg
  | .pigeonOwn _ => some .pigeonCommit
  | .bellPeriod p _ => some (.bellCommit p)
  | .bellRecess p _ => some (.bellCommit p)
  | .linkRelay _ => some .linkCommit
  | .watchZerothr p => some (.watchCommit p)
  | .watchZerorun p => some (.watchCommit p)
  | .secPortown => some .secCommit
  | .secPagebase _ => some .secCommit
  | .secPagecnt _ => some .secCommit
  | .tileAplan t => some (.tileCommit t)
  | .tileAspillb t => some (.tileCommit t)
  | .tileAspills t => some (.tileCommit t)
  | _ => none

/-- The writer of a settings event: host A, host B, management, principal (R291). -/
def writerCode (who : Issuer) : BitVec 2 := BitVec.ofNat 2 (Nat.min 3 (issuerCode who))

/-- A write of a register by its access codes (R15, R17): RW bits at once, unless bells make them ignore it; W1C bits; ST bits
into the staging copy. -/
def State.writeCodes (s : State) (who : Issuer) (r : Reg) (v : Word) : State :=
  let i := r.info
  let shut := i.busy && (match s.regPart r with
    | some p => s.running p
    | none => false)
  let w := s.reg r
  let w1 := if shut then w else (w &&& ~~~i.rw) ||| (v &&& i.rw)
  let s1 := s.setReg r (w1 &&& ~~~(v &&& i.w1c))
  if i.st = 0 then s1
  else
    let now := (Bank.get noStage s1.staged r.addr).getD (s1.reg r)
    let w2 := (now &&& ~~~i.st) ||| (v &&& i.st)
    let s2 := { s1 with staged := Bank.set noStage s1.staged r.addr (some w2) }
    match commitOf r with
    | some c => { s2 with writer := Bank.set noWriter s2.writer c.addr (writerCode who) }
    | none => s2

/-- TILE_MXINJ (R81): it has effect only while the tile is fenced for test. -/
def State.writeInject (s : State) (t : Nat) (v : Word) : State :=
  let x := s.tile t
  if x.fenced && bit v.toNat 0 then s.setTile t { x with arr := { x.arr with inject := true } } else s

/-- POWER_LIMIT and POWER_STRETCH (R392, R395): a limit outside 600 W to 2,200 W is ignored. -/
def State.writePower (s : State) (r : Reg) (v : Word) : State :=
  match r with
  | .powerLimit => if 600 ≤ fld v 15 0 ∧ fld v 15 0 ≤ 2200 then s.setRegFld .powerLimit 15 0 (fld v 15 0) else s
  | .powerStretch p => s.setReg (.powerStretch p) (v &&& 0xFFFF)
  | _ => s

/-- A write that reached a register, with the effect that the register's rule gives it. -/
def State.writeReg (s : State) (who : Issuer) (field : Nat) (r : Reg) (v : Word) : State :=
  match r with
  | .cmdDoorbell h => s.writeDoorbell who h v
  | .cmdCtail h n => s.writeCtail h n v
  | .cmdRhead h n => s.writeRhead h n v
  | .cmdRctl h n => s.writeRctl h n v
  | .cmdCbaseLo h n => if s.regBit (.cmdRctl h n) 31 then s else s.writeCodes who r v
  | .cmdCbaseHi h n => if s.regBit (.cmdRctl h n) 31 then s else s.writeCodes who r v
  | .cmdRbaseLo h n => if s.regBit (.cmdRctl h n) 31 then s else s.writeCodes who r v
  | .cmdRbaseHi h n => if s.regBit (.cmdRctl h n) 31 then s else s.writeCodes who r v
  | .pigeonData _ g =>
    if !s.isClaimant who field g then s.pigeonBusy g
    else if s.pigeonGo g then s
    else s.setReg r v
  | .pigeonSend g =>
    let a := if bit v.toNat 0 then s.claimHole who field g else s
    let b := if bit v.toNat 1 then a.goHole who field g else a
    if bit v.toNat 2 then b.dropHole who field g else b
  | .pigeonTake g => if bit v.toNat 0 then s.takeHole who field g else s
  | .pigeonOwn _ => if who = .mgmt then s.writeCodes who r v else s
  | .pigeonTimeout => if fld v 15 0 = 0 then s else s.writeCodes who r v
  | .dmaChctl c => s.writeChctl c v
  | .dmaChstartLo c => s.writeChstart c false (decide (who = .mgmt)) v
  | .dmaChstartHi c => s.writeChstart c true (decide (who = .mgmt)) v
  | .bellCommit _ => s.writeCommit r v
  | .watchCommit _ => s.writeCommit r v
  | .linkCommit => s.writeCommit r v
  | .pigeonCommit => s.writeCommit r v
  | .secCommit => if who = .mgmt then s.writeCommit r v else s
  | .tileCommit _ => s.writeCommit r v
  | .powerLimit => s.writePower r v
  | .powerStretch _ => s.writePower r v
  | .powerTherm => if 60 ≤ fld v 31 24 ∧ fld v 31 24 ≤ 92 then s.writeCodes who r v else s
  | .tileMxinj t => s.writeInject t v
  | _ => s.writeCodes who r v

/-- One 32-bit write (R414 to R419): its events, then its effect where it reaches a register. -/
def State.access (s : State) (who : Issuer) (field addr : Nat) (v : Word) (enables : BitVec 4) : State :=
  if !s.served who then s
  else
    let foreign := s.foreign who addr true
    let part := enables != 15
    let busy := match windowAt addr with
      | some t => s.winBusy t
      | none => false
    let s1 := s.accEvent who addr foreign part busy
    if foreign || part || busy then s1
    else
      match regAt addr with
      | some r => s1.writeReg who field r v
      | none => s1

/-- A write to a named register. -/
def State.accessReg (s : State) (who : Issuer) (field : Nat) (r : Reg) (v : Word) : State := s.access who field r.addr v 15

/-! ### Reads -/

/-- Pending GO bits of 32 pigeonholes, masked for a host (R310). -/
def State.pendWord (s : State) (who : Issuer) (lo : Nat) : Word :=
  BitVec.ofNat 32 (((List.range 32).map fun b =>
    let g := lo + b
    let seen := match hostOf who with
      | some h => s.pigeonOf h g
      | none => true
    if s.pigeonGo g && seen then 2 ^ b else 0).foldl (· + ·) 0)

/-- The word that a read of a register returns: WO bits read 0, and the registers that show other state (R304, R310, R325,
R292). -/
def State.view (s : State) (who : Issuer) (r : Reg) : Word :=
  match r with
  | .cmdDbpend h n =>
    BitVec.ofNat 32 (((List.range 32).map fun b => if s.doorbell (512 * b2n h + 32 * n + b) then 2 ^ b else 0).foldl (· + ·) 0)
  | .pigeonPendLo => s.pendWord who 0
  | .pigeonPendHi => s.pendWord who 32
  | .dmaStat => BitVec.ofNat 32 (65536 * s.bufferLines + ((List.range 512).filter fun c => s.chState c == 1).length)
  | .watchStat p => setFld (s.reg r) 29 29 (1 - s.regFld (.watchZerorun p) 31 31)
  | _ => s.reg r &&& ~~~r.info.wo

/-- The high word of the 64-bit register whose low word is r (R233, R340, R414). -/
def highOf : Reg → Option Reg
  | .checkSeedLo p => some (.checkSeedHi p)
  | .checkStepLo p => some (.checkStepHi p)
  | .checkCstepLo p => some (.checkCstepHi p)
  | .checkMstepLo p => some (.checkMstepHi p)
  | .checkEdstepLo p => some (.checkEdstepHi p)
  | _ => none

/-- Whether a register is the high word of a 64-bit register. -/
def isHigh : Reg → Bool
  | .checkSeedHi _ => true
  | .checkStepHi _ => true
  | .checkCstepHi _ => true
  | .checkMstepHi _ => true
  | .checkEdstepHi _ => true
  | _ => false

/-- An empty latch: bit 32 says that it holds a word. -/
def noLatch : Nat → BitVec 33 := fun _ => 0

/-- The key of an issuer path's latch of a high word: each monitor has its own. -/
def latchKey (who : Issuer) (field addr : Nat) : Nat :=
  (issuerCode who + (if who = .monitor then field else 0)) * 2 ^ 24 + addr

/-- The part after a register's value has been taken: the next count of DMA_STAT is another (R325). -/
def State.looked (s : State) (r : Reg) : State := if r = .dmaStat then s.draw else s

/-- One 32-bit read (R414 to R418): its word, and the part with the event or the latch that it leaves. -/
def State.readWord (s : State) (who : Issuer) (field addr : Nat) : Word × State :=
  if !s.served who then (0, s)
  else
    let foreign := s.foreign who addr false
    let busy := match windowAt addr with
      | some t => s.winBusy t
      | none => false
    if foreign || busy then (0, s.accEvent who addr foreign false busy)
    else
      match regAt addr with
      | none => (0, s)
      | some r =>
        let s1 := match highOf r with
          | some hi => { s with latch := Bank.set noLatch s.latch (latchKey who field hi.addr) (1#1 ++ s.view who hi) }
          | none => s
        let l := Bank.get noLatch s.latch (latchKey who field addr)
        (if isHigh r && l.getLsbD 32 then l.extractLsb' 0 32 else s.view who r, s1.looked r)

/-- The bytes that a read enables of a word. -/
def byteMask (enables : Nat) : Word :=
  BitVec.ofNat 32 (((List.range 4).map fun i => if bit enables i then 255 * 256 ^ i else 0).foldl (· + ·) 0)

/-- A read of 1 to 8 bytes (R414): the enabled bytes of the word at the address and of the next one, low word first. A host in its
partition's eraser pass gets an Unsupported Request (R350); a port in reset gives no answer (R401, R419). -/
def State.read (s : State) (r : Reader) (addr : Nat) : State :=
  if !s.served r.who then
    match hostOf r.who with
    | some h => if s.hostUp h then s.emit (.unsupported h addr) else s
    | none => s
  else
    ([0, 1].filter fun k => fld (r.enables.setWidth 32) (4 * k + 3) (4 * k) ≠ 0).foldl (fun (acc : State) k =>
      let w := acc.readWord r.who r.field (addr + 4 * k)
      w.2.emit (.value r.who (addr + 4 * k) (w.1 &&& byteMask (fld (r.enables.setWidth 32) (4 * k + 3) (4 * k))))) s

end Sys2Proof.Machine
end

