-- ==== Sys2Proof/Machine/Office.lean ====
section
/-! DEFINITION. Register accesses as commands: CMD_DOORBELL, CMD_CTAIL, CMD_RHEAD, CMD_RCTL, COMMIT_WRITE, POWER_LIMIT_WRITE,
INJECT, LATCHED_LOW_WORD_READ, REGISTER_WRITE, REGISTER_READ_ACCERR, MGMT_REGISTER_READ and MGMT_REGISTER_WRITE; pigeonholes:
CLAIM, GO, DROP, TAKE, PIGEONHOLE_TIMEOUT, PIGEONHOLE_MESSAGE_FRAME, PIGEONHOLE_REPLY_FRAME and PEER_REPLY_TIMEOUT. -/

set_option Elab.async false

namespace Sys2Proof.Machine

/-! ### Register writes -/

/-- A result for a unit that exists. -/
def ifUnit (ok : Bool) (r : State) : Host.Outcome State Fault Refusal := if ok then .next r else .fault .noSuchUnit

/-- CMD_DOORBELL (R304, R311). -/
def execCmdDoorbell (who : Issuer) (h : Bool) (v : Word) (s : State) : Host.Outcome State Fault Refusal :=
  .next (s.accessReg who 0 (.cmdDoorbell h) v)

/-- CMD_CTAIL of a ring (R304, R311). -/
def execCmdCtail (who : Issuer) (h : Bool) (r : Nat) (v : Word) (s : State) : Host.Outcome State Fault Refusal :=
  ifUnit (decide (r < 256)) (s.accessReg who 0 (.cmdCtail h r) v)

/-- CMD_RHEAD of a ring (R295, R311). -/
def execCmdRhead (who : Issuer) (h : Bool) (r : Nat) (v : Word) (s : State) : Host.Outcome State Fault Refusal :=
  ifUnit (decide (r < 256)) (s.accessReg who 0 (.cmdRhead h r) v)

/-- CMD_RCTL of a ring (R295, R303, R311). -/
def execCmdRctl (who : Issuer) (h : Bool) (r : Nat) (v : Word) (s : State) : Host.Outcome State Fault Refusal :=
  ifUnit (decide (r < 256)) (s.accessReg who 0 (.cmdRctl h r) v)

/-- COMMIT_WRITE (R17, R18). -/
def execCommitWrite (who : Issuer) (addr : Nat) (v : Word) (s : State) : Host.Outcome State Fault Refusal :=
  .next (s.access who 0 addr v 15)

/-- POWER_LIMIT_WRITE: a write of POWER_LIMIT or POWER_STRETCH (R392, R395). -/
def execPowerLimitWrite (who : Issuer) (addr : Nat) (v : Word) (s : State) : Host.Outcome State Fault Refusal :=
  .next (s.access who 0 addr v 15)

/-- INJECT: a write of TILE_MXINJ (R81). -/
def execInject (who : Issuer) (tile : Nat) (v : Word) (s : State) : Host.Outcome State Fault Refusal :=
  ifUnit (decide (tile < 2500)) (s.accessReg who 0 (.tileMxinj tile) v)

/-- REGISTER_WRITE (R15, R414 to R419). -/
def execRegisterWrite (who : Issuer) (addr : Nat) (v : Word) (enables : BitVec 4) (s : State) : Host.Outcome State Fault Refusal :=
  .next (s.access who 0 addr v enables)

/-! ### Register reads -/

/-- LATCHED_LOW_WORD_READ (R233, R414). -/
def execLatchedLowWordRead (r : Reader) (addr : Nat) (s : State) : Host.Outcome State Fault Refusal := .next (s.read r addr)

/-- REGISTER_READ_ACCERR (R416, R418). -/
def execRegisterReadAccerr (r : Reader) (addr : Nat) (s : State) : Host.Outcome State Fault Refusal := .next (s.read r addr)

/-! ### Management register messages (R417) -/

/-- The status of a register access message: the operation, then its form, then its addresses. -/
def mgmtStatus (b : Bytes) : Nat :=
  let op := field b 1 1
  let n := field b 2 1
  let a := field b 4 4
  if op ≠ 1 ∧ op ≠ 2 then 2
  else if n = 0 ∨ 16 < n ∨ field b 3 1 ≠ 0 ∨ b.length ≠ (if op = 1 then 8 else 8 + 4 * n) then 3
  else if a % 4 ≠ 0 ∨ 0xFFFFFF < a + 4 * n - 1 then 1
  else 0

/-- Reads n words for management, from address a. -/
def State.readWords (s : State) (a n : Nat) : List Word × State :=
  (List.range n).foldl (fun (acc : List Word × State) i =>
    let r := acc.2.readWord .mgmt 0 (a + 4 * i)
    (acc.1 ++ [r.1], r.2)) ([], s)

/-- One register access message from management, and its reply; another message type is not one. -/
def State.mgmtAccess (s : State) (b : Bytes) : State :=
  if field b 0 1 ≠ 0x10 ∨ !s.pins.mgmt then s
  else
    let st := mgmtStatus b
    let n := field b 2 1
    let a := field b 4 4
    let head := [0x10] ++ toLE 1 st ++ toLE 1 n ++ [0] ++ toLE 4 a
    if st ≠ 0 then s.emit (.mctp head)
    else if field b 1 1 = 1 then
      let r := s.readWords a n
      r.2.emit (.mctp (head ++ r.1.flatMap fun w => toLE 4 w.toNat))
    else
      let s1 := (List.range n).foldl (fun (acc : State) i =>
        acc.access .mgmt 0 (a + 4 * i) (BitVec.ofNat 32 (field b (8 + 4 * i) 4)) 15) s
      s1.emit (.mctp head)

/-- MGMT_REGISTER_READ (R417). -/
def execMgmtRegisterRead (b : Bytes) (s : State) : Host.Outcome State Fault Refusal := .next (s.mgmtAccess b)

/-- MGMT_REGISTER_WRITE (R417). -/
def execMgmtRegisterWrite (b : Bytes) (s : State) : Host.Outcome State Fault Refusal := .next (s.mgmtAccess b)

/-! ### Pigeonholes -/

/-- A write of a pigeonhole register by a writer that reaches it. -/
def holeAccess (who : Issuer) (f n : Nat) (r : Reg) (v : Word) (s : State) : Host.Outcome State Fault Refusal :=
  ifUnit (decide (n < 64) && decide (f < 6)) (s.accessReg who f r v)

/-- CLAIM (R305). -/
def execClaim (who : Issuer) (f n : Nat) (s : State) : Host.Outcome State Fault Refusal := holeAccess who f n (.pigeonSend n) 1 s

/-- GO (R305, R308). -/
def execGo (who : Issuer) (f n : Nat) (s : State) : Host.Outcome State Fault Refusal := holeAccess who f n (.pigeonSend n) 2 s

/-- DROP (R309). -/
def execDrop (who : Issuer) (f n : Nat) (s : State) : Host.Outcome State Fault Refusal := holeAccess who f n (.pigeonSend n) 4 s

/-- TAKE (R305). -/
def execTake (who : Issuer) (f n : Nat) (s : State) : Host.Outcome State Fault Refusal := holeAccess who f n (.pigeonTake n) 1 s

/-- PIGEONHOLE_TIMEOUT (R305, R308). -/
def execPigeonholeTimeout (n : Nat) (s : State) : Host.Outcome State Fault Refusal := ifUnit (decide (n < 64)) (s.lapseHole n)

/-- A pigeonhole frame at a port: nothing where the port carries no traffic, sent on where this seat relays it (R204); else what a
frame for this part does. -/
def State.holeFrame (s : State) (port : Nat) (f : Frame) (take : State → State) : State :=
  let s1 := s.unhand port f
  if !s1.carries port then s1
  else
    match s1.forwardTo port f with
    | some o => s1.sendFrame o f
    | none => take s1

/-- A peer's message for this part (R306, R307): refused without EN and PEER, busy when claimed; otherwise claim, data and GO
together, stamped with the seat of the header and the room of the port's identity. -/
def State.ownMessage (s1 : State) (port : Nat) (f : Frame) : State :=
  let b := padTo 256 f.payload
  let g := f.queue.toNat - 8000
  let tag := BitVec.ofNat 16 (field b 2 2)
  if f.queue.toNat < 8000 ∨ 8064 ≤ f.queue.toNat ∨ field b 0 1 ≠ 1 then s1
  else if !s1.regBit (.pigeonOwn g) 31 || !s1.regBit (.pigeonOwn g) 23 then s1.peerReply port g tag 7
  else if s1.pigeonClaimed g then s1.peerReply port g tag 6
  else
    let from_ := 7 * 2 ^ 28 + f.seat.toNat * 2 ^ 16 + s1.regFld (.linkStat port) 8 0
    let s2 := (s1.setRegBit (.pigeonStat g) 30 true).setReg (.pigeonFrom g) (BitVec.ofNat 32 from_)
    let s3 := (List.range 16).foldl (fun (acc : State) k => acc.setReg (.pigeonData k g) (BitVec.ofNat 32 (field b (8 + 4 * k) 4))) s2
    { s3 with peerMsg := Bank.set noPeer s3.peerMsg g (some (port, tag)) }.pigeonSendNow g

/-- A peer's message frame (R204, R306, R307). -/
def State.peerMessage (s : State) (port : Nat) (f : Frame) : State := s.holeFrame port f fun a => a.ownMessage port f

/-- This part's principal sends a message to a peer (R306, R307): a message frame of its tag, words and count to queue 8000 + n, and it
waits for the reply. A port that is not up is a dead receiver at once (R308). -/
def State.sendPeer (s : State) (port : Nat) (f : Frame) : State :=
  let b := padTo 256 f.payload
  let g := f.queue.toNat - 8000
  let tag := BitVec.ofNat 16 (field b 2 2)
  let n := field b 4 1
  if f.queue.toNat < 8000 ∨ 8064 ≤ f.queue.toNat ∨ n = 0 ∨ 16 < n then s
  else if s.regFld (.linkStat (s.txPort port)) 31 28 ≠ 3 then { s with peerDone := s.peerDone ++ [(tag, 1)] }
  else
    let body := padTo 256 ([1] ++ toLE 1 g ++ toLE 2 tag.toNat ++ toLE 1 n ++ [0, 0, 0] ++ (b.drop 8).take (4 * n))
    { s with peerSent := s.peerSent ++ [tag] }.sendFrame port ⟨0, 0, 6, f.queue, 0, 0, BitVec.ofNat 5 s.seat, body⟩

/-- PIGEONHOLE_MESSAGE_FRAME (R306, R307): one that a peer sent, or (`e.own`) one that this part's principal sends. -/
def execPigeonholeMessageFrame (e : MessageEnd) (f : Frame) (s : State) : Host.Outcome State Fault Refusal :=
  onPort e.port s (if e.own then s.sendPeer e.port f else s.peerMessage e.port f)

/-- A reply for this part (R307): the sending principal scans the queue and learns the outcome of its message (R304; log 142). -/
def State.ownAnswer (s1 : State) (f : Frame) : State :=
  let b := padTo 256 f.payload
  let tag := BitVec.ofNat 16 (field b 2 2)
  if f.queue.toNat ≠ 7938 ∨ field b 0 1 ≠ 2 ∨ !s1.peerSent.contains tag then s1
  else { s1 with
         peerSent := s1.peerSent.erase tag, peerDone := s1.peerDone ++ [(tag, BitVec.ofNat 8 (field b 4 1))] }

/-- A reply frame (R204, R307). -/
def State.peerAnswer (s : State) (port : Nat) (f : Frame) : State := s.holeFrame port f fun a => a.ownAnswer f

/-- PIGEONHOLE_REPLY_FRAME (R307). -/
def execPigeonholeReplyFrame (port : Nat) (f : Frame) (s : State) : Host.Outcome State Fault Refusal :=
  onPort port s (s.peerAnswer port f)

/-- PEER_REPLY_TIMEOUT (R307): no reply within 1 s counts as outcome 1. -/
def execPeerReplyTimeout (tag : BitVec 16) (s : State) : Host.Outcome State Fault Refusal :=
  if s.peerSent.contains tag then .next { s with peerSent := s.peerSent.erase tag, peerDone := s.peerDone ++ [(tag, 1)] }
  else .next s

end Sys2Proof.Machine
end

