-- ==== Sys2Proof/Machine/Dma.lean ====
section
/-! DEFINITION. The DMA engine (R312 to R325): checks, data movement, completion, and the commands DMA_CHSTART, HALT,
DMA_COPY, DMA_FILL, DMA_COMPARE, DMA_FENCE, DMA_DESCRIPTOR_COMPLETE and DMA_HOST_TIMEOUT. -/

set_option Elab.async false

namespace Sys2Proof.Machine

/-! ### Descriptors -/

/-- The descriptor that 64 bytes spell (R314). -/
def descOf (b : Bytes) : Descriptor :=
  { b0 := BitVec.ofNat 8 (field b 0 1), flags := BitVec.ofNat 8 (field b 1 1), srcsp := BitVec.ofNat 8 (field b 2 1),
    dstsp := BitVec.ofNat 8 (field b 3 1), length := BitVec.ofNat 32 (field b 4 4), count := BitVec.ofNat 16 (field b 8 2),
    zero16 := BitVec.ofNat 16 (field b 10 2), tag := BitVec.ofNat 32 (field b 12 4), src := BitVec.ofNat 64 (field b 16 8),
    dst := BitVec.ofNat 64 (field b 24 8), sstride := BitVec.ofNat 32 (field b 32 4), dstride := BitVec.ofNat 32 (field b 36 4),
    next := BitVec.ofNat 64 (field b 40 8), zero128 := BitVec.ofNat 128 (field b 48 16) }

/-- Operation code; values above 3 are undefined. -/
def dOp (d : Descriptor) : Nat := d.b0.toNat

/-- FILLCMP of a COMPARE. -/
def dFillCmp (d : Descriptor) : Bool := d.flags.toNat.testBit 1

/-- Whether the source field is the constant (R314). -/
def dConst (d : Descriptor) : Bool := dOp d == 1 || (dOp d == 2 && dFillCmp d)

/-- A COPY, FILL or COMPARE of length 0: link-only (R317). -/
def dLinkOnly (d : Descriptor) : Bool := dOp d != 3 && d.length == 0

/-- Whether a descriptor addresses a space (R313, R314): a FENCE and a link-only descriptor address none. -/
def dUses (d : Descriptor) (space : Nat) : Bool :=
  decide (dOp d < 3) && !dLinkOnly d && (d.dstsp.toNat == space || (!dConst d && d.srcsp.toNat == space))

/-- Source address of repeat i. -/
def dSrc (d : Descriptor) (i : Nat) : Nat := d.src.toNat + i * d.sstride.toNat
/-- Destination address of repeat i. -/
def dDst (d : Descriptor) (i : Nat) : Nat := d.dst.toNat + i * d.dstride.toNat

/-- The first row of R317's table: operation, flags, spaces and zero bytes valid for the operation. -/
def dValid (d : Descriptor) : Bool :=
  let op := dOp d
  decide (op < 4) && decide (d.flags.toNat < 4) && (!dFillCmp d || op == 2) && decide (d.srcsp.toNat < 4) && decide (d.dstsp.toNat < 4)
    && d.zero16 == 0 && d.zero128 == 0 && (!dConst d || d.srcsp == 0)
    && (op != 3 || (d.length == 0 && d.srcsp == 0 && d.dstsp == 0 && d.src == 0 && d.dst == 0 && d.sstride == 0 && d.dstride == 0))

/-- Alignment of addresses, length and strides. -/
def dAligned (d : Descriptor) : Bool :=
  (dConst d || d.src.toNat % 64 == 0) && d.dst.toNat % 64 == 0 && d.length.toNat % 64 == 0 && d.sstride.toNat % 64 == 0
    && d.dstride.toNat % 64 == 0 && d.next.toNat % 64 == 0

/-- The repeat count and the total. -/
def dCounted (d : Descriptor) : Bool :=
  d.count != 0 && decide (d.length.toNat * d.count.toNat ≤ 2 ^ 32) && (dOp d != 3 || d.count == 1)

/-- Whether some destination range of a descriptor meets the source range that begins at address a. -/
def dMeets (d : Descriptor) (a : Nat) : Bool :=
  let n := d.length.toNat
  let b := d.dst.toNat
  let st := d.dstride.toNat
  if st = 0 then decide (b < a + n) && decide (a < b + n)
  else
    -- the least j with a < b + j·st + n
    let j := if b + n ≤ a then (a - (b + n)) / st + 1 else 0
    decide (j < d.count.toNat) && decide (b + j * st < a + n)

/-- Source and destination of a COPY overlap in one space. -/
def dOverlap (d : Descriptor) : Bool :=
  dOp d == 0 && d.srcsp == d.dstsp && (List.range d.count.toNat).any fun i => dMeets d (dSrc d i)

/-- Desk and shelf addresses (R316): grid row, grid column, byte address, and whether every other bit is 0. -/
def deskAddr (a : Nat) : Nat × Nat × Nat × Bool :=
  (bits a 47 40, bits a 39 32, bits a 21 0, decide (bits a 63 48 = 0 ∧ bits a 31 22 = 0 ∧ a < 2 ^ 64))

/-- The physical tile that a desk or shelf address of partition p names under the loaded lesson's grid. -/
def State.dmaTile (s : State) (p : Bool) (a : Nat) : Option Nat :=
  match s.lesson p with
  | none => none
  | some l =>
    let x := deskAddr a
    match s.physTile l.cols x.1 x.2.1 with
    | some t => if s.tilePart t = some p then some t else none
    | none => none

/-- Whether a range of n bytes lies in its space, and the space is reachable now (R316, R317). -/
def State.dmaInside (s : State) (p : Bool) (sp a n : Nat) : Bool :=
  match sp with
  | 0 => decide (a + n ≤ 2 ^ 64)
  | 1 => decide (a + n ≤ 2 ^ 37) && (s.lesson p).isSome
  | k =>
    let x := deskAddr a
    x.2.2.2 && !s.running p && (s.dmaTile p a).isSome && decide (x.2.2.1 + n ≤ memSize (k == 3))

/-- The 64-byte lines of a descriptor in order: offset, source address, destination address. -/
def dLines (d : Descriptor) : List (Nat × Nat × Nat) :=
  let k := d.length.toNat / 64
  (List.range d.count.toNat).flatMap fun i =>
    (List.range k).map fun j => ((i * k + j) * 64, dSrc d i + 64 * j, dDst d i + 64 * j)

/-- The first offset at which a stash page does not translate, with its address (R317, R321). -/
def State.dmaUnmapped (s : State) (p : Bool) (d : Descriptor) : Option (Nat × Nat) :=
  (dLines d).findSome? fun x =>
    if !dConst d && d.srcsp == 1 && (s.translate p x.2.1 false).isNone then some (x.1, x.2.1)
    else if d.dstsp == 1 && (s.translate p x.2.2 (dOp d != 2)).isNone then some (x.1, x.2.2)
    else none

/-- The reads of the page table for a descriptor's stash addresses (R128, R317). -/
def State.dmaWalk (s : State) (p : Bool) (d : Descriptor) : State :=
  s.walk p ((dLines d).flatMap fun x =>
    (if !dConst d && d.srcsp == 1 then [x.2.1] else []) ++ (if d.dstsp == 1 then [x.2.2] else []))

/-- The first check that fails (R317): its code and, for a translation fault, the offset and the address. -/
def State.dmaCheck (s : State) (p : Bool) (d : Descriptor) : Option (Nat × Nat × Nat) :=
  let n := d.length.toNat
  if !dValid d then some (3, 0, 0)
  else if !dAligned d then some (1, 0, 0)
  else if !dCounted d then some (2, 0, 0)
  else if dOp d = 3 ∨ dLinkOnly d then none
  else if dOverlap d then some (3, 0, 0)
  else if !(List.range d.count.toNat).all fun i =>
      (dConst d || s.dmaInside p d.srcsp.toNat (dSrc d i) n) && s.dmaInside p d.dstsp.toNat (dDst d i) n then some (5, 0, 0)
  else
    match s.dmaUnmapped p d with
    | some x => some (4, x.1, x.2)
    | none => none

/-! ### Data -/

/-- A descriptor under way: the part, host bytes not yet delivered, host bytes used, the bytes moved, and how it stopped: an
error code, or 0 for a host read that has not completed. -/
structure DmaRun where
  s     : State
  host  : Bytes
  used  : Nat
  moved : Nat
  stop  : Option Nat

/-- What one line's read gives: its bytes, or an error code, or 0 while the host has not answered. -/
def DmaRun.read (r : DmaRun) (e : DmaEnv) (h p : Bool) (sp a : Nat) : (Bytes ⊕ Nat) × DmaRun :=
  match sp with
  | 0 =>
    let ok := match e.hostOk with
      | some n => decide (r.used + 64 ≤ n)
      | none => true
    if !r.s.hostUp h || !ok then (.inr 8, r)
    else if r.host.length < 64 then (.inr 0, r)
    else (.inl (r.host.take 64), { r with host := r.host.drop 64, used := r.used + 64 })
  | 1 =>
    match r.s.translate p a false with
    | none => (.inr 4, r)
    | some x =>
      let q := r.s.stashLine (x / 64) (some p)
      (if q.1 then .inr 7 else .inl (Bank.bytes r.s.stash x 64), { r with s := q.2 })
  | k =>
    match r.s.dmaTile p a with
    | none => (.inr 5, r)
    | some t =>
      let o := (deskAddr a).2.2.1
      let shelf := k == 3
      let ws := (r.s.tile t).markedIn shelf o 64
      let bad := ws.any fun w => decide (2 ≤ (Bank.get noErr (r.s.tile t).errs (errKey shelf w)).toNat)
      let s1 := ws.foldl (fun (acc : State) w => acc.wordRead (queueCtx t) shelf w false) r.s
      (if bad then .inr 7 else .inl (Bank.bytes ((r.s.tile t).mem shelf) o 64), { r with s := s1 })

/-- One line written. -/
def State.dmaWrite (s : State) (h p : Bool) (sp a : Nat) (b : Bytes) : State :=
  match sp with
  | 0 => s.emit (.hostWrite h a b)
  | 1 =>
    match s.translate p a true with
    | some x => s.writeStash x b
    | none => s
  | k =>
    match s.dmaTile p a with
    | some t => s.writeCore (queueCtx t) (k == 3) (deskAddr a).2.2.1 b
    | none => s

/-- The constant of FILL and FILLCMP, eight times in a line. -/
def fillLine (d : Descriptor) : Bytes := (List.range 8).flatMap fun _ => toLE 8 d.src.toNat

/-- One line of a descriptor (R313, R315). -/
def DmaRun.line (r : DmaRun) (e : DmaEnv) (h p : Bool) (d : Descriptor) (x : Nat × Nat × Nat) : DmaRun :=
  if r.stop.isSome then r
  else
    let a := if dConst d then (.inl (fillLine d), r) else r.read e h p d.srcsp.toNat x.2.1
    match a.1 with
    | .inr c => { a.2 with stop := some c }
    | .inl b =>
      if dOp d = 2 then
        let q := a.2.read e h p d.dstsp.toNat x.2.2
        match q.1 with
        | .inr c => { q.2 with stop := some c }
        | .inl z => if z = b then { q.2 with moved := x.1 + 64 } else { q.2 with stop := some 6 }
      else if d.dstsp = 0 ∧ !a.2.s.hostUp h then { a.2 with stop := some 8 }
      else { a.2 with s := a.2.s.dmaWrite h p d.dstsp.toNat x.2.2 b, moved := x.1 + 64 }

/-- The host port of a channel's transactions (R316): management's chains use host port A. -/
def State.chanHost (s : State) (c : Nat) : Bool := if (s.chan c).mgmt then false else chanPart c

/-- DMA_CHCUR of a channel. -/
def State.chcur (s : State) (c : Nat) : Nat := (s.reg64 (.dmaChcurLo c) (.dmaChcurHi c)).toNat

/-- The descriptor at DMA_CHCUR (R314, R320): from host memory, what the fetch delivers; from stash memory, its 64 bytes; none
when the fetch fails. -/
def State.fetchDesc (s : State) (c : Nat) (e : DmaEnv) : Option Descriptor × State :=
  if s.regBit (.dmaChctl c) 29 then
    let a := s.chcur c
    if a % 64 ≠ 0 ∨ (s.lesson (chanPart c)).isNone then (none, s)
    else
      match s.translate (chanPart c) a false with
      | none => (none, s.walk (chanPart c) [a])
      | some x =>
        let q := (s.walk (chanPart c) [a]).stashLine (x / 64) (some (chanPart c))
        (if q.1 then none else some (descOf (Bank.bytes s.stash x 64)), q.2)
  else (if s.hostUp (s.chanHost c) && s.chcur c % 64 == 0 then e.desc else none, s)

/-- The record of a translation fault (R277, R321): the channel's queue and the address. -/
def State.dmaFaultRec (s : State) (c addr : Nat) : State :=
  s.logErr { code := 0x0031, cls := 1, kind := 2, unit := toLE 2 (1024 + c), part := some (chanPart c), loc := addr }

/-- A channel starts the descriptor at DMA_CHCUR (R317, R321): checked whole, then moved line by line. `op` is the operation of
the command; a descriptor of another defined operation is another command's. -/
def State.runDesc (s : State) (c : Nat) (op : Nat) (e : DmaEnv) : State :=
  let x := s.chan c
  if s.chState c ≠ 1 ∨ x.cur.isSome then s
  else
    match s.fetchDesc c e with
    | (none, s1) => s1.stopChan c 9 0
    | (some d, s1) =>
      let p := chanPart c
      if dOp d < 4 ∧ dOp d ≠ op then s
      else
        match s1.dmaCheck p d with
        | some (code, off, addr) => (if code = 4 then (s1.dmaWalk p d).dmaFaultRec c addr else s1).stopChan c code off
        | none =>
          if dOp d = 3 ∨ dLinkOnly d then s1.setChan c { x with cur := some d, done := true, moved := 0 }
          else
            let r := (dLines d).foldl (fun (acc : DmaRun) y => acc.line e (s1.chanHost c) p d y) ⟨s1.dmaWalk p d, e.host, 0, 0, none⟩
            match r.stop with
            | none => r.s.setChan c { x with cur := some d, done := true, moved := r.moved }
            | some 0 => r.s.setChan c { x with cur := some d, done := false, moved := r.moved }
            | some k => r.s.stopChan c k r.moved

/-- A channel that exists (R312). -/
def onChan (c : Nat) (r : State) : Host.Outcome State Fault Refusal := if c < 512 then .next r else .fault .noSuchUnit

/-- DMA_CHSTART: the high-word write (R320). -/
def execDmaChstart (who : Issuer) (c : Nat) (v : Word) (s : State) : Host.Outcome State Fault Refusal :=
  onChan c (s.accessReg who 0 (.dmaChstartHi c) v)

/-- HALT of a channel, with the other fields of DMA_CHCTL as they are (R323, R324). -/
def execHalt (who : Issuer) (c : Nat) (s : State) : Host.Outcome State Fault Refusal :=
  onChan c (s.accessReg who 0 (.dmaChctl c) (s.reg (.dmaChctl c) ||| 0x40000000))

/-- DMA_COPY (R315). -/
def execDmaCopy (c : Nat) (e : DmaEnv) (s : State) : Host.Outcome State Fault Refusal := onChan c (s.runDesc c 0 e)

/-- DMA_FILL (R315). -/
def execDmaFill (c : Nat) (e : DmaEnv) (s : State) : Host.Outcome State Fault Refusal := onChan c (s.runDesc c 1 e)

/-- DMA_COMPARE (R315). -/
def execDmaCompare (c : Nat) (e : DmaEnv) (s : State) : Host.Outcome State Fault Refusal := onChan c (s.runDesc c 2 e)

/-- DMA_FENCE (R315): every earlier write of the channel has arrived. -/
def execDmaFence (c : Nat) (e : DmaEnv) (s : State) : Host.Outcome State Fault Refusal := onChan c (s.runDesc c 3 e)

/-- The descriptor that a channel executes completes (R319, R320): tag, DONE, vector; then the next descriptor, or the end of
the chain. -/
def State.descDone (s : State) (c : Nat) : State :=
  let x := s.chan c
  match x.cur with
  | none => s
  | some d =>
    if !x.done ∨ s.chState c ≠ 1 then s
    else
      let note := d.flags.toNat.testBit 0
      let s1 := if note then s.setReg (.dmaChtag c) d.tag else s
      let s2 := s1.setRegFld (.dmaChstat c) 15 0 (s1.regFld (.dmaChstat c) 15 0 + 1)
      let s3 := if note && !x.mgmt then s2.raise (chanPart c) (s2.regFld (.dmaChctl c) 28 21) else s2
      let s4 := s3.setChan c { x with cur := none, done := false, moved := 0 }
      if d.next = 0 then s4.boundary c true
      else (s4.setReg64 (.dmaChcurLo c) (.dmaChcurHi c) d.next).boundary c false

/-- DMA_DESCRIPTOR_COMPLETE (R319, R320). -/
def execDmaDescriptorComplete (c : Nat) (s : State) : Host.Outcome State Fault Refusal := onChan c (s.descDone c)

/-- DMA_HOST_TIMEOUT (R321): a host completion that takes more than 50 ms; at a fetch, error 0x09. -/
def State.hostTimeout (s : State) (c : Nat) : State :=
  let x := s.chan c
  if s.chState c ≠ 1 ∨ x.done then s
  else if x.cur.isSome then s.stopChan c 8 x.moved
  else if s.regBit (.dmaChctl c) 29 then s
  else s.stopChan c 9 0

/-- The channels of partition p come to a stop for a change of its page table (R322): a descriptor that has moved its data completes,
one that waits for its host takes the time limit's outcome. The wait itself is time (log 134). -/
def State.drainChans (s : State) (p : Bool) : State :=
  (chansOf p).foldl (fun (acc : State) c => if (acc.chan c).done then acc.descDone c else acc.hostTimeout c) (s.pauseChans p)

/-- DMA_HOST_TIMEOUT (R321). -/
def execDmaHostTimeout (c : Nat) (s : State) : Host.Outcome State Fault Refusal := onChan c (s.hostTimeout c)

end Sys2Proof.Machine
end

