-- ==== Sys2Proof/Machine/Reset.lean ====
section
/-! DEFINITION. Shared by the commands that follow: parameter checks, unloading a lesson, resetting a partition's tiles
(R349, R373), fences of a partition and of the part (R271), and the memories that an eraser pass or a start zeroes. -/

set_option Elab.async false

namespace Sys2Proof.Machine

/-! ### Parameters -/

/-- The partition that byte 8 of a packet names. -/
def pktPart (k : Packet) : Option Bool :=
  match pktArg k 8 1 with
  | 0 => some false
  | 1 => some true
  | _ => none

/-- The first byte of packet bytes lo to hi − 1 that is not 0. -/
def pktSet (k : Packet) (lo hi : Nat) : Option Nat :=
  ((List.range (hi - lo)).find? fun i => pktArg k (lo + i) 1 ≠ 0).map (lo + ·)

/-- The partition of a command: the host's; for management partition 0, which R301 gives no parameter to choose. -/
def pktOwn (k : Packet) : Bool := (pktHost k).getD false

/-- A command whose reserved bytes lo to hi − 1 are checked before its body. -/
def zeroed (k : Packet) (lo hi : Nat) (body : CmdRes) : CmdRes :=
  match pktSet k lo hi with
  | some o => .field 5 o
  | none => body

/-- A command whose byte 8 names a partition. -/
def onPart (k : Packet) (body : Bool → CmdRes) : CmdRes :=
  match pktPart k with
  | some p => body p
  | none => .field 4 8

/-- A long command whose work is done as it is taken: its interim and its final reply follow each other. -/
def doneAtOnce (s : State) (p : Option Bool) (f : State → State × Nat × Bytes) : CmdRes :=
  .long s p 0 fun a id =>
    let r := f a
    r.1.finish id r.2.1 r.2.2

/-! ### State of the partition -/

/-- Whether a recall is in progress in partition p. -/
def State.recalling (s : State) (p : Bool) : Bool := (s.part p).rcl.isSome

/-- Whether a lesson runs on the part: bells, a recall, or a pause between bells. -/
def State.anyLesson (s : State) : Bool := s.lessonRuns false || s.lessonRuns true

/-- Whether a channel of partition p executes a descriptor that addresses one of the given spaces (R316). -/
def State.chanUses (s : State) (p : Bool) (spaces : List Nat) : Bool :=
  (chansOf p).any fun c =>
    match (s.chan c).cur with
    | some d => spaces.any fun x => dUses d x
    | none => false

/-- A partition without a lesson: what stays is its records, its telemetry, its closure, the sets verified and failed, its
latest re-shard, whether its mirrors hold an older layout (R252), whether a pass followed its fence (R271), and its scope. -/
def Part.bare (x : Part) : Part :=
  { eff := x.eff, holdRing := x.holdRing, paceRing := x.paceRing, watchRing := x.watchRing, eventRing := x.eventRing
    scope := x.scope, roots := x.roots, failedSets := x.failedSets, reshard := x.reshard, closed := x.closed
    unmirrored := x.unmirrored, fenceSwept := x.fenceSwept
    telePow := x.telePow, teleTemp := x.teleTemp, frozenPow := x.frozenPow, frozenTemp := x.frozenTemp }

/-- Stash bytes of a range at zero, with the errors of its lines cleared (R422). -/
def State.zeroStash (s : State) (lo hi : Nat) : State :=
  { s with stash := Bank.clear s.stash lo hi, stashErr := Bank.clear s.stashErr (lo / 64) ((hi + 63) / 64) }

/-- The lesson of partition p is unloaded: its streams and queues are empty, its recall is over, its stash pages are unmapped
(R318). -/
def State.unload (s : State) (p : Bool) : State :=
  let ports := s.namedPorts p
  let s1 := s.emptyStreams p
  let s2 := ports.foldl (fun (acc : State) l => acc.setPort l { acc.port l with waiting := [], parked := false }) s1
  let s3 := s2.setPart p (s2.part p).bare
  let s4 := (s3.setRegFld (.checkMark p) 30 29 0).setRegFld (.checkMark p) 12 0 0
  let s5 := (s4.setRegBit (.checkMirror p) 15 false).setRegBit (.checkMirror p) 14 false
  let s6 := (s5.setRegFld (.checkEdwave p) 31 30 0).setRegFld (.checkEdwave p) 15 0 0
  -- a load of the partition is over: BUSY stays while the other partition loads (R341)
  let s7 := s6.setRegBit .dmaLdstat 31 (s6.part (!p)).load.isSome
  s7.zeroStash (pageTable p) (pageTable p + 0x01000000)

/-- A tile with nothing but its memories, their error marks, and its fence. -/
def Tile.bare (x : Tile) : Tile :=
  { desk := x.desk, shelf := x.shelf, errs := x.errs, wb := x.wb, fenced := x.fenced, spare := x.spare }

/-- Whether an office address lies in the window of a tile of the fields of a set. -/
def inFields (fields a : Nat) : Bool :=
  decide (0x100000 ≤ a) && decide (a < 0xAC4000) && bit fields ((a - 0x100000) / 0x1000 / 625)

/-- Every register of the tile windows of a set of fields at its reset value, nothing staged in them (R373, R349). -/
def State.resetWindows (s : State) (fields : Nat) : State :=
  { s with
    office := s.office.filter fun e => !inFields fields e.1
    staged := s.staged.filter fun e => !inFields fields e.1
    tiles := s.tiles.filterMap fun e =>
      if bit fields (e.1 / 625) then (if e.2.bare = {} then none else some (e.1, e.2.bare)) else some e }

/-- The staged copies of partition p's own sets discarded (R349). -/
def State.dropStaged (s : State) (p : Bool) : State :=
  let s1 := s.discard (Reg.bellPeriod p 0).addr (Reg.bellWork p 0).addr
  s1.discard (Reg.watchZerothr p).addr (Reg.watchRechead p).addr

/-- A partition reset but for its channels and its commands (R373). -/
def State.resetPart (s : State) (p : Bool) : State :=
  let fields := s.partFields p
  let s0 := ((s.stopBells p).fwArrive p false).unload p
  let s1 := s0.setPart p { s0.part p with unmirrored := false }
  (s1.resetWindows fields).setRegBit (.secPstat p) 29 false

/-! ### Memories -/

/-- Desk and shelf memory of the tiles of a set of fields at zero, poison cleared (R126, R349). -/
def State.zeroFields (s : State) (fields : Nat) : State :=
  { s with
    tiles := s.tiles.filterMap fun e =>
      if bit fields (e.1 / 625) then
        (let x := { e.2 with desk := [], shelf := [], errs := [], wb := [] }
         if x = {} then none else some (e.1, x))
      else some e }

/-- The save slot of field f (R123). -/
def saveSlot (f : Nat) : Nat := f * 0xF0000000

/-- The save slots of a set of fields at zero. -/
def State.zeroSlots (s : State) (fields : Nat) : State :=
  ((List.range 4).filter (bit fields)).foldl (fun (acc : State) f => acc.zeroStash (saveSlot f) (saveSlot f + 0xF0000000)) s

/-! ### Fences (R271) -/

/-- A job that uses what a fence isolates is recalled with bit 11 (R255, R265, R271); here it ends. -/
def State.recallAway (s : State) (p : Bool) : State :=
  let a := s.recallNow p 11
  (a.setPart p { a.part p with rcl := none }).setRegBit (.checkMark p) 30 false

/-- Fences partition p: its job is recalled; no bell, no host access; only an eraser pass remains possible. -/
def State.fencePartition (s : State) (p : Bool) : State :=
  let s1 := (((s.recallAway p).stopBells p).fwArrive p false).setRegBit (.secPstat p) 28 true
  (s1.setPart p { s1.part p with fenceSwept := false }).fenceRec (some p) 4 [0, 0, 0] 3 0

/-- Fences the part: bells stop, every port that is lit is fenced, the hosts and storage are quiet, and ALERT_N is held low
until a reset (R271, R412). Its jobs are recalled with bit 11 (R255, R265), and they lose its ports: here they end. -/
def State.fencePartAll (s : State) : State :=
  if s.pins.fenced then s
  else
    let s0 := (s.recallAway false).recallAway true
    let s1 := (s0.stopBells false).stopBells true
    let s2 := (List.range 20).foldl (fun (acc : State) l =>
      let st := acc.linkState l
      if 1 ≤ st ∧ st ≤ 3 then (acc.setRegFld (.linkStat l) 31 28 4).fenceRec (acc.portPart l) 1 (toLE 1 l ++ [0xFF, 0]) 2 (2 ^ 11)
      else acc) s1
    let s3 := (s2.fenceRec none 4 [0, 0, 0] 4 (2 ^ 11)).setRegFld .testStat 31 28 10
    -- passes under way are abandoned, and stay pending (R394); no firmware change goes on
    let s4 := (s3.setRegBit (.secPstat false) 30 false).setRegBit (.secPstat true) 30 false
    { s4 with
      fw := { s4.fw with act := none }
      pins := { s4.pins with fenced := true, alertHeld := true, hostA := false, hostB := false, storage0 := false, storage1 := false } }

/-! ### Steps 8 to 10 of a start (R374) -/

/-- PHASE of TEST_STAT. -/
def State.phase (s : State) : Nat := s.regFld .testStat 31 28

/-- Host port p leaves reset: past step 7 of a start, its PERST_N high, no pass of a start pending on it (R374, R401). -/
def State.releaseHost (s : State) (p : Bool) : State :=
  let low := if p then s.pins.perstB else s.pins.perstA
  if low ∨ s.pins.fenced ∨ s.phase < 6 ∨ 9 < s.phase ∨ (s.phase = 6 ∧ s.erasing p) then s
  else { s with pins := if p then { s.pins with hostB := true } else { s.pins with hostA := true } }

/-- The storage ports that partition p owns up or administratively down (R350, R374). -/
def State.setStorage (s : State) (p up : Bool) : State :=
  let own := fun n : Nat => s.regBit .secPortown (20 + n) == p
  { s with pins := { s.pins with
    storage0 := if own 0 then up else s.pins.storage0
    storage1 := if own 1 then up else s.pins.storage1 } }

/-- The retained storage connections up again with the storage ports (R327, R374). -/
def State.raiseConns (s : State) : State :=
  s.retained.conns.foldl (fun (acc : State) e =>
    (acc.setRegBit (.dmaLdconn e.1) 30 (bit (field e.2 2 1) 0)).setRegBit (.dmaLdconn e.1) 31 true) s

/-- Step 10: with no pass running and, in a full dawn, the port items ended, the ports train and roll call runs. -/
def State.tryTrain (s : State) : State :=
  if s.phase = 6 ∧ !s.erasing false ∧ !s.erasing true ∧ (!s.regBit .testStat 24 ∨ s.regFld .testDawn 15 14 ≠ 0) then
    let s1 := (s.setRegFld .testStat 31 28 7).beginRoll 0xFFFFF
    ({ s1 with pins := { s1.pins with storage0 := true, storage1 := true } }).raiseConns
  else s

end Sys2Proof.Machine
end

