-- ==== Sys2Proof/Machine/Manage.lean ====
section
/-! DEFINITION. Commands of identity and management (R301, R342 to R352, R378 to R381): IDENTIFY, PART_STATE,
RESET_PARTITION, CLEAR_RETAINED, ASSIGN_PARTITIONS, ERASER_PASS and its end, LOAD_CAMPUS_PLAN, ROLL_CALL, SHUTDOWN,
POWER_LIMIT and TEST_RESULTS. -/

set_option Elab.async false

namespace Sys2Proof.Machine

/-! ### Identity and state -/

/-- IDENTIFY: serial number, grade, stepping, -T fuse, seat, room (R301). -/
def execIdentify (k : Packet) (s : State) : Host.Outcome State Fault Refusal :=
  runPacket k ⟨0x0101, 0, true, true, false⟩ true (fun s =>
    .reply s 0 (toLE 16 s.fuses.serial.toNat ++ [if s.fuses.gradeB then 0x42 else 0x41] ++ toLE 1 (b2n s.fuses.stepB1)
      ++ toLE 1 (b2n s.fuses.twin) ++ toLE 1 s.seat ++ toLE 2 s.room)) s

/-- PART_STATE: BELL_STAT, CHECK_MARK and the low word of CHECK_CSTEP (R301). -/
def execPartState (k : Packet) (s : State) : Host.Outcome State Fault Refusal :=
  runPacket k ⟨0x0102, 0, true, true, false⟩ true (fun s =>
    let p := pktOwn k
    .reply s 0 (toLE 4 (s.reg (.bellStat p)).toNat ++ toLE 4 (s.reg (.checkMark p)).toNat
      ++ toLE 4 (s.reg (.checkCstepLo p)).toNat)) s

/-- TEST_RESULTS (R382). -/
def execTestResults (k : Packet) (s : State) : Host.Outcome State Fault Refusal :=
  runPacket k ⟨0x0802, 0, false, true, false⟩ false (fun s =>
    .reply s 0 (toLE 4 (s.reg .testStat).toNat ++ toLE 4 (s.reg .testDawn).toNat ++ toLE 4 (s.reg .testDusk).toNat
      ++ toLE 4 (s.reg .testItem).toNat ++ toLE 2 s.dawnMs)) s

/-- POWER_LIMIT (R392): a limit outside 600 W to 2,200 W is out of range. -/
def execPowerLimit (k : Packet) (s : State) : Host.Outcome State Fault Refusal :=
  runPacket k ⟨0x0118, 2, false, true, false⟩ false (fun s =>
    let n := pktArg k 8 2
    if n < 600 ∨ 2200 < n then .field 4 8 else .reply (s.setRegFld .powerLimit 15 0 n) 0 []) s

/-! ### Reset and retained state -/

/-- RESET_PARTITION (R301, R323, R339, R373): a fence that an eraser pass has followed is lifted by it (R271). -/
def execResetPartition (k : Packet) (s : State) : Host.Outcome State Fault Refusal :=
  runPacket k ⟨0x0110, 1, false, true, true⟩ false (fun s => onPart k fun p =>
    if s.erasing p then .refuse
    else .long s (some p) 0 fun a id =>
      let a1 := (((a.abortCmds p id).abortChans p).resetPart p).setRegFld .testStat 27 25 3
      (if (a1.part p).fenceSwept then a1.setRegBit (.secPstat p) 28 false else a1).finish id 0 []) s

/-- CLEAR_RETAINED (R379): CLRPEND is written; refused while bells run in either partition. -/
def execClearRetained (k : Packet) (s : State) : Host.Outcome State Fault Refusal :=
  runPacket k ⟨0x0111, 0, false, true, true⟩ false (fun s =>
    if s.running false || s.running true then .refuse
    else doneAtOnce s none fun a => (a.setRegBit .testRetain 31 true, 0, [])) s

/-! ### Partitions -/

/-- Whether ASSIGN_PARTITIONS may change the fields of partition p from `old` to `new` (R344). -/
def State.mayAssign (s : State) (p : Bool) (old new : Nat) : Bool :=
  let gain := (List.range 4).any fun f => bit new f && !bit old f
  let lose := (List.range 4).any fun f => bit old f && !bit new f
  (!gain || s.mayGain p) && (!lose || s.mayLose p)

/-- The fields of partition p set, and the partition closed where it gains one (R344). -/
def State.assign (s : State) (p : Bool) (new : Nat) : State :=
  let old := s.partFields p
  let gain := (List.range 4).any fun f => bit new f && !bit old f
  let x := s.part p
  let s1 := s.setPart p { x with closed := x.closed || gain }
  if p then s1.setRegFld .secPartmap 7 4 new else s1.setRegFld .secPartmap 3 0 new

/-- ASSIGN_PARTITIONS (R301, R344, R352). -/
def execAssignPartitions (k : Packet) (s : State) : Host.Outcome State Fault Refusal :=
  runPacket k ⟨0x0112, 2, false, true, false⟩ false (fun s =>
    let a := pktArg k 8 1
    let b := pktArg k 9 1
    if 16 ≤ a then .field 4 8
    else if 16 ≤ b ∨ (List.range 4).any (fun f => bit a f && bit b f) then .field 4 9
    else if s.anyLesson || s.erasing false || s.erasing true || !s.mayAssign false (s.partFields false) a
        || !s.mayAssign true (s.partFields true) b then .refuse
    else .reply ((s.assign false a).assign true b) 0 []) s

/-! ### The eraser pass -/

/-- The connections of partition p (R327). -/
def State.connsOf (s : State) (p : Bool) : List Nat :=
  (List.range 16).filter fun n => s.regBit (.dmaLdconn n) 29 == p && (s.retained.conns.any fun e => e.1 == n)

/-- The recall notice of an eraser pass on a partition with a lesson: cause bit 12, on every up port (R349). -/
def State.eraseNotice (s : State) (p : Bool) : State :=
  match s.lesson p with
  | none => s
  | some _ => s.sendMark p { s.partMark p (s.pnum p) false true (2 ^ 12) 0 (s.mstep64 p) with bad := false } (s.namedPorts p)

/-- The scope of a pass of partition p as it stands (R352). -/
def State.scopeOf (s : State) (p : Bool) : Scope :=
  { fields := BitVec.ofNat 4 (s.partFields p), base := (s.pages p).1, count := (s.pages p).2 - (s.pages p).1
    ports := BitVec.ofNat 22 (((List.range 22).filter fun l => s.regBit .secPortown l == p).foldl (fun a l => a + 2 ^ l) 0) }

/-- Orders 1 and 2 of R349, and the interfaces of R350. -/
def State.beginErase (s : State) (p : Bool) (id : Nat) : State :=
  let s0 := s.eraseNotice p
  let s1 := ((s0.abortCmds p id).abortChans p).resetPart p
  let s2 := s1.dropStaged p
  let x := s2.part p
  let s3 := s2.setPart p { x with
    failedSets := []
    scope := some (s2.scopeOf p)
    frozenPow := x.telePow
    frozenTemp := x.teleTemp }
  let s4 := (s3.connsOf p).foldl (fun (acc : State) n => acc.setRegBit (.dmaLdconn n) 31 false) s3
  let s5 := (s4.setStorage p false).setRegFld (.secPstat p) 30 27 (if s4.regBit (.secPstat p) 28 then 11 else 9)
  -- its near and far ports carry idle frames with the sweep kind (R210, R350)
  ((List.range 20).filter fun l => s.regBit .secPortown l == p).foldl (fun (acc : State) l =>
    acc.sendOn l (idleFrame acc.seat true)) s5

/-- ERASER_PASS (R349, R350, R352). -/
def execEraserPass (k : Packet) (s : State) : Host.Outcome State Fault Refusal :=
  runPacket k ⟨0x0113, 1, false, true, true⟩ false (fun s => onPart k fun p =>
    if s.erasing p then .refuse else .long s (some p) 0 fun a id => a.beginErase p id) s

/-- Empties pigeonhole g: no message, no claim, no data (R349). -/
def State.clearHole (s : State) (g : Nat) : State :=
  let s1 := (List.range 16).foldl (fun (acc : State) n => acc.setReg (.pigeonData n g) 0) s
  let s2 := (s1.setReg (.pigeonStat g) 0).setReg (.pigeonFrom g) 0xF0000000
  { s2.setDoorbell (8000 + g) false with peerMsg := Bank.set noPeer s2.peerMsg g none }

/-- Orders 3 and 4 of R349 over a scope: desk, shelf, tenant pages, save slots and page table at zero. -/
def State.zeroScope (s : State) (p : Bool) (c : Scope) : State :=
  ((((s.zeroFields c.fields.toNat).zeroStash (65536 * c.base) (65536 * (c.base + c.count))).zeroSlots c.fields.toNat)).zeroStash
    (pageTable p) (pageTable p + 0x01000000)

/-- Orders 6 and 7 of R349. -/
def State.endErase (s : State) (p : Bool) : State :=
  let s1 := ((List.range 64).filter fun g => s.regBit (.pigeonOwn g) 24 == p).foldl (fun (acc : State) g => acc.clearHole g) s
  let s2 := ((s1.setReg (.bellLoghead p) 0).setReg (.watchRechead p) 0).setReg (.watchEvhead p) 0
  let gone := s2.connsOf p
  let s3 := gone.foldl (fun (acc : State) n => acc.setReg (.dmaLdconn n) 0) s2
  let x := s3.part p
  let s4 := s3.setPart p { x with
    holdRing := {}
    watchRing := {}
    eventRing := {}
    paceRing := {}
    roots := []
    scope := none
    fenceSwept := true
    closed := false }
  let s5 := { s4.setStorage p (decide (7 ≤ s4.phase) && !s4.pins.fenced) with retained := { s4.retained with conns := s4.retained.conns.filter fun e => !gone.contains e.1 } }
  s5.setReg (.secPstat p) (setFld (setFld (setFld (s5.reg (.secPstat p)) 31 31 1) 30 30 0) 27 27 0)

/-- A line that failed its compare or its read twice (R351): record 0x0083; space 0 desk, 1 shelf of a tile, 2 stash. -/
def State.eraseBad (s : State) (p : Bool) (bad : Nat × Nat × BitVec 64) : State :=
  s.logErr { code := 0x0083, cls := 1, kind := if bad.1 = 2 then 3 else 0, part := some p
             unit := if bad.1 = 2 then toLE 1 (stackOf (64 * bad.2.1)) ++ [0, 0] else tileUnit (bad.2.1 / 2 ^ 22)
             loc := if bad.1 = 2 then bad.2.1 else 2 ^ 63 * bad.1 + bad.2.1 % 2 ^ 22
             syn := toLE 8 0 ++ toLE 8 bad.2.2.toNat }

/-- ERASER_PASS_COMPLETE (R349, R351, R352): the memories of the scope are zero and verified; a start that waits for passes
goes on once none is left. -/
def execEraserPassComplete (p : Bool) (badLine : Option (Nat × Nat × BitVec 64)) (s : State) :
    Host.Outcome State Fault Refusal :=
  if !s.erasing p then .next s
  else
    let c := ((s.part p).scope).getD (s.scopeOf p)
    let s1 := s.zeroScope p c
    match badLine with
    | some b =>
      let s2 := ((s1.eraseBad p b).setRegBit (.secPstat p) 30 false).fencePartition p
      .next ((s2.finishOp 0x0113 (some p) 0x000A []).tryTrain)
    | none => .next ((((s1.endErase p).finishOp 0x0113 (some p) 0 []).releaseHost p).tryTrain)

/-! ### Campus -/

/-- Whether a byte string is a campus plan (R201, R206). -/
def planOk (b : Bytes) : Bool :=
  let d := fun i => field b (10 + i) 1
  let ok := fun n => n == 1 || (n % 2 == 0 && decide (2 ≤ n) && decide (n ≤ 8))
  decide (64 ≤ b.length) && b.take 8 == [0x42, 0x56, 0x32, 0x43, 0x41, 0x4D, 0x50, 0x53] && field b 8 2 == 1
    && ok (d 0) && ok (d 1) && ok (d 2) && ((b.drop 13).take 51).all (· == 0)
    && b.length == 64 + 288 * (d 0 * d 1 * d 2)

/-- LOAD_CAMPUS_PLAN (R206, R301, R302): the plan is retained and takes effect at the next roll call. -/
def execLoadCampusPlan (k : Packet) (s : State) : Host.Outcome State Fault Refusal :=
  runPacket k ⟨0x0114, 12, false, true, true⟩ false (fun s =>
    if pktArg k 8 8 % 64 ≠ 0 then .field 4 8
    else if 147520 < pktArg k 16 4 then .field 4 16
    else if s.anyLesson then .refuse
    else doneAtOnce s none fun a =>
      match k.data with
      | none => (a, 0x000A, [])
      | some b =>
        let plan := b.take (pktArg k 16 4)
        if plan.length = pktArg k 16 4 ∧ planOk plan then ({ a with retained := { a.retained with newPlan := plan } }, 0, []) else (a, 0x000A, [])) s

/-- ROLL_CALL (R207, R301): it ends with LINK_ROLL once every port of the mask has its outcome. -/
def execRollCall (k : Packet) (s : State) : Host.Outcome State Fault Refusal :=
  runPacket k ⟨0x0115, 4, false, true, true⟩ false (fun s =>
    if 16 ≤ pktArg k 10 1 then .field 4 10
    else if pktArg k 11 1 ≠ 0 then .field 4 11
    else if s.rollMask ≠ 0 ∨ s.rollCmd.isSome ∨ !s.portsOut then .refuse
    else .long s none 0 fun a id => { a.beginRoll (pktArg k 8 4) with rollCmd := some id }) s

/-! ### Shut-down -/

/-- SHUTDOWN (R381): the dusk test begins; refused while bells run in either partition. -/
def execShutdown (k : Packet) (s : State) : Host.Outcome State Fault Refusal :=
  runPacket k ⟨0x0117, 0, false, true, true⟩ false (fun s =>
    if s.running false || s.running true then .refuse
    else .long s none 0 fun a _ => a.setRegFld .testStat 31 28 9) s

end Sys2Proof.Machine
end

