-- ==== Sys2Proof/Machine/Lesson.lean ====
section
/-! DEFINITION. Lessons of a partition (R175 to R188, R301, R303): LESSON_LOAD and its end, LESSON_START, LESSON_HALT,
LESSON_UNLOAD, SET_SCALAR. -/

set_option Elab.async false

namespace Sys2Proof.Machine

/-! ### The part's checks beyond the image's form (R187) -/

/-- Rows × columns of a virtual grid, row-major. -/
def gridCells (cols : Nat) : List (Nat × Nat) := (List.range 48).flatMap fun r => (List.range cols).map fun c => (r, c)

/-- The logical part that a seat of this room holds (R178): its number, or its twin pair, in a room-local lesson; with more logical
parts
than a room holds, by its room's index as well. -/
def State.logicalPart (s : State) (seat parts : Nat) (twin : Bool) : Option Nat :=
  let per := if twin then 8 else 16
  let x := if twin then seat / 2 else seat
  if 16 ≤ seat then none
  else if parts ≤ per then (if x < parts then some x else none)
  else some (s.roomIndex s.room * per + x)

/-- The logical parts whose timetables a lesson brings to this seat: its own; in standby those of the room's seats, whose shards a
substitute may take (R273, R343). -/
def State.partsHere (s : State) (b : Bytes) (standby : Bool) (me : Option Nat) : List Nat :=
  match me with
  | some q => [q]
  | none => if standby then
      ((List.range 16).filterMap fun n => s.logicalPart n (field b 16 4) ((field b 10 2).testBit 1)).eraseDups else []

/-- Code 0x0003: the grid is larger than the grade, not mappable, or used outside the partition's fields (R3, R177, R343). -/
def State.gridBad (s : State) (p : Bool) (b : Bytes) (standby : Bool) (me : Option Nat) : Option Reject :=
  let cols := field b 14 2
  let q := me.getD 0xFFFF
  unless_ (!(s.fuses.gradeB && cols == 48)) (3, { part := q })
    <|> (let ts := (s.partsHere b standby me).flatMap fun n => timesOf (sectionsOf b) n cols (field b 20 4)
      failFirst (gridCells cols) fun c =>
        match s.physTile cols c.1 c.2 with
        | none => some (3, { part := q, row := c.1, col := c.2 })
        | some t =>
          if s.tilePart t = some p then none
          else (ts.find? fun e => e.row == c.1 && e.col == c.2).map fun e => (3, e.place))

/-- Code 0x0004: a period class that is out of range, undefined or not valid (R145, R146). -/
def classBad (b : Bytes) : Option Reject :=
  let cls := classesOf (sectionAt (sectionsOf b) 1 0xFFFF)
  let plan := planOf (sectionAt (sectionsOf b) 2 0xFFFF)
  let good := fun (c : Nat × Nat × Nat) => decide (10 ≤ c.1) && decide (c.1 ≤ 48828) && classValid c.1 c.2.1 c.2.2
  failFirst ((List.range plan.length).zip plan) (fun x =>
      unless_ (match cls[x.2.1]? with | some c => good c | none => false) (4, { period := x.1 }))
    <|> failFirst cls (fun c => unless_ (c.1 == 0 || good c) (4, {}))

/-- Code 0x0005: a word that the part rejects. -/
def wordsBad (b : Bytes) : Option Reject := failFirst (imageTimes b) fun e => unless_ (wordGood e.pipe e.word) (5, e.place)

/-- Code 0x0015: an exam-mode lesson without a program digest, or with an order-dependent instruction (R24, R188). -/
def examBad (b : Bytes) : Option Reject :=
  if !(field b 10 2).testBit 0 then none
  else
    unless_ (!zeroAt b 80 48) (0x15, {})
      <|> failFirst (imageTimes b) fun e => unless_ (bits e.word 63 58 != 0x27) (0x15, e.place)

/-- TILE_PAD of the part's stepping: 0 on B0; DIVPAD 4 and TRPAD 2 on B1 (R175). -/
def State.padWord (s : State) : Word := if s.fuses.stepB1 then 0x42 else 0

/-- Code 0x0017: an active tile's TILE_PAD is not the stepping's (R175). -/
def State.padBad (s : State) (p : Bool) (cols : Nat) (q : Nat) : Option Reject :=
  failFirst (gridCells cols) fun c =>
    match s.physTile cols c.1 c.2 with
    | some t => unless_ (decide (s.tilePart t ≠ some p) || s.reg (.tilePad t) == s.padWord)
        (0x17, { part := q, row := c.1, col := c.2 })
    | none => none

/-- Code 0x0019: P breaks R178, a -T part is given a lesson without the twin flag (R262), or the loading part gets no logical
part and is no substitute in standby. -/
def State.partsBad (s : State) (b : Bytes) (standby : Bool) (me : Option Nat) : Option Reject :=
  let twin := (field b 10 2).testBit 1
  let per := if twin then 8 else 16
  let n := field b 16 4
  unless_ ((decide (n ≤ per) || n == per * s.rooms) && (!s.fuses.twin || twin)
      && (me.isSome || (standby && decide (16 ≤ s.seat)))) (0x19, { part := me.getD 0xFFFF })

/-- Code 0x001A: a binding or the mark tree names a port that is not present in the latest roll call (R210), or one that stays reserved
to the pre-empted partition (R346; DEDUCED, log 143). -/
def State.portsBad (s : State) (p : Bool) (l : Lesson) : Option Reject :=
  let s1 := s.setPart p { s.part p with lesson := some l }
  failFirst (s1.namedPorts p) fun n =>
    unless_ (s.present n && !(s.regBit (.secPstat (!p)) 29 && (s.namedPorts (!p)).contains n)) (0x1A, { part := l.me })

/-- The checks marked Part of R187, lowest code first; none: the lesson is accepted. -/
def State.lessonBad (s : State) (p : Bool) (b : Bytes) (standby : Bool) : Option Reject :=
  let me := s.logicalPart s.seat (field b 16 4) ((field b 10 2).testBit 1)
  formBad b
    <|> unless_ (imageDigest b == cutAt b 32 48) (2, {})
    <|> s.gridBad p b standby me
    <|> classBad b
    <|> wordsBad b
    <|> examBad b
    <|> s.padBad p (field b 14 2) (me.getD 0xFFFF)
    <|> s.partsBad b standby me
    <|> (match me with
      | some q => s.portsBad p (lessonOf b q standby)
      | none => none)

/-! ### Loading -/

/-- The period classes of a lesson in BELL_PERIODn, BELL_RECESSn and BELL_WORKn. -/
def State.loadClasses (s : State) (p : Bool) (l : Lesson) : State :=
  ((List.range 16).zip l.classes).foldl (fun (acc : State) x =>
    ((acc.setReg (.bellPeriod p x.1) (BitVec.ofNat 32 x.2.1)).setReg (.bellRecess p x.1) (BitVec.ofNat 32 x.2.2.1)).setReg
      (.bellWork p x.1) (BitVec.ofNat 32 x.2.2.2)) s

/-- The activation stash registers of a tile entry (R142, R183). -/
def State.loadTilePlan (s : State) (l : Lesson) (e : TilePlan) : State :=
  match s.physTile l.cols e.row e.col with
  | some t => ((s.setReg (.tileAplan t) (e.aplan &&& 0x83FF03FF)).setReg (.tileAspillb t) (e.spillB &&& 0x1FFFFF)).setReg
      (.tileAspills t) (e.spillS &&& 0xFFFF)
  | none => s

/-- The initial edition of a region: that of the tensors placed in it (R181, R232). -/
def Lesson.regionEdition (l : Lesson) (e : RegionEnt) : Word :=
  match l.places.find? fun x => x.region == e.region && x.row == e.row && x.col == e.col with
  | some x =>
    match l.tensors.find? fun t => t.n == x.tensor with
    | some t => t.edition
    | none => 0
  | none => 0

/-- A region entry in a tile's region table (R216, R232). -/
def State.loadRegion (s : State) (l : Lesson) (e : RegionEnt) : State :=
  match s.physTile l.cols e.row e.col with
  | some t =>
    let n := e.region % 64
    let w := setFld (setFld (setFld (0x80000000 : Word) 30 30 (b2n e.frozen)) 29 19 e.size) 9 0 e.base
    ((s.setReg (.tileRegion t n) w).setReg (.tileReged t n) (l.regionEdition e)).setReg (.tileRegcnt t n) 0
  | none => s

/-- The n-th tenant page of partition p, the withheld ones passed over (R345). -/
def State.pageAt (s : State) (p : Bool) (n : Nat) : Option Nat :=
  let r := s.pages p
  let gone := (s.badLines.map (· / 1024)).eraseDups.filter fun x => decide (r.1 ≤ x) && decide (x < r.2)
  let at_ := (List.range (gone.length + 1)).foldl (fun (a : Nat) _ =>
    r.1 + n + (gone.filter fun x => decide (x ≤ a)).length) (r.1 + n)
  if at_ < r.2 then some at_ else none

/-- A stash page entry in the page table (R318): relative page n is the n-th of the partition's pages; a page beyond them stays
unmapped. The principal writes the entry's whole line (R422). -/
def State.loadPage (s : State) (p : Bool) (e : Nat × Bool) : State :=
  match s.pageAt p e.1 with
  | some n =>
    let a := pageTable p + 8 * e.1
    s.writeStash (a / 64 * 64) (Bank.bytes (Bank.putBytes s.stash a (toLE 8 (2 ^ 63 + 2 ^ 62 * b2n e.2 + n))) (a / 64 * 64) 64)
  | none => s

/-- The initial contents of section 0x0008 (R180). -/
def State.loadContents (s : State) (p : Bool) (l : Lesson) : State :=
  if l.init.isEmpty then s
  else
    let cells := (Config.initContents l.init).filterMap fun e =>
      match s.physTile l.cols e.1 e.2.1 with
      | some t => if s.tilePart t = some p ∧ e.2.2.2.1 < memSize e.2.2.1 then some (t, e.2.2.1, e.2.2.2) else none
      | none => none
    -- the loader's words are whole: what they cover is clean (R126)
    let s1 := (cells.map fun e => (e.1, e.2.1)).eraseDups.foldl (fun (acc : State) g =>
      acc.coverHalves g.1 g.2 ((cells.filter fun e => (e.1, e.2.1) == g).flatMap fun e => [2 * e.2.2.1, 2 * e.2.2.1 + 1])) s
    cells.foldl (fun (acc : State) e => acc.putMem e.1 e.2.1 e.2.2.1 [e.2.2.2]) s1

/-- The region tables of partition p's tiles empty. -/
def State.clearRegions (s : State) (p : Bool) : State :=
  (s.partTiles p).foldl (fun (acc : State) t => (List.range 64).foldl (fun (a : State) n =>
    ((a.setReg (.tileRegion t n) 0).setReg (.tileReged t n) 0).setReg (.tileRegcnt t n) 0) acc) s

/-- What the loaded lesson writes: classes, tile registers, region tables, CHECK registers, page table, contents; the
partition is no longer swept (R183, R318, R344). -/
def State.applyLesson (s : State) (p : Bool) (l : Lesson) : State :=
  let s1 := (s.unload p).clearRegions p
  let s2 := (s1.setPart p { s1.part p with lesson := some l }).loadClasses p l
  let s3 := l.regions.foldl (fun (acc : State) e => acc.loadRegion l e)
    (l.tilePlans.foldl (fun (acc : State) e => acc.loadTilePlan l e) s2)
  let s4 := (s3.setRegFld (.checkBank p) 20 0 l.bank.toNat).setRegFld (.checkBanksize p) 20 0 l.bankSize.toNat
  let s5 := (s4.setRegFld (.checkMbase p) 20 0 l.mbase.toNat).setRegFld (.checkMstage p) 20 0 l.mstage.toNat
  let s6 := l.pages.foldl (fun (acc : State) e => acc.loadPage p e) s5
  (s6.loadContents p l).setRegBit (.secPstat p) 31 false

/-- LESSON_LOAD (R186, R273, R301): the image is read, and the checks begin; refused while the partition's lesson runs or
another load does. -/
def execLessonLoad (k : Packet) (s : State) : Host.Outcome State Fault Refusal :=
  runPacket k ⟨0x0201, 17, true, false, true⟩ false (fun s =>
    let p := pktOwn k
    if pktArg k 24 1 / 2 ≠ 0 then .field 5 24
    else if pktArg k 8 8 % 64 ≠ 0 then .field 4 8
    else if s.lessonRuns p || s.recalling p || (s.part p).loading.isSome then .refuse
    else .long s (some p) 0 fun a id =>
      match k.data with
      | none => a.finish id 0x000A []
      | some b => a.setPart p { a.part p with loading := some (b.take (pktArg k 16 8), bit (pktArg k 24 1) 0, id) }) s

/-- LESSON_LOAD_COMPLETE (R186, R187, R301, R322): a rejected lesson changes nothing but ends the command with 0x0009; an accepted
one is loaded, or held in standby. The page table changes only while every channel of the partition is paused: the load waits for
the channels that execute a descriptor. -/
def execLessonLoadComplete (p : Bool) (s0 : State) : Host.Outcome State Fault Refusal :=
  match (s0.part p).loading with
  | none => .next s0
  | some (b, standby, id) =>
    match s0.lessonBad p b standby with
    | some r =>
      let s1 := s0.setPart p { s0.part p with loading := none }
      .next ((s1.resumeChans p).finish id 0x0009 (rejectBytes r))
    | none =>
      let s := s0.pauseChans p
      if s.chansRun p then .next s
      else
      let s1 := s.setPart p { s.part p with loading := none }
      let me := s1.logicalPart s1.seat (field b 16 4) ((field b 10 2).testBit 1)
      let s2 :=
        if standby then
          let a := s1.unload p
          (a.setPart p { a.part p with image := b }).setRegBit (.secPstat p) 31 false
        else s1.applyLesson p (lessonOf b (me.getD 0) false)
      .next ((s2.resumeChans p).finish id 0 (toLE 2 0 ++ cutAt b 32 4))

/-! ### Starting and stopping -/

/-- The partition at the start of a run from step s0 (R252, R301): the step registers at s0, SEL toggled by a completed
re-shard of this lesson, no mark, no recall, no count left of an earlier run; the first period is index 0 of step
s0 + 1. -/
def State.startLesson (s : State) (p : Bool) (l : Lesson) (s0 : BitVec 64) : State :=
  let shard := decide ((s.part p).reshard = some (digest32 l.digest, true))
  let own := s.regBit (.checkMirror p) 13 && s.mstep64 p == s0 && !shard
  let s1 := if shard then s.setRegBit (.checkBank p) 31 (!s.regBit (.checkBank p) 31) else s
  let s2 := (((s1.quiesce p).setStep64 p s0).setCstep64 p s0).setMstep64 p s0
  let s3 := ((s2.setRegFld (.checkMark p) 30 29 0).setRegFld (.checkMark p) 12 0 0).setRegFld (.checkMirror p) 15 13 (b2n own)
  let x := s3.part p
  let s4 := s3.setPart p { x with
    idx := 0, skew := true, noMax := false, causes := 0, marks := [], level4 := [], twinOwn := [], rcl := none
    heldNote := none, comEd := s3.editionsNow p, prevEd := [], prevBank := false, flip := none, flipEd := [], mirEd := []
    inDone := false, allHeld := false, refill := false, unmirrored := shard || x.unmirrored, txPos := 0, rxPos := 0, gExp := []
    watch := [], zeroRun := [], prevRun := [], flipRun := [], mirRun := [], pend := 0, awaited := [], restores := []
    healPos := none, pace := {}, late := {}, xt := 0, fwStop := false, haltReq := false
    reshard := if shard then none else x.reshard, digFrames := [], digLines := [] }
  let s5 := ((s4.setPnum p 0).setRegFld (.bellPnumHi p) 31 24 0).clearCauses p
  let s6 := (s5.stepStart p l (s0 + 1) false).freshTiles p
  ((s6.freshSeq p).nextPeriod p l).drainPorts p

/-- A lesson rejection as a reply without a place. -/
def rejected (s : State) (code : Nat) : CmdRes := .reply s 0x0009 (rejectBytes (code, {}))

/-- LESSON_START (R175, R230, R252, R253, R301, R316, R331). -/
def execLessonStart (k : Packet) (s : State) : Host.Outcome State Fault Refusal :=
  runPacket k ⟨0x0202, 8, true, false, false⟩ false (fun s =>
    let p := pktOwn k
    let x := s.part p
    match x.lesson with
    | none => .refuse
    | some l =>
      if s.lessonRuns p || s.recalling p || x.saved.isSome || s.chanUses p [2, 3] || !x.failedSets.isEmpty
          || x.reshard == some (digest32 l.digest, false) then .refuse
      else if 1 < s.regFld (.checkMirror p) 31 16 ∧ s.regFld (.checkMstage p) 20 0 = 0 then rejected s 0x000A
      else if (s.padBad p l.cols l.me).isSome then rejected s 0x0017
      else .reply (s.startLesson p l (BitVec.ofNat 64 (pktArg k 8 8))) 0 []) s

/-- LESSON_HALT (R301): the bells stop after the next commit; management's halt names every partition whose job runs; with none
it ends at once. -/
def execLessonHalt (k : Packet) (s : State) : Host.Outcome State Fault Refusal :=
  runPacket k ⟨0x0203, 0, true, true, true⟩ false (fun s =>
    let ps := (match pktHost k with
      | some h => [h]
      | none => [false, true]).filter fun p => s.lessonRuns p || s.recalling p
    if ps.isEmpty then doneAtOnce s (pktHost k) fun a => (a, 0, [])
    else .long s (pktHost k) ((ps.map fun p => 2 ^ b2n p).sum) fun a _ =>
      ps.foldl (fun (acc : State) p => acc.setPart p { acc.part p with haltReq := true }) a) s

/-- LESSON_UNLOAD (R301, R316, R318): refused while the lesson runs or a channel addresses desk, shelf or stash memory; a
weight load or a re-shard of the partition fails. -/
def execLessonUnload (k : Packet) (s : State) : Host.Outcome State Fault Refusal :=
  runPacket k ⟨0x0204, 0, true, false, false⟩ false (fun s =>
    let p := pktOwn k
    if s.lessonRuns p || s.recalling p || s.chanUses p [1, 2, 3] then .refuse
    else
      let held := (s.part p).loading
      let s1 := (((s.drainChans p).finishOp 0x0301 (some p) 0x000A []).finishOp 0x0205 (some p) 0x000A []).unload p
      .reply ((s1.setPart p { s1.part p with loading := held }).resumeChans p) 0 []) s

/-- SET_SCALAR (R301, R303): the later setting of a slot and step stands. -/
def execSetScalar (k : Packet) (s : State) : Host.Outcome State Fault Refusal :=
  runPacket k ⟨0x0401, 16, true, false, false⟩ false (fun s =>
    let p := pktOwn k
    let x := s.part p
    let n := BitVec.ofNat 64 (pktArg k 16 8)
    zeroed k 9 12 (
      if 63 < pktArg k 8 1 then .field 4 8
      else if n ≤ s.step64 p then .field 4 16
      else if s.recalling p then .refuse
      else .reply (s.setPart p { x with
        scalars := (x.scalars.filter fun e => !(e.1 == pktArg k 8 1 && e.2.1 == n))
          ++ [(pktArg k 8 1, n, BitVec.ofNat 32 (pktArg k 12 4))] }) 0 [])) s

end Sys2Proof.Machine
end

