-- ==== Sys2Proof/Machine/Shard.lean ====
section
/-! DEFINITION. Re-sharding in place (R248 to R253): RESHARD and its end. -/

set_option Elab.async false

namespace Sys2Proof.Machine

/-- A permute table entry (R249). -/
structure Permute where
  src   : Nat
  dst   : Nat
  sRow  : Nat
  sCol  : Nat
  part  : Nat
  dRow  : Nat
  dCol  : Nat
  zero  : Nat
  len   : Nat
  sAddr : Nat
  dAddr : Nat
  deriving DecidableEq, Repr

/-- An entry from its 32 bytes. -/
def permuteOf (e : Bytes) : Permute :=
  { src := field e 0 1, dst := field e 1 1, sRow := field e 2 1, sCol := field e 3 1, part := field e 4 4, dRow := field e 8 1
    dCol := field e 9 1, zero := field e 10 2, len := field e 12 4, sAddr := field e 16 8, dAddr := field e 24 8 }

/-- Whether every 64 KiB page of a partition-relative stash range translates. -/
def State.rangeMapped (s : State) (p : Bool) (a n : Nat) (write : Bool) : Bool :=
  (pagesOf a n).all fun x => (s.translate p x write).isSome

/-- Whether a grid tile's shelf range lies in the partition's memory. -/
def State.shelfRange (s : State) (p : Bool) (l : Lesson) (row col a n : Nat) : Bool :=
  decide (a + n ≤ 0x400000) && (s.physTile l.cols row col).any fun t => decide (s.tilePart t = some p)

/-- Whether a stash range lies in window k, or for tenant stash in mapped pages. -/
def State.stashRange (s : State) (p : Bool) (window : Option Nat) (a n : Nat) (write : Bool) : Bool :=
  let z := s.regFld (.checkBanksize p) 20 0 * 65536
  let b := s.regFld (.checkBank p) 20 0 * 65536
  (match window with
   | some k => decide (b + k * z ≤ a) && decide (a + n ≤ b + (k + 1) * z)
   | none => true) && s.rangeMapped p a n write

/-- Whether a stash range of a logical part lies in window k, or for tenant stash in writable pages, by that part's plan (R183). -/
def StashPlan.range (x : StashPlan) (window : Option Nat) (a n : Nat) : Bool :=
  let z := bits x.size 20 0 * 65536
  let b := bits x.bank 20 0 * 65536
  (match window with
   | some k => decide (b + k * z ≤ a) && decide (a + n ≤ b + (k + 1) * z)
   | none => true)
    && (pagesOf a n).all fun y => x.pages.contains (y / 65536, true)

/-- Whether a stash range lies in a logical part's memory: by the registers and the page table in the own part, by the lesson's plan in
another. -/
def State.stashDest (s : State) (p : Bool) (l : Lesson) (part : Nat) (window : Option Nat) (a n : Nat) : Bool :=
  if part = l.me then s.stashRange p window a n true else l.stashPlans[part]?.any fun x => x.range window a n

/-- Whether an entry's own fields and its ranges stand (R249, R250): lengths and addresses always; a range where the entry moves
bytes. -/
def State.permuteOk (s : State) (p : Bool) (l : Lesson) (e : Permute) : Bool :=
  decide (e.src ≤ 2) && decide (e.dst ≤ 2) && e.zero == 0 && e.len % 64 == 0 && e.sAddr % 64 == 0 && e.dAddr % 64 == 0
    && decide (e.part < l.parts) && (e.len == 0 ||
      ((match e.src with
        | 0 => s.shelfRange p l e.sRow e.sCol e.sAddr e.len
        | 1 => e.sRow == 0xFF && e.sCol == 0xFF && s.stashRange p (some 0) e.sAddr e.len false
        | _ => e.sRow == 0xFF && e.sCol == 0xFF && s.stashRange p none e.sAddr e.len false)
      && (match e.dst with
        | 0 =>
          if e.part = l.me then s.shelfRange p l e.dRow e.dCol e.dAddr e.len
          else decide (e.dAddr + e.len ≤ 0x400000) && decide (e.dRow < 48) && decide (e.dCol < l.cols)
        | 1 => e.dRow == 0xFF && e.dCol == 0xFF && s.stashDest p l e.part (some 1) e.dAddr e.len
        | _ => e.dRow == 0xFF && e.dCol == 0xFF && s.stashDest p l e.part none e.dAddr e.len)))

/-- The stash address that an entry's source (first) and destination reach: a window's under the window rule (R221). -/
def State.permuteAt (s : State) (p : Bool) (e : Permute) : Nat × Nat :=
  (if e.src = 1 then s.window p false e.sAddr else e.sAddr, if e.dst = 1 then s.window p false e.dAddr else e.dAddr)

/-- Whether two destinations lie in one memory. -/
def sameDest (a b : Permute) : Bool :=
  a.part == b.part && (if a.dst = 0 ∨ b.dst = 0 then a.dst == b.dst && a.dRow == b.dRow && a.dCol == b.dCol else true)

/-- Whether the principal accepts a table (R250). -/
def State.tableOk (s : State) (p : Bool) (l : Lesson) (es : List Permute) : Bool :=
  let mine := es.filter fun e => e.part == l.me
  es.all (s.permuteOk p l)
    && decide (es.Pairwise fun a b => (sameDest a b && overlap (s.permuteAt p a).2 a.len (s.permuteAt p b).2 b.len) = false)
    && mine.all (fun d => es.all fun c =>
      !(d.dst == 0 && c.src == 0 && d.dRow == c.sRow && d.dCol == c.sCol && overlap d.dAddr d.len c.sAddr c.len)
      && !(d.dst == 2 && c.src != 0 && overlap (s.permuteAt p d).2 d.len (s.permuteAt p c).1 c.len))

/-- The bytes of an entry's source, read with the outcomes of R125 and R128. -/
def State.permuteRead (s : State) (p : Bool) (l : Lesson) (e : Permute) : Bytes × State :=
  match e.src with
  | 0 =>
    match s.physTile l.cols e.sRow e.sCol with
    | some t => s.readCore (queueCtx t) true e.sAddr e.len
    | none => ([], s)
  | 1 =>
    let r := s.readLines p (s.window p false e.sAddr) e.len
    (r.1.take e.len, r.2.2)
  | _ =>
    let r := s.readLines p e.sAddr e.len
    (r.1.take e.len, r.2.2)

/-- Bytes written at a destination of this part; a place outside the part takes none. -/
def State.permuteWrite (s : State) (p : Bool) (l : Lesson) (mem row col a : Nat) (b : Bytes) : State :=
  match mem with
  | 0 =>
    match s.physTile l.cols row col with
    | some t => if s.shelfRange p l row col a b.length then s.writeCore (queueCtx t) true a b else s
    | none => s
  | 1 => s.putStash p (s.window p false a) b
  | _ => s.putStash p a b

/-- The port towards the part that holds a logical part: near in this room; else the far port of the first dimension in which
the rooms differ. -/
def State.shardPort (s : State) (p : Bool) (l : Lesson) (q : Nat) : Option Nat :=
  let room := q / l.perRoom
  if l.roomLocal ∨ room = s.roomIndex s.room then
    (let m := s.seatOf p l q
     if m = s.seat then none else some (nearPort s.seat m))
  else
    let dx := s.dim 0
    let dy := s.dim 1
    let at_ := fun (d : Nat) => match d with | 0 => room % dx | 1 => room / dx % dy | _ => room / (dx * dy)
    ((List.range 3).find? fun d => at_ d ≠ roomCoord s.room d).map (17 + ·)

/-- Sends bytes as data frames on link queue 190, numbered from `seq`, with the new lesson's digest, period number 0 and
attempt number 0 (R251). -/
def State.permuteSend (s : State) (p : Bool) (port : Nat) : Nat → Nat → Bytes → State
  | 0, _, _ => s
  | n + 1, seq, b =>
    let peer := if 17 ≤ port then port else 16 - port
    let f : Frame := ⟨s.lessonDigest p, 0, 0, BitVec.ofNat 13 (4096 + 192 * peer + 190), BitVec.ofNat 16 seq, 0,
      BitVec.ofNat 5 s.seat, padTo 256 b⟩
    (s.sendFrame port f).permuteSend p port n (seq + 1) (b.drop 256)

/-- Runs the table: entries for this part move, the others leave; the sequence numbers of each port count on. -/
def State.permuteRun (s : State) (p : Bool) (l : Lesson) : List Permute → (Nat → Nat) → State
  | [], _ => s
  | e :: es, seqs =>
    if e.len = 0 then s.permuteRun p l es seqs
    else if e.part = l.me then
      let r := s.permuteRead p l e
      (r.2.permuteWrite p l e.dst e.dRow e.dCol e.dAddr r.1).permuteRun p l es seqs
    else
      match s.shardPort p l e.part with
      | none => s.permuteRun p l es seqs
      | some port =>
        let n := (e.len + 255) / 256
        let r := s.permuteRead p l e
        (r.2.permuteSend p port n (seqs port) r.1).permuteRun p l es
          (fun k => if k = port then seqs port + n else seqs k)

/-- RESHARD (R248 to R251, R301): the table's checks, then every entry whose source lies on the part moves or leaves. -/
def execReshard (k : Packet) (s : State) : Host.Outcome State Fault Refusal :=
  runPacket k ⟨0x0205, 16, true, false, true⟩ false (fun s =>
    let p := pktOwn k
    if pktArg k 8 8 % 64 ≠ 0 then .field 4 8
    else if pktArg k 16 4 % 32 ≠ 0 then .field 4 16
    else
      match s.lesson p with
      | none => .refuse
      | some l =>
        if s.lessonRuns p || s.recalling p || (s.cmdOf 0x0205 (some p)).isSome
            || digest32 l.digest != BitVec.ofNat 32 (pktArg k 20 4) then .refuse
        else .long s (some p) 0 fun a0 id =>
          let a := a0.setPart p { a0.part p with reshard := some (digest32 l.digest, false), shardIn := [] }
          match k.data with
          | none => a.finish id 0x000A []
          | some b =>
            let es := (entries 32 (b.take (pktArg k 16 4))).map permuteOf
            if b.length < pktArg k 16 4 ∨ !a.tableOk p l es then a.finish id 0x000A []
            else a.permuteRun p l es fun _ => 0) s

/-- The bytes that the frames of link queue 190 brought on a port, in sequence order from 0; a gap ends them. -/
def Part.shardBytes (x : Part) (port : Nat) : Bytes :=
  (List.range (x.shardIn.filter fun f => f.1 == port).length).flatMap fun i =>
    match x.shardIn.find? fun f => f.1 == port && f.2.1 == i with
    | some f => f.2.2
    | none => []

/-- Whether some entries' bytes are, port by port, exactly what the frames of link queue 190 brought, each entry from a new
frame on: every entry whose destination lies on the part has arrived (R251). -/
def Part.shardDone (x : Part) (as : List Arrival) : Bool :=
  ((x.shardIn.map (·.1)) ++ as.map (·.port)).eraseDups.all fun l =>
    decide ((x.shardIn.filter fun f => f.1 == l).length * 256 = (x.shardBytes l).length)
      && x.shardBytes l == (as.filter fun a => a.port == l).flatMap fun a => padTo ((a.data.length + 255) / 256 * 256) a.data

/-- RESHARD_COMPLETE (R251, R253): the entries that other parts sent here have arrived and are written; a port of the lesson
that is not up fails the command. Until all have arrived the command stays outstanding. -/
def execReshardComplete (p ok : Bool) (arrived : List Arrival) (s : State) : Host.Outcome State Fault Refusal :=
  match s.cmdOf 0x0205 (some p), s.lesson p with
  | some c, some l =>
    let x := s.part p
    if !ok || !(s.namedPorts p).all s.portUp then .next ((s.setPart p { x with shardIn := [] }).finish c.id 0x000A [])
    else if !x.shardDone arrived then .next s
    else
      let s1 := arrived.foldl (fun (acc : State) a => acc.permuteWrite p l a.mem a.row a.col a.addr a.data) s
      .next ((s1.setPart p { s1.part p with reshard := some (digest32 l.digest, true), shardIn := [] }).finish c.id 0 [])
  | _, _ => .next s

end Sys2Proof.Machine
end

