-- ==== Sys2Proof/Machine/Load.lean ====
section
/-! DEFINITION. Weight loading and editions (R326 to R341): WEIGHT_LOAD, the reads it issues, its end, EDITION_SWITCH,
EDITION_STATUS and the wave's region copies. -/

set_option Elab.async false

namespace Sys2Proof.Machine

/-! ### The manifest (R328) -/

/-- A set of the manifest: expected root, node file address and connection. -/
structure LoadSet where
  root : Bytes
  node : Nat
  conn : Nat
  deriving DecidableEq, Repr

/-- The sets of a manifest. -/
def manifestSets (b : Bytes) : List LoadSet :=
  (entries 64 (cutAt b 64 (64 * field b 10 2))).map fun e => { root := cutAt e 0 48, node := field e 48 8, conn := field e 56 1 }

/-- A manifest entry. -/
def loadEntOf (e : Bytes) : LoadEnt :=
  { tensor := field e 0 2, role := field e 2 1, conv := bit (field e 3 1) 0, set := field e 4 1, conn := field e 5 1
    lr := field e 6 1, lc := field e 7 1, remote := BitVec.ofNat 64 (field e 8 8), length := field e 16 8 }

/-- The entries of a manifest. -/
def manifestEnts (b : Bytes) : List LoadEnt :=
  (entries 48 (cutAt b (64 + 64 * field b 10 2) (48 * field b 12 4))).map loadEntOf

/-- Whether a manifest is well formed for the lesson and names only the partition's connections (R327, R328). -/
def State.manifestOk (s : State) (p : Bool) (l : Lesson) (b : Bytes) : Bool :=
  let t := field b 10 2
  let n := field b 12 4
  let raw := entries 48 (cutAt b (64 + 64 * t) (48 * n))
  let es := manifestEnts b
  let mine := fun (c : Nat) => decide (c < 16) && s.regBit (.dmaLdconn c) 29 == p
  b.take 8 == [0x42, 0x56, 0x32, 0x57, 0x4C, 0x4F, 0x41, 0x44] && field b 8 2 == 1 && decide (1 ≤ t) && decide (t ≤ 64)
    && decide (1 ≤ n) && decide (n ≤ 65536) && zeroAt b 16 48 && b.length == 64 + 64 * t + 48 * n
    && (entries 64 (cutAt b 64 (64 * t))).all (fun e => zeroAt e 57 7 && mine (field e 56 1))
    && raw.all (fun e => decide (field e 3 1 < 2) && zeroAt e 24 24)
    && es.all (fun e => decide (e.role ≤ 7) && decide (e.set < t) && decide (e.lr ≤ 15) && decide (e.lc ≤ 15) && mine e.conn
      && l.tensors.any fun x => x.n == e.tensor)
    && decide (es.Pairwise fun a c => ¬ (a.tensor = c.tensor ∧ a.role = c.role)
      ∧ (a.set = c.set → a.tensor < c.tensor ∨ (a.tensor = c.tensor ∧ a.role < c.role)))

/-! ### Roots (R330, R331) -/

/-- SHA-384 of two nodes. -/
def nodeHash (a b : Bytes) : Bytes := sha384 (0x01 :: (a ++ b))

/-- What a level of a tree needs of its node file: its nodes as (derived from a leaf read, place in the file), with the next
level's nodes beginning at place o; the siblings needed, and the place after the level (R331). -/
def levelNeeds : List (Bool × Nat) → Nat → List (Bool × Nat) × List Nat × Nat
  | a :: b :: rest, o =>
    let r := levelNeeds rest (o + 48)
    ((a.1 || b.1, o) :: r.1, (if a.1 == b.1 then [] else [if a.1 then b.2 else a.2]) ++ r.2.1, r.2.2)
  | ns, o => (ns, [], o)

/-- What a tree needs of its node file: its top node, the siblings needed, and the place after the tree. -/
def treeNeeds : Nat → List (Bool × Nat) → Nat → (Bool × Nat) × List Nat × Nat
  | 0, ns, o => (ns.headD (false, 0), [], o)
  | k + 1, ns, o =>
    match ns with
    | _ :: _ :: _ =>
      let r := levelNeeds ns o
      let q := treeNeeds k r.1 r.2.2
      (q.1, r.2.1 ++ q.2.1, q.2.2)
    | _ => (ns.headD (false, 0), [], o)

/-- What the tensor trees of a set need, from place o of the node file on. -/
def tensorNeeds (l : Lesson) (w : WLoad) (t : Nat) : List (Nat × LoadEnt) → Nat → List (Bool × Nat) × List Nat × Nat
  | [], o => ([], [], o)
  | (_, e) :: es, o =>
    if e.set = t then
      let n := leafCount (l.shape e) e
      let ns := (List.range n).map fun k => ((entLeaves l w e).contains k, o + 48 * k)
      let r := treeNeeds (n + 1) ns (o + 48 * n)
      let q := tensorNeeds l w t es r.2.2
      (r.1 :: q.1, r.2.1 ++ q.2.1, q.2.2)
    else tensorNeeds l w t es o

/-- The reads of the node files: of each set the siblings that the part's leaves need, or its root alone where the part reads no
leaf of the set (R331). -/
def nodeReads (l : Lesson) (w : WLoad) : List Out :=
  (w.nodes.zipIdx).flatMap fun f =>
    let r := tensorNeeds l w f.2 ((List.range w.ents.length).zip w.ents) 0
    let q := treeNeeds (r.1.length + 1) r.1 r.2.2
    ((r.2.1 ++ q.2.1) ++ (if q.1.1 then [] else [q.1.2])).map fun o => .rdmaRead f.1.2 (BitVec.ofNat 64 (f.1.1 + o)) 48

/-- A node: whether the part derives it from a leaf that it read, and its hash. -/
abbrev Node := Bool × Bytes

/-- The next level of a tree: a pair with a derived member is hashed, another comes from the node file; an unpaired node
moves up unchanged. What is left of the node file. -/
def levelUp : List Node → Bytes → List Node × Bytes
  | a :: b :: rest, file =>
    let r := levelUp rest (file.drop 48)
    ((a.1 || b.1, if a.1 || b.1 then nodeHash a.2 b.2 else file.take 48) :: r.1, r.2)
  | ns, file => (ns, file)

/-- The top node of a tree, and what is left of the node file. -/
def treeTop : Nat → List Node → Bytes → Node × Bytes
  | 0, ns, file => (ns.headD (false, []), file)
  | k + 1, ns, file =>
    match ns with
    | _ :: _ :: _ =>
      let r := levelUp ns file
      treeTop k r.1 r.2
    | _ => (ns.headD (false, []), file)

/-- The leaf level of an entry's tree: the hashes of the leaves read, the others from the node file. -/
def leafLevel (w : WLoad) (i n : Nat) (file : Bytes) : List Node :=
  (List.range n).map fun k =>
    match w.leaves.find? fun x => x.1 == i && x.2.1 == k with
    | some x => (true, x.2.2)
    | none => (false, cutAt file (48 * k) 48)

/-- The tensor roots of a set's entries, in entry order. -/
def tensorRoots (l : Lesson) (w : WLoad) (t : Nat) : List (Nat × LoadEnt) → Bytes → List Node × Bytes
  | [], file => ([], file)
  | (i, e) :: es, file =>
    if e.set = t then
      let n := leafCount (l.shape e) e
      let r := treeTop (n + 1) (leafLevel w i n file) (file.drop (48 * n))
      let q := tensorRoots l w t es r.2
      (r.1 :: q.1, q.2)
    else tensorRoots l w t es file

/-- The set root that the part computes, given the set's node file. -/
def setRoot (l : Lesson) (w : WLoad) (t : Nat) (file : Bytes) : Bytes :=
  let r := tensorRoots l w t ((List.range w.ents.length).zip w.ents) file
  (treeTop (r.1.length + 1) r.1 r.2).1.2

/-- The identity of a set across loads: the tensors and roles of its entries. -/
def setKey (w : WLoad) (t : Nat) : Bytes := (w.ents.filter fun e => e.set == t).flatMap fun e => toLE 2 e.tensor ++ toLE 1 e.role

/-! ### Sidecars (R46, R332) -/

/-- The value of an element of a placement. -/
def State.placedVal (s : State) (p : Bool) (l : Lesson) (q : Placement) (fmt r c : Nat) : FVal :=
  let b := leNat (s.getElem_ p l q fmt r c)
  if fmt = 3 then mxElem b (s.getByte p l q ((scaleSpots q r c).headD 0)).toNat
  else
    match fmtOf fmt with
    | some f => f.decode b
    | none => .nan

/-- The code of a row (or a column) piece of a placement. -/
def State.pieceCode (s : State) (p : Bool) (l : Lesson) (q : Placement) (fmt n : Nat) (row : Bool) : Nat :=
  (List.range (if row then q.ncols else q.nrows)).foldl (fun m k =>
    Nat.max m (codeOf (if row then s.placedVal p l q fmt n k else s.placedVal p l q fmt k n))) 0

/-- Whether a piece of some placements of a tensor exceeds a byte of a sidecar placement. -/
def State.sideExceeds (s : State) (p : Bool) (l : Lesson) (places : List Placement) (fmt : Nat) (side : Placement) : Bool :=
  places.any fun q =>
    if side.role = 6 then
      (List.range q.nrows).any fun i => side.holds (q.row0 + i) 0
        && decide ((s.getByte p l side (spotOf side fmt (q.row0 + i - side.row0) 0).addr).toNat < s.pieceCode p l q fmt i true)
    else
      (List.range q.ncols).any fun i => side.holds 0 (q.col0 + i)
        && decide ((s.getByte p l side (spotOf side fmt 0 (q.col0 + i - side.col0)).addr).toNat < s.pieceCode p l q fmt i false)

/-- The sidecar placements that a load's pieces of a tensor are held to: those that the load itself writes, else those of an
earlier load (R332). -/
def State.sidePlaces (s : State) (p : Bool) (l : Lesson) (w : WLoad) (tensor role : Nat) : List Placement :=
  match w.ents.find? fun d => d.tensor == tensor && d.role == role with
  | some d => entPlaces l w d
  | none =>
    if (s.part p).sides.contains (tensor, role) then l.places.filter fun q => q.tensor == tensor && q.role == role else []

/-- The first entry of working copies or images with a row or column piece whose code exceeds the loaded sidecar byte (R332). -/
def State.badSidecar (s : State) (p : Bool) (l : Lesson) (w : WLoad) : Option Nat :=
  (List.range w.ents.length).find? fun i =>
    match w.ents[i]? with
    | some e =>
      decide (e.role ≤ 1) &&
        (match l.tensor e.tensor with
         | some t => [6, 7].any fun role =>
             (s.sidePlaces p l w e.tensor role).any (s.sideExceeds p l (entPlaces l w e) (placedFmt t e))
         | none => false)
    | none => false

/-! ### The end of a load -/

/-- Whether entry i of a load still lacks a leaf that is placed on the part. -/
def entLacks (l : Lesson) (w : WLoad) (i : Nat) (e : LoadEnt) : Bool :=
  (entLeaves l w e).any fun n => !w.leaves.any fun x => x.1 == i && x.2.1 == n

/-- Entries whose placed leaves are all read. -/
def entsDone (l : Lesson) (w : WLoad) : Nat := ((w.ents.zipIdx).filter fun e => !entLacks l w e.2 e.1).length

/-- Results of WEIGHT_LOAD (R333). -/
def loadResults (l : Lesson) (w : WLoad) (entry set : Nat) (side : Bool) : Bytes :=
  toLE 8 w.bytes ++ toLE 4 (entsDone l w) ++ toLE 4 0 ++ toLE 4 entry ++ toLE 1 set ++ toLE 1 (b2n side)

/-- The load of partition p is over; BUSY stays while the other partition loads (R341). -/
def State.endLoad (s : State) (p : Bool) : State :=
  let s1 := s.setPart p { s.part p with load := none }
  s1.setRegBit .dmaLdstat 31 (s1.part (!p)).load.isSome

/-- The results of a load whose manifest the part cannot follow: nothing ingested, no entry and no set failed (R333). -/
def noResults : Bytes := toLE 8 0 ++ toLE 4 0 ++ toLE 4 0 ++ toLE 4 0xFFFFFFFF ++ [0, 0]

/-- Verified set roots kept for the report card (R331, R358). -/
def State.keepRoots (s : State) (p : Bool) (w : WLoad) (sets : List Nat) : State :=
  let x := s.part p
  s.setPart p { x with
    roots := (x.roots.filter fun r => !sets.any fun t => setKey w t == r.1) ++ sets.map fun t => (setKey w t, w.roots.getD t []) }

/-- A load ends without success: the bytes written stay; the sets of a direct load count as failed, and SET names the first (R331,
R333, R341). -/
def State.failLoad (s : State) (p : Bool) (l : Lesson) (w : WLoad) (status entry set : Nat) (side mismatch : Bool) (sets : List Nat) :
    State :=
  let x := s.part p
  let s1 := s.setPart p { x with failedSets := if w.stage then x.failedSets else (x.failedSets ++ sets.map (setKey w)).eraseDups }
  let s2 := (if mismatch then s1.setRegBit .dmaLdstat 30 true else s1).setRegFld .dmaLdstat 29 24 set
  (s2.endLoad p).finish w.cmd status (loadResults l w entry set side)

/-- Every set index of a load. -/
def allSets (w : WLoad) : List Nat := List.range w.roots.length

/-- The sets that a failed connection fails: those with an entry on it that is not read whole, and those whose node file is on it; at
the bound of a load, with no connection named, every set (R333). -/
def brokenSets (l : Lesson) (w : WLoad) (conn : Option Nat) : List Nat :=
  match conn with
  | none => allSets w
  | some c => (allSets w).filter fun t =>
      (w.nodes[t]?).any (fun e => e.2 == c) || (w.ents.zipIdx).any fun e => e.1.set == t && e.1.conn == c && entLacks l w e.2 e.1

/-- A load ends with a connection's failure, or at its bound: the first entry of a failed set that is not read whole, and the first
failed set (R333). -/
def State.breakLoad (s : State) (p : Bool) (status : Nat) (conn : Option Nat) : State :=
  match (s.part p).load, s.lesson p with
  | some w, some l =>
    let sets := brokenSets l w conn
    let i := ((w.ents.zipIdx).find? fun e => sets.contains e.1.set && conn.all (· == e.1.conn) && entLacks l w e.2 e.1).map (·.2)
    let t := (((i.bind fun n => w.ents[n]?).map (·.set)).orElse fun _ => sets.head?).getD 0
    s.failLoad p l w status (i.getD 0xFFFFFFFF) t false false sets
  | _, _ => s

/-! ### The commands -/

/-- A load begins: its reads leave; it ends at once where one of its connections is not up (R331, R333). Only a stage mode load has a
staging base (R333, R336). -/
def State.beginLoad (s : State) (p : Bool) (l : Lesson) (w : WLoad) : State :=
  let x := s.part p
  let s1 := (s.setPart p { x with load := some w, stageBase := if w.stage then w.base else x.stageBase }).setRegBit .dmaLdstat 31 true
  match (w.ents.map (·.conn) ++ w.nodes.map (·.2)).find? fun c => !s1.regBit (.dmaLdconn c) 31 with
  | some c => s1.breakLoad p 0x000A (some c)
  | none => { s1 with out := s1.out ++ w.ents.flatMap (entReads l w) ++ (if entsDone l w = w.ents.length then nodeReads l w else []) }

/-- WEIGHT_LOAD (R329, R333, R339): a direct load needs stopped bells, a stage mode load no staged edition and no wave. -/
def execWeightLoad (k : Packet) (s : State) : Host.Outcome State Fault Refusal :=
  runPacket k ⟨0x0301, 24, true, false, true⟩ false (fun s =>
    let p := pktOwn k
    let x := s.part p
    let stage := pktArg k 20 1 == 1
    zeroed k 21 24 (
      if pktArg k 8 8 % 64 ≠ 0 then .field 4 8
      else if 1 < pktArg k 20 1 then .field 4 20
      else if stage ∧ pktArg k 24 8 % 65536 ≠ 0 then .field 4 24
      else
        match x.lesson with
        | none => .refuse
        | some l =>
          -- the bells of a partition that holds in a recall are stopped: frozen images come to a substitute so (R274, R333)
          if x.load.isSome || (!stage && (s.running p || s.rebuilding p || x.saving.isSome || s.regBit (.secPstat p) 29))
              || (stage && (x.stagedEd.isSome || x.wave.isSome)) then .refuse
          else .long s (some p) 0 fun a id =>
            match k.data with
            | none => a.finish id 0x000A noResults
            | some d =>
              let b := d.take (pktArg k 16 4)
              if b.length ≠ pktArg k 16 4 ∨ !a.manifestOk p l b then a.finish id 0x000A noResults
              else a.beginLoad p l { cmd := id, roots := (manifestSets b).map (·.root), ents := manifestEnts b, stage := stage
                                     base := pktArg k 24 8, bytes := 0, leaves := []
                                     nodes := (manifestSets b).map fun t => (t.node, t.conn) })) s

/-- A read that did not deliver what was asked: the connection's failure count rises (R341). -/
def State.connMiss (s : State) (conn : Nat) : State :=
  s.setRegFld (.dmaLdconn conn) 15 0 (satAdd 0xFFFF (s.regFld (.dmaLdconn conn) 15 0) 1)

/-- A leaf of a WEIGHT_LOAD arrives; after the last one the node files are read (R331). -/
def State.loadLeaf (s : State) (p : Bool) (l : Lesson) (w : WLoad) (entry leaf : Nat) (data : Bytes) : State :=
  match w.ents[entry]? with
  | none => s
  | some e =>
    match l.tensor e.tensor with
    | none => s
    | some t =>
      if !(entLeaves l w e).contains leaf then s
      else if data.length ≠ leafBytes t (l.shape e) e (leafAt (l.shape e) e leaf) then (s.connMiss e.conn).breakLoad p 0x000A (some e.conn)
      else
        let r := s.takeLeaf p l w t entry leaf e data
        let s1 := r.1.setPart p { r.1.part p with load := some r.2 }
        if entsDone l w ≠ w.ents.length ∧ entsDone l r.2 = w.ents.length then { s1 with out := s1.out ++ nodeReads l r.2 } else s1

/-- A leaf read again arrives: it is written where its entry's placements are if its hash is that of the load. A leaf that fails
is still awaited, and fails the wave where its entry is staged (R228, R339). -/
def State.fixLeaf (s : State) (p : Bool) (l : Lesson) (w : WLoad) (entry leaf : Nat) (data : Bytes) : State :=
  match w.ents[entry]? with
  | none => s
  | some e =>
    match l.tensor e.tensor with
    | none => s
    | some t =>
      if !w.want.contains (entry, leaf) then s
      else if !w.leaves.contains (entry, leaf, leafHash data) then
        let s1 := s.connMiss e.conn
        if e.staged then s1.setRegBit (.checkEdwave p) 29 true else s1
      else
        let r := s.takeLeaf p l w t entry leaf e data
        let left := w.want.filter (· != (entry, leaf))
        r.1.setPart p { r.1.part p with fix := if left.isEmpty then none else some { r.2 with want := left } }

/-- RDMA_READ_RESPONSE (R228, R329 to R332, R339): a leaf that the part reads arrives; it is hashed and written where the plan,
or the staging area, puts it. A read that does not deliver the leaf fails its connection's load. The entries of leaves read
again are numbered on from those of the load in progress. -/
def execRdmaReadResponse (p : Bool) (entry leaf : Nat) (data : Bytes) (s : State) : Host.Outcome State Fault Refusal :=
  let x := s.part p
  let n := match x.load with
    | some w => w.ents.length
    | none => 0
  match s.lesson p, x.load, x.fix with
  | some l, some w, f =>
    if entry < n then .next (s.loadLeaf p l w entry leaf data)
    else
      match f with
      | some v => .next (s.fixLeaf p l v (entry - n) leaf data)
      | none => .next s
  | some l, none, some v => .next (s.fixLeaf p l v entry leaf data)
  | _, _, _ => .next s

/-- WEIGHT_LOAD_COMPLETE (R331, R332, R337): with the node files read, the set roots and the sidecars are checked; each verified
root is kept for the report card, whatever becomes of the load, and a verified stage mode load is the staged edition. -/
def execWeightLoadComplete (p : Bool) (nodes : List Bytes) (s : State) : Host.Outcome State Fault Refusal :=
  match (s.part p).load, s.lesson p with
  | some w, some l =>
    let wrong := (allSets w).filter fun t => decide (setRoot l w t (nodes.getD t []) ≠ w.roots.getD t [])
    if entsDone l w ≠ w.ents.length then .next (s.breakLoad p 0x000A none)
    else
      let s := s.keepRoots p w ((allSets w).filter fun t => !wrong.contains t)
      match wrong with
      | t :: _ =>
        let i := (w.ents.findIdx? fun e => e.set == t).getD 0xFFFFFFFF
        .next (s.failLoad p l w 0x000A i t false true wrong)
      | [] =>
        match s.badSidecar p l w with
        | some i =>
          let t := match w.ents[i]? with
            | some e => e.set
            | none => 0
          .next (s.failLoad p l w 0x000A i t true true [t])
        | none =>
          let x := s.part p
          let s1 := s.setPart p { x with
            failedSets := x.failedSets.filter fun f => !(allSets w).any fun t => setKey w t == f
            kept := (x.kept.filter fun k => !w.ents.any fun e => e.tensor == k.1.tensor && e.role == k.1.role && k.1.staged == w.stage)
              ++ (w.ents.zipIdx).map fun e => ({ e.1 with staged := w.stage },
                (w.leaves.filter fun y => y.1 == e.2).map (·.2))
            sides := if w.stage then x.sides else
              (x.sides ++ (w.ents.filter fun e => e.role == 6 || e.role == 7).map fun e => (e.tensor, e.role)).eraseDups
            stagedEd := if w.stage then some (s.reg (.checkEdptr p) + 1) else x.stagedEd
            released := if w.stage then false else x.released }
          let s2 := if w.stage then s1.setRegBit (.checkEdwave p) 30 true else s1
          .next ((s2.endLoad p).finish w.cmd 0 (loadResults l w 0xFFFFFFFF 0 false))
  | _, _ => .next s

/-- The regions of the part's replaceable tensors: lag, tile, region, tensor. -/
def State.waveRegions (s : State) (l : Lesson) : List (Nat × Nat × Nat × Nat) :=
  (l.places.filterMap fun e =>
    match l.tensor e.tensor, s.physTile l.cols e.row e.col with
    | some t, some n =>
      if t.flags.toNat.testBit 0 ∧ e.role = 0 ∧ e.mem = 1 ∧ e.region < 64 then some (t.lag, n, e.region, t.n) else none
    | _, _ => none).eraseDups

/-- Tensors with a region not yet sealed. -/
def tensorsLeft (left : List (Nat × Nat × Nat × Nat)) : Nat := (left.map fun e => e.2.2.2).eraseDups.length

/-- EDITION_SWITCH (R337): the pointer changes at the first bell of the next step. -/
def execEditionSwitch (k : Packet) (s : State) : Host.Outcome State Fault Refusal :=
  runPacket k ⟨0x0302, 4, true, false, false⟩ false (fun s =>
    let p := pktOwn k
    let x := s.part p
    if BitVec.ofNat 32 (pktArg k 8 4) ≠ s.reg (.checkEdptr p) + 1 then .field 4 8
    else
      match x.lesson with
      | none => .refuse
      | some l =>
        if !s.regBit (.checkEdwave p) 30 || x.wave.isSome then .refuse
        else
          let n := s.step64 p + 1
          let left := s.waveRegions l
          let s1 := s.setPart p { x with wave := some { s := n, turned := false, left := left, opened := [] }, released := false }
          let s2 := s1.setReg64 (.checkEdstepLo p) (.checkEdstepHi p) n
          let s3 := (s2.setRegFld (.checkEdwave p) 31 30 2).setRegFld (.checkEdwave p) 15 0 (tensorsLeft left)
          .reply s3 0 (toLE 8 n.toNat)) s

/-- EDITION_STATUS (R338). -/
def execEditionStatus (k : Packet) (s : State) : Host.Outcome State Fault Refusal :=
  runPacket k ⟨0x0303, 0, true, false, false⟩ false (fun s =>
    let p := pktOwn k
    let x := s.part p
    let w := s.reg (.checkEdwave p)
    .reply s 0 (toLE 4 (s.reg (.checkEdptr p)).toNat ++ toLE 4 (if fld w 30 30 = 1 then (x.stagedEd.getD 0).toNat else 0)
      ++ toLE 1 (fld w 30 30 + 2 * fld w 31 31 + 4 * b2n x.released + 8 * fld w 29 29) ++ [0] ++ toLE 2 (fld w 15 0)
      ++ toLE 8 (s.reg64 (.checkEdstepLo p) (.checkEdstepHi p)).toNat)) s

/-! ### The wave (R336, R338, R339) -/

/-- The copies that fill a region from the staging area: every placement of the region, and the sidecars of its tensors on the tile,
each with its staged place. -/
def State.regionCopies (s : State) (p : Bool) (l : Lesson) (t n : Nat) : List (Placement × Placement) :=
  let pairs := stageFrom l (s.part p).stageBase l.places
  let here := fun (e : Placement) => s.physTile l.cols e.row e.col == some t
  let tens := ((pairs.filter fun q => here q.1 && q.1.region == n).map fun q => q.1.tensor).eraseDups
  pairs.filter fun q => here q.1 && (q.1.region == n || (q.1.role != 0 && tens.contains q.1.tensor))

/-- Copies the staged bytes of a region. -/
def State.copyRegion (s : State) (p : Bool) (l : Lesson) (t n : Nat) : State :=
  (s.regionCopies p l t n).foldl (fun (acc : State) q => acc.fromImage p l (l.fmtOf q.1.tensor) q.1 q.2) s

/-- A region sealed by the engine: EDITION rises by 1, and counts as committed at once (R336). -/
def State.sealByEngine (s : State) (p : Bool) (t n : Nat) : State :=
  let ed := s.reg (.tileReged t n) + 1
  let s1 := (s.setRegBit (.tileRegcnt t n) 31 false).setReg (.tileReged t n) ed
  let x := s1.part p
  let key := t * 64 + n
  s1.setPart p { x with
    comEd := Bank.set noEdition x.comEd key ed
    prevEd := Bank.set noEdition x.prevEd key ed
    flipEd := Bank.set noEdition x.flipEd key ed
    mirEd := Bank.set noEdition x.mirEd key ed }

/-- WAVE_REGION_COPY_COMPLETE (R336, R338, R339): the opened region's copy ends, and it is sealed; a copy that cannot be
verified sets FAILED and leaves it open. A pre-empted partition's wave waits. -/
def execWaveRegionCopyComplete (p : Bool) (tile region : Nat) (ok : Bool) (s : State) : Host.Outcome State Fault Refusal :=
  match (s.part p).wave, s.lesson p with
  | some w, some l =>
    if !w.opened.contains (tile, region) || s.regBit (.secPstat p) 29 then .next s
    else if !ok then .next (s.setRegBit (.checkEdwave p) 29 true)
    else
      let r := s.readImages p l ((s.regionCopies p l tile region).map (·.2)).eraseDups
      -- an uncorrectable staged line: its leaves are read again, and the copy goes on after them
      if !r.1.isEmpty then .next (r.2.readAgain p l r.1)
      else
      let s1 := (r.2.copyRegion p l tile region).sealByEngine p tile region
      let left := w.left.filter fun e => !(e.2.1 == tile && e.2.2.1 == region)
      let x := s1.part p
      let s2 := s1.setRegFld (.checkEdwave p) 15 0 (tensorsLeft left)
      if left.isEmpty then
        .next ((s2.setPart p { x with wave := none, stagedEd := none, released := true }).setRegBit (.checkEdwave p) 31 false)
      else
        .next ((s2.setPart p { x with
          wave := some { w with left := left, opened := w.opened.filter (· != (tile, region)) } }).waveOpen p)
  | _, _ => .next s

end Sys2Proof.Machine
end

