-- ==== Sys2Proof/Machine/Control.lean ====
section
/-! DEFINITION. Step control by management (R266 to R274, R301, R346 to R348): RECALL, RESUME, SUBSTITUTE, PREEMPT and
RESUME_PARTITION with the events that end them. -/

set_option Elab.async false

namespace Sys2Proof.Machine

/-! ### Recall and resume -/

/-- RECALL by management (R268, R301): cause bit 12 in every partition whose job runs; refused when none does. -/
def execMgmtRecall (k : Packet) (s : State) : Host.Outcome State Fault Refusal :=
  runPacket k ⟨0x0402, 1, false, true, true⟩ false (fun s =>
    if pktArg k 8 1 / 2 ≠ 0 then .field 5 8
    else
      let halt := bit (pktArg k 8 1) 0
      let ps := [false, true].filter fun p => (s.lesson p).isSome && (s.lessonRuns p || s.recalling p)
      if ps.isEmpty then .refuse
      else .long s none ((ps.map fun p => 2 ^ b2n p).sum) fun a _ =>
        ps.foldl (fun (acc : State) p => acc.recall p (2 ^ 12) (acc.pnum p) halt) a) s

/-- Whether partition p is rebuilt after a part failure and waits for the resume command. -/
def State.holding (s : State) (p : Bool) : Bool :=
  match (s.part p).rcl with
  | some r => r.phase == .hold
  | none => false

/-- Whether a restoration's stream of this part goes to a substitute that has returned no credit yet: it has not taken its seat. -/
def State.unanswered (s : State) (p : Bool) : Bool :=
  (s.part p).restores.any fun e => (s.part p).awaited.any fun k => nearPort s.seat k == e.1

/-- Whether the substitution that partition p holds for was made, as far as this part sees it (R204, R205, R274): every port that the
rebound lesson names carries its traffic, no near link carries two relays, and the substitute answers the stream that restores it. -/
def State.substituted (s : State) (p : Bool) : Bool :=
  let vias := ([17, 18, 19].filter fun l => s.regBit (.linkRelay l) 31).map fun l => s.regFld (.linkRelay l) 4 0
  (s.namedPorts p).all s.carries && decide vias.Nodup && !s.unanswered p

/-- RESUME (R268, R274, R281, R301): the replay of every partition that holds; refused when none does, and while a stream of the
restoration still runs (R231). A job whose substitution was not made stops. -/
def execResume (k : Packet) (s : State) : Host.Outcome State Fault Refusal :=
  runPacket k ⟨0x0403, 0, false, true, false⟩ false (fun s =>
    let ps := [false, true].filter s.holding
    if ps.isEmpty || ps.any (fun p => !(s.part p).restores.isEmpty && !s.unanswered p) then .refuse
    else .reply (ps.foldl (fun (acc : State) p =>
      match acc.lesson p with
      | some l => if acc.substituted p then ((acc.endRecall p).replay p l).finishFor 0x0402 p 0 else acc.jobEnds p
      | none => acc) s) 0 []) s

/-! ### Substitution -/

/-- The partition that holds a standby image (R273). -/
def State.standbyPart (s : State) : Option Bool :=
  [false, true].find? fun p => !(s.part p).image.isEmpty && (s.lesson p).isNone

/-- The pairs (dead seat, acting seat), G exponents (step, tensor, G) and run-time scalars (slot, step, value) of the job, as a
substitute is told them: counts in the header's bytes 15 to 19, then entries of 2, 12 and 16 bytes. The last is where they end. -/
def takeTold (d : Bytes) : List (Nat × Nat) × Bank (BitVec 10) × List (Nat × BitVec 64 × Word) × Nat :=
  let ns := field d 15 1
  let ng := field d 16 2
  let nv := field d 18 2
  let g := 20 + 2 * ns
  let v := g + 12 * ng
  ((List.range ns).map (fun i => (field d (20 + 2 * i) 1, field d (21 + 2 * i) 1)),
   Bank.setAll noG [] ((List.range ng).map fun i =>
     (gKey (BitVec.ofNat 64 (field d (g + 12 * i) 8)) (field d (g + 12 * i + 8) 2), BitVec.ofNat 10 (field d (g + 12 * i + 10) 2))),
   (List.range nv).map (fun i =>
     (field d (v + 16 * i) 4, BitVec.ofNat 64 (field d (v + 16 * i + 4) 8), BitVec.ofNat 32 (field d (v + 16 * i + 12) 4))),
   v + 16 * nv)

/-- The substitute takes a failed seat's logical part at the restored step (R231, R274): its sections of the standby image, and
what it is told: step, period number of its index 0, attempt, the room's earlier substitutions, the job's G exponents and scalars
(R22, R62, R303). Window 0 comes from the neighbour mirror of the next seat; the rebuild follows. -/
def State.takeSeat (s : State) (p : Bool) (n : Nat) (image data : Bytes) : Option State :=
  match s.logicalPart n (field image 16 4) ((field image 10 2).testBit 1) with
  | none => none
  | some q =>
    let l := lessonOf image q false
    let step := BitVec.ofNat 64 (field data 0 8)
    let s1 := ((s.drainChans p).applyLesson p l).resumeChans p
    let told := takeTold data
    let s2 := s1.setPart p { s1.part p with
      subst := told.1.filter (fun e => e.1 != n && e.2 != s.seat) ++ [(n, s.seat)], gExp := told.2.1, scalars := told.2.2.1 }
    let s4 := ((s2.setStep64 p step).setCstep64 p step).setMstep64 p step
    let s5 := (s4.setPnum p (BitVec.ofNat 48 (field data 8 6))).setRegFld (.bellPnumHi p) 31 24 (field data 14 1)
    let s6 := s5.setRegBit (.checkMark p) 30 true
    let x := s6.part p
    let r : Recall := { period := s6.pnum p, causes := 0x800, halt := false, phase := .rebuild, target := step, failed := true }
    let x1 := { x with comEd := s6.editionsNow p, skew := true, rcl := some r
                       healPos := if l.mirrorBytes = 0 then none else some 0 }
    some ((s6.setPart p x1).beginRebuild p l r step true)

/-- Whether this substitute already carries a relay, or a lesson of more than one room needs a spare far link of it that is missing
(R205). -/
def State.farTaken (s : State) (image : Bytes) : Bool :=
  [17, 18, 19].any (fun l => s.relayOn l true) ||
    decide ((if (field image 10 2).testBit 1 then 8 else 16) < field image 16 4) && [0, 1, 2].any fun d =>
      decide (1 < s.dim d) && s.linkState (17 + d) != 3

/-- SUBSTITUTE (R203, R205, R273, R274, R301): refused on a seat that is not the failed seat's substitute, that acts already, whose
spare far links are missing or taken, or that holds no standby image. -/
def execSubstitute (k : Packet) (s : State) : Host.Outcome State Fault Refusal :=
  runPacket k ⟨0x0116, 1, false, true, true⟩ false (fun s =>
    let n := pktArg k 8 1
    if 15 < n then .field 4 8
    else
      match s.standbyPart with
      | none => .refuse
      | some p =>
        let acts := [false, true].any fun q => (s.part q).subst.any fun e => e.2 == s.seat
        if !s.mayTake s.seat n || acts || !(s.part p).subst.isEmpty || s.farTaken (s.part p).image || s.recalling p then .refuse
        else doneAtOnce s (some p) fun a =>
          match k.data with
          | none => (a, 0x000A, [])
          | some d =>
            match a.takeSeat p n (a.part p).image d with
            | some t => (t, 0, [])
            | none => (a, 0x000A, [])) s

/-! ### Pre-emption -/

/-- Whether a save slot of partition p holds a stash line classed permanent at the latest start (R280). -/
def State.slotPermanent (s : State) (p : Bool) : Bool :=
  s.badLines.any fun n => (List.range 4).any fun f =>
    bit (s.partFields p) f && decide (saveSlot f ≤ 64 * n) && decide (64 * n < saveSlot f + 0xF0000000)

/-- PREEMPT (R303, R346, R348, R352): it acts at the partition's next bell; refused during a recall, and during any eraser pass. -/
def execPreempt (k : Packet) (s : State) : Host.Outcome State Fault Refusal :=
  runPacket k ⟨0x0404, 1, false, true, true⟩ false (fun s => onPart k fun p =>
    let x := s.part p
    if s.regFld (.secPstat p) 30 28 ≠ 0 || s.erasing (!p) || x.preReq.isSome || x.saving.isSome || s.slotPermanent p || s.recalling p then .refuse
    else .long s (some p) 0 fun a id => a.setPart p { a.part p with preReq := some id }) s

/-- The registers of the DMA channels of a partition (R322, R324). -/
def chanRegs (p : Bool) (a : Nat) : Bool :=
  (chansOf p).any fun c => [Reg.dmaChctl c, .dmaChstat c, .dmaChstartLo c, .dmaChstartHi c, .dmaChcurLo c, .dmaChcurHi c, .dmaChoff c,
    .dmaChtag c].any fun r => r.addr == a

/-- The registers of a DMA channel that no one but the engine writes: its descriptor, offset, tag (R324). The others take what is
written during a pause: a chain started and a doorbell rung then run after it (R322). -/
def chanKept (p : Bool) (a : Nat) : Bool :=
  (chansOf p).any fun c => [Reg.dmaChcurLo c, .dmaChcurHi c, .dmaChoff c, .dmaChtag c].any fun r => r.addr == a

/-- What a pre-emption saves beside the memories: the tiles, their windows, and the channels with their registers (R82, R115, R144,
R322). -/
def State.savedOf (s : State) (p : Bool) : Saved :=
  let f := s.partFields p
  { tiles := (s.tiles.filter fun e => bit f (e.1 / 625)).map fun e => (e.1, { e.2 with desk := [], shelf := [] })
    regs := s.office.filter fun e => inFields f e.1 || chanRegs p e.1
    chans := s.chans.filter fun e => chanPart e.1 == p }

/-- The place of a tile's desk image in its field's save slot; the shelf image follows it. The spec gives the slot's size and what it
holds, not this order (DESIGN CHOICE, log 60). -/
def imageAt (t : Nat) : Nat := saveSlot (t / 625) + 0x500000 * (t % 625)

/-- The save's reads of the memories of partition p's tiles: each marked word has the outcome of R125. -/
def State.readMarked (s : State) (p : Bool) : State :=
  (s.partTiles p).foldl (fun (acc : State) t => (acc.tile t).errs.foldl (fun (a : State) e =>
    a.wordRead (queueCtx t) (decide (2 ^ 20 ≤ e.1)) (8 * (e.1 % 2 ^ 20)) true) acc) s

/-- The save slots of partition p's fields with the desk and shelf images of their tiles: every line of them is written (R123, R346,
R422). -/
def State.writeSlots (s : State) (p : Bool) : State :=
  let f := s.partFields p
  let s1 := s.zeroSlots f
  { s1 with stash := (s.tiles.filter fun e => bit f (e.1 / 625)).foldl (fun (m : Bank Byte) e =>
      Bank.setAll zeroByte (Bank.setAll zeroByte m (e.2.desk.map fun y => (imageAt e.1 + y.1, y.2)))
        (e.2.shelf.map fun y => (imageAt e.1 + 0x100000 + y.1, y.2))) s1.stash }

/-- The lines of partition p's save slots that are marked, each with the outcome of a read (R128): whether one was uncorrectable. -/
def State.readSlots (s : State) (p : Bool) : Bool × State :=
  let f := s.partFields p
  (s.stashErr.filter fun e => (List.range 4).any fun k => bit f k && decide (saveSlot k ≤ 64 * e.1)
      && decide (64 * e.1 < saveSlot k + 0xF0000000)).foldl (fun (acc : Bool × State) e =>
    let r := acc.2.stashLine e.1 (some p)
    (acc.1 || r.1, r.2)) (false, s)

/-- Whether the wave engine still copies a region (R336, R339): one is open, and no copy has failed. -/
def State.waveCopies (s : State) (p : Bool) : Bool :=
  (s.part p).wave.any (fun w => !w.opened.isEmpty) && !s.regBit (.checkEdwave p) 29

/-- PREEMPT_SAVE_COMPLETE (R322, R339, R346): with every channel paused and the region of a wave sealed the save ends, PREEMPTED is
set and the command ends. -/
def execPreemptSaveComplete (p : Bool) (s : State) : Host.Outcome State Fault Refusal :=
  match (s.part p).saving with
  | none => .next s
  | some id =>
    if s.chansRun p || s.waveCopies p then .next s
    else
      let s0 := s.readMarked p
      let s1 := (s0.writeSlots p).setPart p { s0.part p with saving := none, saved := some (s0.savedOf p) }
      .next ((s1.setRegBit (.secPstat p) 29 true).finish id 0 [])

/-- RESUME_PARTITION (R347, R348): refused for a partition that is not pre-empted. -/
def execResumePartition (k : Packet) (s : State) : Host.Outcome State Fault Refusal :=
  runPacket k ⟨0x0405, 1, false, true, true⟩ false (fun s => onPart k fun p =>
    if !s.regBit (.secPstat p) 29 || (s.cmdOf 0x0405 (some p)).isSome then .refuse
    else .long s (some p) 0 fun a _ => a) s

/-- A saved tile with the memories that the save slot holds. -/
def State.withImages (s : State) (t : Nat) (x : Tile) : Tile :=
  { x with
    desk := Bank.slice s.stash (imageAt t) (imageAt t + 0x100000) 0
    shelf := Bank.slice s.stash (imageAt t + 0x100000) (imageAt t + 0x500000) 0 }

/-- The saved tiles, memories, windows and channel registers back in place. -/
def State.putSaved (s : State) (p : Bool) (v : Saved) : State :=
  let f := s.partFields p
  let s1 := { s with
    tiles := Bank.setAll noTile (s.tiles.filter fun e => !bit f (e.1 / 625)) (v.tiles.map fun e : Nat × Tile => (e.1,
        s.withImages e.1 e.2))
    office := Bank.setAll resetWord (s.office.filter fun e => !inFields f e.1 && !chanKept p e.1)
        (v.regs.filter fun e => inFields f e.1 || chanKept p e.1) }
  s1.setPart p { s1.part p with saved := none }

/-- Credits at full depth, as a resumption leaves them (R150): link queues and streams. -/
def State.fullCredits (s : State) (p : Bool) : State :=
  let ports := s.namedPorts p
  let s1 := (s.mapTiles (s.liveTiles p) fun x => { x with outCred := [] })
  let s2 := ports.foldl (fun (acc : State) l => acc.setPort l { acc.port l with credits := [], gateCred := [] }) s1
  { s2 with meshCred := s2.meshCred.filter fun c =>
      if c.1 < 2 ^ 20 then decide (s.tilePart (c.1 / 16) ≠ some p) else !ports.contains ((c.1 - 2 ^ 20) / 192) }

/-- The restored partition goes on: a recall that was answered for during the pause is applied to the restored tiles;
otherwise the period after the saving bell opens, with full credits and start skew (R150, R157, R267, R347). -/
def State.goOn (s : State) (p : Bool) (l : Lesson) : State :=
  match (s.part p).rcl with
  | some r =>
    let s1 := s.quiesce p
    if r.phase = .agreement then s1 else s1.revertEditions p
  | none =>
    -- a job that stopped during the pause stays stopped (R281)
    if s.regBit (.checkMark p) 29 then s.quiesce p
    else
    let s1 := s.fullCredits p
    let s2 := s1.setPart p { s1.part p with skew := true, xt := 0 }
    -- while the principal restarts, bells stay stopped (R367, R371)
    if s.fwPaused then s2.setPart p { s2.part p with fwStop := true } else (s2.openPeriod p l).drainPorts p

/-- PARTITION_RESTORE_COMPLETE (R128, R347): the saved state is back bit for bit; an uncorrectable line of a save slot (`bad`: one that
the restore finds) leaves the partition fenced. -/
def execPartitionRestoreComplete (p : Bool) (bad : Option Nat) (s0 : State) : Host.Outcome State Fault Refusal :=
  match s0.cmdOf 0x0405 (some p), (s0.part p).saved, s0.lesson p with
  | some c, some v, some l =>
    let r := (match bad with
      | some n => { s0 with stashErr := Bank.set noErr s0.stashErr n 2 }
      | none => s0).readSlots p
    let s := r.2
    if r.1 then .next ((s.fencePartition p).finish c.id 0x000A [])
    else
      let s1 := ((s.putSaved p v).setRegBit (.secPstat p) 29 false).resumeChans p
      .next ((s1.goOn p l).finish c.id 0 [])
  | _, _, _ => .next s0

end Sys2Proof.Machine
end

