-- ==== Sys2Proof/Machine/Firmware.lean ====
section
/-! DEFINITION. Firmware and its update (R361 to R373): the bundle and its check, FW_WRITE, FW_ACTIVATE with its pause, trial,
confirmation and fallback, FW_STATUS, and the principal's watchdog. -/

set_option Elab.async false

namespace Sys2Proof.Machine

/-! ### Differences (R364) -/

/-- Runs the operations of a difference; none: malformed. -/
def diffOps (base : Bytes) : Nat → Bytes → Option Bytes
  | 0, ops => if ops.isEmpty then some [] else none
  | n + 1, ops =>
    if ops.isEmpty then some []
    else if ops.length < 8 then none
    else
      let w := field ops 0 8
      let off := bits w 61 32
      let len := bits w 31 0
      let rest := ops.drop 8
      match bits w 63 62 with
      | 0 => if base.length < off + len then none else (diffOps base n rest).map (cutAt base off len ++ ·)
      | 1 =>
        let k := (len + 7) / 8 * 8
        if off ≠ 0 ∨ rest.length < k ∨ !zeroAt rest len (k - len) then none
        else (diffOps base n (rest.drop k)).map (rest.take len ++ ·)
      | 2 => if off ≠ 0 ∨ 16777216 < len then none else (diffOps base n rest).map (List.replicate len 0 ++ ·)
      | _ => none

/-- The bundle that a difference produces from the running one, or the outcome that it fails with. -/
def diffBundle (base d : Bytes) : Nat ⊕ Bytes :=
  if d.length < 64 ∨ d.take 8 ≠ [0x42, 0x56, 0x32, 0x46, 0x57, 0x44, 0x49, 0x46] ∨ !zeroAt d 60 4 then .inl 4
  else if cutAt d 8 48 ≠ sha384 base then .inl 3
  else
    match diffOps base d.length (d.drop 64) with
    | some b => if b.length = field d 56 4 then .inr b else .inl 4
    | none => .inl 4

/-! ### FW_WRITE (R363 to R365) -/

/-- Whether a firmware activity is in progress: writing, waiting or pausing, or a trial. -/
def State.fwBusy (s : State) : Bool := s.regFld .fwStat 31 30 != 0 || s.fw.writing.isSome || s.fw.act.isSome

/-- FW_WRITE ends with an outcome of R365. -/
def State.endWrite (s : State) (id outcome n : Nat) : State :=
  let s1 := ({ s with fw := { s.fw with writing := none } }.setPhase 0).setRegFld .fwStat 27 24 outcome
  s1.finish id (outcomeStatus outcome) (toLE 4 n ++ toLE 1 outcome)

/-- FW_WRITE (R363): the inactive slot is invalid from here on; refused while a write, an activation or a trial runs. -/
def execFwWrite (k : Packet) (s : State) : Host.Outcome State Fault Refusal :=
  runPacket k ⟨0x0701, 16, false, true, true⟩ false (fun s =>
    if pktArg k 20 1 / 2 ≠ 0 then .field 5 20
    else if pktArg k 21 1 ≠ 1 ∧ pktArg k 22 1 ≠ 0 then .field 5 22
    else if pktArg k 23 1 ≠ 0 then .field 5 23
    else if pktArg k 8 8 % 64 ≠ 0 then .field 4 8
    else if 1 < pktArg k 21 1 then .field 4 21
    else if 15 < pktArg k 22 1 then .field 4 22
    else if s.fwBusy then .refuse
    else .long s none 0 fun a id =>
      let a1 := (a.setRegFld (.fwSlot !a.runSlot) 31 29 0).setPhase 1
      match k.data with
      | none => a1.endWrite id 5 0
      | some d =>
        let b := d.take (pktArg k 16 4)
        if b.length < pktArg k 16 4 then a1.endWrite id 5 0
        else
          match (if bit (pktArg k 20 1) 0 then diffBundle (a1.slot a1.runSlot) b else .inr b) with
          | .inl n => a1.endWrite id n 0
          | .inr v => if 16777216 < v.length then a1.endWrite id 4 0
              else { a1 with fw := { a1.fw with writing := some (id, v) } }) s

/-- FW_WRITE_COMPLETE (R365): the slot holds the bundle, is read back and checked. -/
def execFwWriteComplete (readback : Bool) (s : State) : Host.Outcome State Fault Refusal :=
  match s.fw.writing with
  | none => .next s
  | some (id, b) =>
    let t := !s.runSlot
    let s1 := { s with fw := if t then { s.fw with slotB := b } else { s.fw with slotA := b } }
    if !readback then .next (s1.endWrite id 6 b.length)
    else
      let n := s1.bundleOutcome b
      let w := setFld (setFld (setFld (s1.reg (.fwSlot t)) 31 29 (if n = 0 then 1 else 0)) 22 16 (field b 12 1)) 15 0 (field b 20 2)
      .next ((s1.setReg (.fwSlot t) w).endWrite id n b.length)

/-! ### Activation (R366, R367) -/

/-- An activation or a fallback waits for the running partitions (R366, R371); with none running the slot starts at once. -/
def State.beginPause (s : State) (a : Activation) : State :=
  let s1 := ({ s with fw := { s.fw with act := some a } }).setPhase 2
  if a.wait0 || a.wait1 then s1 else s1.beginRun a

/-- The running partitions that a pause waits for. -/
def State.pauseOf (s : State) (cmd : Option Nat) (step0 step1 : BitVec 64) (fallback anyBell : Bool) : Activation :=
  { cmd := cmd, step0 := step0, step1 := step1, wait0 := s.running false, wait1 := s.running true, stopped0 := false
    stopped1 := false, fallback := fallback, anyBell := anyBell, started := false }

/-- FW_ACTIVATE (R366). -/
def execFwActivate (k : Packet) (s : State) : Host.Outcome State Fault Refusal :=
  runPacket k ⟨0x0702, 16, false, true, true⟩ false (fun s =>
    let at_ := fun (o : Nat) (p : Bool) => if pktArg k o 8 = 0 then s.step64 p + 1 else BitVec.ofNat 64 (pktArg k o 8)
    if s.slotState (!s.runSlot) ≠ 1 ∨ s.fwBusy ∨ s.recalling false ∨ s.recalling true then .refuse
    else .long s none 0 fun a id => a.beginPause (a.pauseOf (some id) (at_ 8 false) (at_ 16 true) false false)) s

/-- The end of a pause for a partition (R367 to R369): one that stopped goes on with the period it was about to open, with start skew
and no holdover limit in that period where the slot changed; a recall notice that was held starts its recall. -/
def State.restartPart (s : State) (p : Bool) (changed : Bool) : State :=
  let x := s.part p
  let s1 := s.setPart p { x with heldNote := none }
  let s2 :=
    match x.fwStop, x.lesson with
    | true, some l =>
      -- Xt returns to 0 when bells start after a stop (R391)
      ((s1.setPart p { x with
        fwStop := false, skew := x.skew || changed, noMax := x.noMax || changed, heldNote := none,
            xt := 0 }).openPeriod p l).drainPorts p
    | _, _ => s1
  match x.heldNote with
  | some n => s2.recall p n.1 n.2.1 n.2.2
  | none => s2

/-- Withdraws an activation that still waits (R300, R367): every stopped partition restarts, nothing is changed. -/
def State.withdraw (s : State) (a : Activation) (status : Nat) : State :=
  let s1 := ({ s with fw := { s.fw with act := none } }).setPhase 0
  ((s1.restartPart false false).restartPart true false).endAct a.cmd status

/-- FW_ACTIVATE_WITHDRAW (R367): the last named bell has not come within 800 ms. -/
def execFwActivateWithdraw (s : State) : Host.Outcome State Fault Refusal :=
  match s.fw.act with
  | some a => if a.fallback || a.started then .next s else .next (s.withdraw a 0x0008)
  | none => .next s

/-- FW_PAUSE_COMPLETE (R362, R367, R371): with the monitors ready and the working memory restored, the principal restarts the bells; a
fallback ends FW_ACTIVATE. -/
def execFwPauseComplete (s : State) : Host.Outcome State Fault Refusal :=
  match s.fw.act with
  | none => .next s
  | some a =>
    if !a.started || s.regFld .fwMonstat 11 0 != 0xAAA then .next s
    else
      let s1 := { s with fw := { s.fw with act := none } }
      let s2 := (if s.regFld .fwStat 31 30 = 3 then s1 else s1.setPhase (b2n s.fw.writing.isSome)).endAct a.cmd 0x000A
      .next ((s2.restartPart false true).restartPart true true)

/-! ### Trial (R370, R371) -/

/-- Whether a trial's image may confirm: its pause over, monitors ready, ports back up, a step committed in every partition that
ran. -/
def State.mayConfirm (s : State) : Bool :=
  s.fw.act.isNone && s.regFld .fwStat 31 30 == 3 && s.regFld .fwMonstat 11 0 == 0xAAA && !s.fw.due0 && !s.fw.due1
    && (s.upMask &&& s.fw.before) == s.fw.before

/-- The fuse counters at least at a bundle's versions, within their 64 fuses, and shown in SEC_BOOT (R355). -/
def State.advanceFuses (s : State) (b : Bytes) : State :=
  let pri := Nat.min 64 (Nat.max s.fuses.svnPri (field b 12 1))
  let mon := Nat.min 64 (Nat.max s.fuses.svnMon (field b 13 1))
  ({ s with fuses := { s.fuses with svnPri := pri, svnMon := mon } }.setRegFld .secBoot 15 8 mon).setRegFld .secBoot 7 0 pri

/-- FW_CONFIRM (R370): the slot on trial becomes preferred, the counters advance, an old slot below them is stale. -/
def execFwConfirm (s : State) : Host.Outcome State Fault Refusal :=
  if !s.mayConfirm then .next s
  else
    let run := s.runSlot
    let s1 := (s.advanceFuses (s.slot run)).setRegBit .fwStat 29 run
    let old := s1.slot (!run)
    let s2 := if field old 12 1 < s1.fuses.svnPri ∨ field old 13 1 < s1.fuses.svnMon then s1.setRegFld (.fwSlot !run) 31 29 3 else s1
    let s3 := (s2.setRegFld .fwStat 15 0 0).setPhase 0
    .next ({ s3 with fw := { s3.fw with trialCmd := none } }.endAct s.fw.trialCmd 0)

/-- TRIAL_TIMEOUT (R371): the trial is over, and the fallback pauses the running partitions at the next first bell of a step. -/
def execTrialTimeout (s : State) : Host.Outcome State Fault Refusal :=
  if s.regFld .fwStat 31 30 ≠ 3 then .next s
  else
    let s1 := s.setRegFld .fwStat 15 0 0
    match s.fw.act with
    | some a => .next (s1.startFallback { a with cmd := s.fw.trialCmd } s.runSlot)
    | none => .next ({ s1 with fw := { s1.fw with trialCmd := none } }.beginPause (s.pauseOf s.fw.trialCmd 0 0 true false))

/-- A restart at once (R371, R373): bells are held at their next bell. The image of a trial, or one that waits to fall back, falls
back;
else the preferred slot runs again, and an activation that waits fails. -/
def State.restartNow (s : State) : State :=
  let trial := decide (s.regFld .fwStat 31 30 = 3)
  match s.fw.act with
  | none =>
    let a := s.pauseOf s.fw.trialCmd 0 0 trial true
    if trial then s.startFallback a s.runSlot
    else { s with fw := { s.fw with act := some { a with cmd := none, started := true } } }.startSlot s.prefSlot
  | some a =>
    if trial then s.startFallback { a with cmd := s.fw.trialCmd, anyBell := true } s.runSlot
    else if a.fallback && !a.started then s.startFallback { a with anyBell := true } s.runSlot
    else if a.started then s.startSlot s.prefSlot
    else
      (({ s with fw := { s.fw with act := some { a with cmd := none, anyBell := true, started := true } } }).startSlot s.prefSlot).endAct
        a.cmd 0x000A

/-- WATCHDOG_LAPSE (R371, R373): record 0x0084, and the restart. -/
def execWatchdogLapse (pc count : BitVec 64) (s : State) : Host.Outcome State Fault Refusal :=
  let s1 := s.logErr { code := 0x0084, cls := 3, kind := 4, loc := b2n s.runSlot, syn := toLE 8 pc.toNat ++ toLE 8 count.toNat }
  .next s1.restartNow

/-- FW_STATUS (R371). -/
def execFwStatus (k : Packet) (s : State) : Host.Outcome State Fault Refusal :=
  runPacket k ⟨0x0703, 0, true, true, false⟩ false (fun s =>
    let w := s.reg .fwStat
    let other := !s.runSlot
    .reply s 0 (toLE 1 (b2n s.runSlot) ++ toLE 1 (fld w 29 29) ++ toLE 1 (fld w 31 30) ++ toLE 1 (fld w 27 24)
      ++ cutAt (padTo 24 (s.slot s.runSlot)) 20 4 ++ cutAt (padTo 24 (s.slot other)) 20 4 ++ toLE 1 (s.slotState other)
      ++ toLE 1 s.fuses.svnPri ++ toLE 1 s.fuses.svnMon ++ toLE 2 (fld w 15 0))) s

end Sys2Proof.Machine
end

