-- ==== Sys2Proof/Machine/Telemetry.lean ====
section
/-! DEFINITION. Telemetry (R302, R353): READ_RING, READ_SENSORS, and the windows that refresh what hosts see. -/

set_option Elab.async false

namespace Sys2Proof.Machine

/-! ### Rings (R302) -/

/-- What READ_RING reads: the entries from the oldest held to the newest, the index of the first of them, the indices a full turn
takes, the loss count, and whether indices turn. -/
structure RingView where
  ents : List Bytes
  base : Nat
  cap  : Nat
  lost : Nat
  deriving DecidableEq, Repr

/-- An entry that a ring does not list. -/
def noEntry : Nat → Bytes := fun _ => []

/-- A ring's entries from the oldest held to the newest. -/
def Ring.view (r : Ring) (cap : Nat) : RingView :=
  let n := Nat.min cap r.ents.length
  let base := if n < cap then 0 else r.head
  { ents := (List.range n).map fun i => Bank.get noEntry r.ents ((base + i) % cap), base := base, cap := cap, lost := r.lost }

/-- Ring n of partition p with its capacity; ring 6 has none, since the location table is no ring. -/
def State.ringOf (s : State) (p : Bool) (n : Nat) : Ring × Nat :=
  match n with
  | 0 => ((s.part p).holdRing, 4096)
  | 1 => ({ s.errRing with head := s.regFld .checkErrlog 15 0, lost := s.regFld .checkErrlog 31 16 }, 65536)
  | 2 => ((s.part p).watchRing, 262144)
  | 3 => ((s.part p).eventRing, 1024)
  | 4 => ((s.part p).paceRing, 1024)
  | _ => (s.retained.faults, 131072)

/-- The part with ring n changed. -/
def State.setRing (s : State) (p : Bool) (n : Nat) (r : Ring) : State :=
  let x := s.part p
  match n with
  | 0 => s.setPart p { x with holdRing := r }
  | 1 => { s with errRing := r }
  | 2 => s.setPart p { x with watchRing := r }
  | 3 => s.setPart p { x with eventRing := r }
  | 4 => s.setPart p { x with paceRing := r }
  | 5 => { s with retained := { s.retained with faults := r } }
  | _ => s

/-- The bytes with bytes lo to hi − 1 replaced by the number v. -/
def putField (b : Bytes) (lo hi v : Nat) : Bytes := b.take lo ++ toLE (hi - lo) v ++ b.drop hi

/-- An entry of ring n as the host of its partition sees it (R353). -/
def coarse (n : Nat) (b : Bytes) : Bytes :=
  match n with
  | 0 =>
    let c := putField b 18 28 0
    if 0x21 ≤ field b 7 1 ∧ field b 7 1 ≤ 0x23 then
      putField (putField c 10 12 (field b 10 2 / 25 * 25)) 12 14 (field b 12 2 / 20 * 20)
    else c
  | 1 => putField (putField (putField (putField b 18 24 0) 24 32 (field b 24 8 / 2 ^ 30 * 2 ^ 30)) 32 34 0) 48 64 0
  | 4 => putField b 32 36 (field b 32 4 / 256 * 256)
  | _ => b

/-- Ring n as an issuer sees it: a host its own partition's records, coarsened; of ring 1 only those of its partition. -/
def State.ringView (s : State) (host : Bool) (p : Bool) (n : Nat) : RingView :=
  if n = 6 then
    { ents := s.retained.locs.map fun e => padTo 32 (Config.locEntry e.key e.times e.count e.perm), base := 0, cap := 16384, lost := 0 }
  else
    let r := s.ringOf p n
    let v := r.1.view r.2
    if !host then v
    else if n = 1 then { v with ents := (v.ents.filter fun b => field b 7 1 = b2n p).map (coarse 1), base := 0 }
    else { v with ents := v.ents.map (coarse n) }

/-- What a read of `count` entries from index `first` copies: towards the newest, as many as there are. -/
def RingView.read (v : RingView) (first count : Nat) : List Bytes :=
  (v.ents.drop ((first + v.cap - v.base) % v.cap)).take count

/-- The entries copied now count as read, and those before them (R163). -/
def Ring.seen (r : Ring) (cap first n : Nat) : Ring :=
  if n = 0 then r else { r with unread := Nat.min r.unread ((r.head + cap - (first + n) % cap) % cap) }

/-- The port that a host's data goes out on; management's goes through host port A (R302, R359). -/
def pktPort (k : Packet) : Bool := (pktHost k).getD false

/-- READ_RING (R302, R353): host port down under it ends it with 0x000A. On a fenced part management reads the error records all the
same (R377), over its own interface (DESIGN CHOICE, log 145). -/
def execReadRing (k : Packet) (s : State) : Host.Outcome State Fault Refusal :=
  runPacket k ⟨0x0501, 24, true, true, true⟩ false (fun s =>
    let n := pktArg k 8 1
    let first := pktArg k 12 4
    let count := pktArg k 16 4
    let host := (pktHost k).isSome
    let p := pktOwn k
    match pktSet k 9 12, pktSet k 20 24 with
    | some o, _ => .field 5 o
    | _, some o => .field 5 o
    | none, none =>
      if host ∧ (n = 5 ∨ n = 6) then .field 6 0
      else if 6 < n then .field 4 8
      else if (if n = 6 then 16384 else (s.ringOf p n).2) ≤ first then .field 4 12
      else if count < 1 ∨ 65536 < count then .field 4 16
      else if pktArg k 24 8 % 64 ≠ 0 then .field 4 24
      else doneAtOnce s (pktHost k) fun a =>
        let fenced := a.pins.fenced && !host && n == 1
        if !fenced && !a.hostUp (pktPort k) then (a, 0x000A, [])
        else
          let v := a.ringView host p n
          let es := v.read first count
          let a1 := if es.isEmpty then a
            else a.emit (if fenced then .mgmtRecords es.flatten else .hostWrite (pktPort k) (pktArg k 24 8) es.flatten)
          let r := a1.ringOf p n
          let a2 := if n = 6 ∨ (host ∧ n = 1) then a1 else a1.setRing p n (r.1.seen r.2 first es.length)
          (a2, 0, toLE 4 es.length ++ toLE 4 ((first + es.length) % v.cap) ++ toLE 4 v.lost)) s

/-! ### Sensors -/

/-- READ_SENSORS (R301, R353): management reads the part, a host its partition's coarsened figures; a partition's figures stand still
during its eraser pass (R350). -/
def execReadSensors (k : Packet) (s : State) : Host.Outcome State Fault Refusal :=
  runPacket k ⟨0x0502, 0, true, true, false⟩ false (fun s =>
    match pktHost k with
    | some h =>
      let x := s.part h
      let e := s.erasing h
      .reply s 0 (toLE 2 (if e then x.frozenPow else x.telePow) ++ toLE 2 (if e then x.frozenTemp else x.teleTemp))
    | none =>
      let pow := fun h : Bool => if s.erasing h then (s.part h).frozenPow else s.regFld (.powerPart h) 15 0
      .reply s 0 (toLE 2 (pow false + pow true)
        ++ toLE 2 (s.regFld .powerTherm 9 0))) s

/-- The figures of one partition at the end of a 100 ms window (R353). -/
def State.telemetry (s : State) (p : Bool) (power : Nat) : State :=
  let x := s.part p
  s.setPart p { x with telePow := power / 25 * 25, teleTemp := Nat.max x.peak (s.hottest (s.partSensors p)) / 20 * 20, peak := 0 }

/-- HOST_TELEMETRY_WINDOW (R353): the mean power of each partition over the window, rounded down to 25 W; the hottest reading
of its fields over the window, rounded down to 5 °C. -/
def execHostTelemetryWindow (power0 power1 : Nat) (s : State) : Host.Outcome State Fault Refusal :=
  .next ((s.telemetry false power0).telemetry true power1)

/-- POWER_INPUT_WINDOW (R395): VIN in 0.1 V and PIN in W of the window that ends. -/
def execPowerInputWindow (vin pin : Nat) (s : State) : Host.Outcome State Fault Refusal :=
  .next (s.setReg .powerInput (BitVec.ofNat 32 (vin % 65536 * 65536 + pin % 65536)))

/-- SENSOR_REPORT (R276, R391, R394): a reading of a sensor, in 0.25 °C: four in each field (places 0 to 3), one in the office die
(4), one in each stage (5). At 105 °C the part is fenced. -/
def execSensorReport (place index reading : Nat) (s : State) : Host.Outcome State Fault Refusal :=
  let ok := (decide (place < 4) && decide (index < 4)) || (place == 4 && index == 0) || (place == 5 && decide (index < 8))
  if !ok then .fault .noSuchUnit
  else
    let key := 4 * place + index
    let s0 := { s with sensors := Bank.set noReading s.sensors key reading }
    let p := if place < 4 then s0.fieldPart place else none
    let s1 := match p with
      | some q =>
        (s0.setPart q { s0.part q with peak := Nat.max (s0.part q).peak reading }).takeReading q reading
      | none => s0
    let s3 := s1.setRegFld .powerTherm 9 0 (s1.hottest (List.range 17))
    if reading < 420 then .next s3
    else
      let s4 := s3.logErr { code := 0x0091, cls := 2, kind := 6, unit := toLE 1 place ++ toLE 1 index ++ [0], part := p
                            loc := place + 256 * index, syn := toLE 16 reading }
      .next ((s4.setRegBit .powerStat 26 true).fencePartAll)

end Sys2Proof.Machine
end

