-- ==== Sys2Proof/Machine/Card.lean ====
section
/-! DEFINITION. Debug (R356), the owner key (R355), measurements and the report card (R357 to R359). The layouts of SPDM
messages are those of DSP0274 1.2, which the spec names and does not repeat (PRESUMED). -/

set_option Elab.async false

namespace Sys2Proof.Machine

/-! ### Debug and the owner key -/

/-- What a user of the test access port may ask for (R356, R398): BYPASS, IDCODE, the boundary scan of IEEE 1149.1 and 1149.6,
and the rest of the full port. -/
inductive TapUse where
  | bypass
  | idcode
  | boundary
  | full
  deriving DecidableEq, Repr

/-- Whether debug is open under a bit of the scope: 0 the full test access port, 1 principal and monitor debug,
2 the tile test windows (R356). -/
def State.debugOpen (s : State) (i : Nat) : Bool := s.regBit .secDebug 31 && (s.regFld .secDebug 27 24).testBit i

/-- What the test access port offers (R356): BYPASS and IDCODE always, boundary scan while RESET_N is low, and everything where
debug is open under scope 0. -/
def State.tapOffers (s : State) : TapUse → Bool
  | .bypass | .idcode => true
  | .boundary => !s.pins.resetN || s.debugOpen 0
  | .full => s.debugOpen 0

/-- DEBUG_CHALLENGE (R356): a fresh nonce and the unlock count. -/
def execDebugChallenge (k : Packet) (s : State) : Host.Outcome State Fault Refusal :=
  runPacket k ⟨0x0602, 0, false, true, false⟩ false (fun s =>
    let n : BitVec 128 := (Config.nonce s.free).truncate 128
    .reply ({ s with nonce := some n, half := none }).draw 0 (toLE 16 n.toNat ++ toLE 4 (s.regFld .secDebug 15 0))) s

/-- The digest that a debug token signs: SHA-384 over BV2DEBUG, the serial number, the nonce and the scope byte (R356). -/
def State.tokenDigest (s : State) (nonce : BitVec 128) (scope : Nat) : Bytes :=
  sha384 ([0x42, 0x56, 0x32, 0x44, 0x45, 0x42, 0x55, 0x47] ++ toLE 16 s.fuses.serial.toNat ++ toLE 16 nonce.toNat ++ toLE 1 scope)

/-- Whether a token verifies: under the owner key when OWNER is 1, else under the debug key (R356). -/
def State.tokenOk (s : State) (nonce : BitVec 128) (scope : Nat) (sig : Bytes) : Bool :=
  let d := s.tokenDigest nonce scope
  if s.regBit .secBoot 30 then Config.ownerSig (s.fuses.owner.getD []) d sig else Config.debugSig d sig

/-- The second half of a token: the nonce is spent, and an accepted token arms the next start (R356). -/
def State.unlock (s : State) (scope : Nat) (s2 : Bytes) : State × Nat × Bytes :=
  let a := { s with nonce := none, half := none }
  match s.nonce, s.half with
  | some n, some (sc, r) =>
    if sc.toNat = scope ∧ s.tokenOk n scope (r ++ s2) then
      let b := (a.setRegBit .secDebug 30 true).setRegFld .secDebug 15 0 (satAdd 65535 (s.regFld .secDebug 15 0) 1)
      ({ b with retained := { b.retained with armScope := BitVec.ofNat 3 scope } }, 0, [])
    else (a, 0x000C, [])
  | _, _ => (a, 0x000C, [])

/-- DEBUG_UNLOCK (R356): half 0 is kept; half 1 decides. A half without a nonce is a token that fails. -/
def execDebugUnlock (k : Packet) (s : State) : Host.Outcome State Fault Refusal :=
  runPacket k ⟨0x0603, 56, false, true, true⟩ false (fun s =>
    let scope := pktArg k 8 1
    let half := pktArg k 9 1
    let part := (k.params.drop 8).take 48
    if 8 ≤ scope then .field 5 8
    else
      match pktSet k 10 16 with
      | some o => .field 5 o
      | none =>
        if 1 < half then .field 4 9
        else doneAtOnce s none fun a =>
          if half = 0 then ({ a with half := some (BitVec.ofNat 8 scope, part) }, 0, [])
          else a.unlock scope part) s

/-- OWNER_KEY_BURN (R301, R355): the digest is burnt, and OWNER shows from the next start. -/
def execOwnerKeyBurn (k : Packet) (s : State) : Host.Outcome State Fault Refusal :=
  runPacket k ⟨0x0604, 48, false, true, true⟩ false (fun s =>
    if !s.debugOpen 1 || s.fuses.owner.isSome then .refuse
    else doneAtOnce s none fun a => ({ a with fuses := { a.fuses with owner := some (k.params.take 48) } }, 0, [1])) s

/-! ### Measurements (R358) -/

/-- A register's retained bits as bytes: office address and value. -/
def retBytes (e : Nat × Word) : Bytes :=
  match regAt e.1 with
  | some r => if e.2 &&& r.info.ret = 0 then [] else toLE 4 e.1 ++ toLE 4 (e.2 &&& r.info.ret).toNat
  | none => []

/-- The contents of the retained settings: the registers' retained bits, the plan, the maps, the connections. -/
def State.settings (s : State) : Bytes :=
  (s.office.flatMap retBytes) ++ s.retained.plan ++ s.retained.newPlan ++ s.retained.exTiles.flatMap (toLE 2)
    ++ s.retained.exStrips.flatMap (toLE 2) ++ s.retained.conns.flatMap (fun e => toLE 1 e.1 ++ e.2)
    ++ s.retained.equal.flatMap fun e => toLE 4 e.1 ++ toLE 4 e.2.toNat

/-- The value of measurement block n (R358). -/
def State.measurement (s : State) (n : Nat) : Bytes :=
  let b := s.slot s.runSlot
  let mon := fun k => sha384 (bundlePart b k) ++ [b.getD 13 0]
  let lesson := fun p => match s.lesson p with | some l => l.digest ++ l.pdigest | none => []
  match n with
  | 1 => Config.romDigest ++ toLE 1 (s.regFld .secDebug 27 24)
  | 2 => sha384 (bundlePart b 0) ++ [b.getD 12 0]
  | 3 => mon 1
  | 4 => mon 1
  | 5 => mon 1
  | 6 => mon 1
  | 7 => mon 2
  | 8 => mon 3
  | 9 => Config.settingsDigest s.settings
  | 10 => lesson false
  | 11 => lesson true
  | 12 => ((s.part0.roots.drop (s.part0.roots.length - 64)).map (·.2)).flatten
  | 13 => ((s.part1.roots.drop (s.part1.roots.length - 64)).map (·.2)).flatten
  | 14 => toLE 4 (s.reg .secPartmap).toNat ++ toLE 4 (s.reg .secPortown).toNat ++ toLE 4 (s.reg (.secPagebase false)).toNat
      ++ toLE 4 (s.reg (.secPagecnt false)).toNat ++ toLE 4 (s.reg (.secPagebase true)).toNat ++ toLE 4 (s.reg (.secPagecnt true)).toNat
  | 15 => s.planDigest
  | _ => []

/-- The blocks an issuer sees: the common ones and, for a host, those of its own partition (R358). -/
def blocksOf (h : Option Bool) : List Nat :=
  (List.range' 1 15).filter fun n =>
    match h with
    | some false => n != 11 && n != 13
    | some true => n != 10 && n != 12
    | none => true

/-- A measurement block: index, DMTF specification, sizes, value type, value (DSP0274). -/
def State.measBlock (s : State) (n : Nat) : Bytes :=
  let v := s.measurement n
  toLE 1 n ++ [1] ++ toLE 2 (v.length + 3) ++ [Config.measType n] ++ toLE 2 v.length ++ v

/-! ### SPDM (R357) -/

/-- An SPDM 1.2 ERROR response. -/
def spdmError (code : Nat) : Bytes := [0x12, 0x7F] ++ toLE 1 code ++ [0]

/-- Whether the part takes a request from an issuer: on a host port that is out of reset, or over management (R357). The mailbox of a
host port is reached by configuration requests, which an eraser pass answers with retry status (R350). -/
def State.spdmTakes (s : State) (who : Issuer) : Bool :=
  match who with
  | .hostA => s.hostUp false && !s.erasing false
  | .hostB => s.hostUp true && !s.erasing true
  | .mgmt => s.pins.mgmt
  | _ => false

/-- A request with a given code and version is answered; one of another version or shorter than its fields with an ERROR; an issuer
whose port is in reset gets nothing. -/
def spdmRun (who : Issuer) (req : Bytes) (version code len : Nat) (f : State → State × Bytes) (s : State) :
    Host.Outcome State Fault Refusal :=
  if !s.spdmTakes who then .next s
  else if field req 1 1 ≠ code ∨ req.length < len then .next (s.emit (.spdm who 0x7F (spdmError 1)))
  else if field req 0 1 ≠ version then .next (s.emit (.spdm who 0x7F (spdmError 0x41)))
  else
    let r := f s
    .next (r.1.emit (.spdm who (field r.2 1 1) r.2))

/-- GET_VERSION (R357): version 1.2 alone. -/
def execGetVersion (who : Issuer) (req : Bytes) (s : State) : Host.Outcome State Fault Refusal :=
  spdmRun who req 0x10 0x84 4 (fun s => (s, [0x10, 0x04, 0, 0, 0, 1, 0x00, 0x12])) s

/-- GET_CAPABILITIES (R357): the flags are not given. -/
def execGetCapabilities (who : Issuer) (req : Bytes) (s : State) : Host.Outcome State Fault Refusal :=
  spdmRun who req 0x12 0xE1 4 (fun s => (s, [0x12, 0x61, 0, 0] ++ padTo 16 Config.spdmCaps)) s

/-- NEGOTIATE_ALGORITHMS (R357): ECDSA P-384 and SHA-384 only, where the request offers them. -/
def execNegotiateAlgorithms (who : Issuer) (req : Bytes) (s : State) : Host.Outcome State Fault Refusal :=
  spdmRun who req 0x12 0xE3 16 (fun s =>
    let asym := if bit (field req 8 4) 7 then 0x80 else 0
    let hash := if bit (field req 12 4) 1 then 2 else 0
    (s, [0x12, 0x63, 0, 0] ++ toLE 2 36 ++ [1, 0] ++ toLE 4 4 ++ toLE 4 asym ++ toLE 4 hash ++ List.replicate 16 0)) s

/-- The certificate chain of slot 0 (R357): it depends on the ROM measurement and the running principal. -/
def State.chain (s : State) : Bytes := Config.certChain s.fuses.serial (s.measurement 1) (s.measurement 2)

/-- GET_DIGESTS (R357). -/
def execGetDigests (who : Issuer) (req : Bytes) (s : State) : Host.Outcome State Fault Refusal :=
  spdmRun who req 0x12 0x81 4 (fun s => (s, [0x12, 0x01, 0, 1] ++ sha384 s.chain)) s

/-- GET_CERTIFICATE (R357): a portion of slot 0's chain. -/
def execGetCertificate (who : Issuer) (req : Bytes) (s : State) : Host.Outcome State Fault Refusal :=
  spdmRun who req 0x12 0x82 8 (fun s =>
    let c := s.chain
    let o := field req 4 2
    if field req 2 1 % 16 ≠ 0 ∨ c.length ≤ o then (s, spdmError 1)
    else
      let n := Nat.min (field req 6 2) (c.length - o)
      (s, [0x12, 0x02, 0, 0] ++ toLE 2 n ++ toLE 2 (c.length - o - n) ++ cutAt c o n)) s

/-- A response with the part's signature appended; the signature is the part's own draw. -/
def State.sign (s : State) (req body : Bytes) : State × Bytes := (s.draw, body ++ padTo 96 (Config.cardSig s.free (req ++ body)))

/-- A nonce of the part, 32 bytes. -/
def State.freshNonce (s : State) : State × Bytes := (s.draw, toLE 32 (Config.nonce s.free).toNat)

/-- CHALLENGE (R357): a summary hash is over all blocks that the issuer sees. -/
def execChallenge (who : Issuer) (req : Bytes) (s : State) : Host.Outcome State Fault Refusal :=
  spdmRun who req 0x12 0x83 36 (fun s =>
    if field req 2 1 % 16 ≠ 0 then (s, spdmError 1)
    else
      let n := s.freshNonce
      let sum := if field req 3 1 = 0 then [] else sha384 ((blocksOf (hostOf who)).flatMap s.measBlock)
      n.1.sign req ([0x12, 0x03, 0, 1] ++ sha384 s.chain ++ n.2 ++ sum ++ [0, 0])) s

/-- A MEASUREMENTS response with its blocks, without its signature. -/
def State.measBody (s : State) (count : Nat) (ns : List Nat) (nonce : Bytes) : Bytes :=
  let r := ns.flatMap s.measBlock
  [0x12, 0x60] ++ toLE 1 count ++ [0] ++ toLE 1 ns.length ++ toLE 3 r.length ++ r ++ nonce ++ [0, 0]

/-- GET_MEASUREMENTS (R357, R358): the number of blocks, one block, or all that the issuer sees; signed where it asks. -/
def execGetMeasurements (who : Issuer) (req : Bytes) (s : State) : Host.Outcome State Fault Refusal :=
  spdmRun who req 0x12 0xE0 4 (fun s =>
    let all := blocksOf (hostOf who)
    let op := field req 3 1
    if op ≠ 0 ∧ op ≠ 0xFF ∧ !all.contains op then (s, spdmError 1)
    else
      let n := s.freshNonce
      let body := s.measBody (if op = 0 then all.length else 0) (if op = 0 then [] else if op = 0xFF then all else [op]) n.2
      if bit (field req 2 1) 0 then n.1.sign req body else (n.1, body)) s

/-! ### The report card (R359) -/

/-- REPORT_CARD (R359): a signed GET_MEASUREMENTS response for all blocks visible to the issuer, written to its buffer. -/
def execReportCard (k : Packet) (s : State) : Host.Outcome State Fault Refusal :=
  runPacket k ⟨0x0601, 40, true, true, true⟩ true (fun s =>
    if pktArg k 8 8 % 64 ≠ 0 then .field 4 8
    else doneAtOnce s (pktHost k) fun a =>
      if !a.hostUp (pktPort k) then (a, 0x000A, [])
      else
        let n := a.freshNonce
        let req := [0x12, 0xE0, 1, 0xFF] ++ (k.params.drop 8).take 32 ++ [0]
        let r := n.1.sign req (a.measBody 0 (blocksOf (pktHost k)) n.2)
        (r.1.emit (.hostWrite (pktPort k) (pktArg k 8 8) r.2), 0, toLE 4 r.2.length)) s

end Sys2Proof.Machine
end

