-- ==== Sys2Proof/Machine/Start.lean ====
section
/-! DEFINITION. Start-up (R354, R373 to R383, R400, R411, R412): what a reset keeps, the boot ROM, the dawn test, the monitors,
the restore of retained state, the dusk test, and the losses of supply. -/

set_option Elab.async false

namespace Sys2Proof.Machine

/-! ### What a reset keeps (R373, R378) -/

/-- A register's word after a reset: its retained bits, and every other bit at its reset value; an offset without a register
reads 0. -/
def keepRet (a : Nat) (w : Word) : Word :=
  match regAt a with
  | some r => (w &&& r.info.ret) ||| (r.info.reset &&& ~~~r.info.ret)
  | none => resetWord a

/-- The office with every register's word replaced. -/
def State.mapOffice (s : State) (f : Nat → Word → Word) : Bank Word :=
  s.office.foldl (fun m e => Bank.set resetWord m e.1 (f e.1 (Bank.get resetWord s.office e.1))) []

/-- What a partition keeps over a reset: the scope of its pending pass (R352). -/
def keepPart (x : Part) : Part := { scope := x.scope }

/-- The part with everything but its retained state, fuses and firmware slots at reset. A trial that a reset meets leaves its slot
failed (R371); a tile that stood by as free substitute is an ordinary tile again, since every memory is empty. What waits for the
part and what it has sent stay, as do the pins that the system drives. -/
def State.volatile (s : State) : State :=
  let trial := s.regFld .fwStat 31 30 = 3 || s.fw.act.any (fun a => a.fallback && !a.started)
  let s1 := if trial then s.setRegFld (.fwSlot s.runSlot) 31 29 2 else s
  { fuses := s.fuses
    pins := { resetN := s.pins.resetN, pgoodN := s.pins.pgoodN, seat := s.pins.seat, testmode := s.pins.testmode
              perstA := s.pins.perstA, perstB := s.pins.perstB }
    office := s1.mapOffice keepRet
    retained := { s.retained with exTiles := s.retained.exTiles.filter fun t => !(s.tile t).spare }
    part0 := keepPart s.part0
    part1 := keepPart s.part1
    fw := { slotA := s.fw.slotA, slotB := s.fw.slotB }
    nextCmd := s.nextCmd
    free := s.free
    out := s.out
    pending := s.pending }

/-- A start begins: STARTS counts it, KIND and PHASE show it (R373, R383). A debug token is armed for this start only (R356). -/
def State.beginStart (s : State) (kind phase : Nat) : State :=
  let v := s.volatile
  let n := satAdd 65535 (v.regFld .testStat 15 0) 1
  let armed := if v.regBit .secDebug 30 then some v.retained.armScope else none
  let s1 := ((v.setRegFld .testStat 15 0 n).setRegFld .testStat 27 25 kind).setRegFld .testStat 31 28 phase
  { s1.setRegBit .secDebug 30 false with pins := { s1.pins with armed := armed } }

/-- OFFICE_STRAP from the sampled straps (R400, R420). -/
def State.sampleStraps (s : State) (seat : BitVec 5) (mode : BitVec 2) : State :=
  let ok := decide (seat.toNat ≤ 17) && (mode == 0 || mode == 2)
  { s with pins := { s.pins with seat := seat, testmode := mode } }.setReg .officeStrap
    (BitVec.ofNat 32 (2 ^ 31 * b2n ok + 32 * mode.toNat + seat.toNat))

/-! ### Power (R373, R385, R387, R394) -/

/-- POWER_ON (R373, R385): a start; the stages soft-start. A RESET_N that is high already waits for the rails (R412). -/
def execPowerOn (s : State) : Host.Outcome State Fault Refusal :=
  let s1 := s.beginStart 0 1
  .next (({ s1 with pins := { s1.pins with pgoodN := true, early := s.pins.resetN } }).sampleStraps s.pins.seat s.pins.testmode)

/-- RAIL_FAULT (R394): PGOOD_N goes high, and the power-on reset that follows begins. -/
def execRailFault (s : State) : Host.Outcome State Fault Refusal :=
  let s1 := s.beginStart 0 1
  .next (({ s1 with pins := { s1.pins with pgoodN := true, early := s.pins.resetN, alertHeld := false } }).sampleStraps
    s.pins.seat s.pins.testmode)

/-- INPUT_FAULT (R385): the stages stop and PGOOD_N goes high; every command ends without a reply (R300); a power-on reset follows
when the input returns. -/
def execInputFault (s : State) : Host.Outcome State Fault Refusal :=
  let v := s.volatile
  .next { v with pins := { v.pins with pgoodN := true, inputOk := false } }

/-- INPUT_UNDERVOLTAGE (R385). -/
def execInputUndervoltage (s : State) : Host.Outcome State Fault Refusal := .next (s.setRegBit .powerStat 27 true)

/-- A stage is fenced: its bit, the count of working stages, and its record (R387, R394). -/
def State.fenceStage (s : State) (k : Nat) (syn : Bytes) : State :=
  let s1 := (s.setRegBit .powerStat k true).setRegFld .powerStat 31 28 (s.regFld .powerStat 31 28 - 1)
  s1.logErr { code := 0x0090, cls := 2, kind := 5, unit := toLE 1 k ++ [0, 0], loc := k, syn := syn }

/-- POWER_STAGE_FAULT (R387, R394): the stage is fenced, EFF drops from the next bell, and fewer than 5 working stages fence the
part. -/
def execPowerStageFault (stage : Nat) (volts amps : BitVec 64) (s : State) : Host.Outcome State Fault Refusal :=
  if 8 ≤ stage then .fault .noSuchUnit
  else if s.regBit .powerStat stage then .next s
  else
    let s1 := s.fenceStage stage (toLE 8 volts.toNat ++ toLE 8 amps.toNat)
    .next (if s1.regFld .powerStat 31 28 < 5 then s1.fencePartAll else s1)

/-- Whether a stage is classed permanent (R279, R387). -/
def State.stagePermanent (s : State) (k : Nat) : Bool :=
  s.retained.locs.any fun e => e.perm && field e.key 0 1 == 5 && field e.key 1 1 == k

/-! ### The dawn test -/

/-- The record of a failed item (R277): its bit position in TEST_DAWN, its unit. -/
def State.itemRec (s : State) (item : Nat) (unit : BitVec 24) (kind : Nat) : State :=
  (s.logErr { code := 0x0081, cls := 1, kind := kind, unit := toLE 3 unit.toNat, loc := item
              syn := toLE 16 (Config.itemSeen s.free).toNat }).draw

/-- An item of TEST_DAWN that failed: TEST_ITEM shows the first, its record is written, and the part is fenced (R271, R377); `mgmt`
says whether management is up. -/
def State.failItem (s : State) (item : Nat) (unit : BitVec 24) (mgmt : Bool) (kind : Nat) : State :=
  let s1 := if s.regFld .testItem 31 24 = 0xFF then s.setReg .testItem (BitVec.ofNat 32 (item * 2 ^ 24 + unit.toNat)) else s
  let s3 := ((s1.itemRec item unit kind).setRegBit .testStat 22 true).fencePartAll
  { s3 with pins := { s3.pins with mgmt := mgmt } }

/-- The power item (R376, R387): stages that failed at soft-start are fenced with a record, permanent ones without; 8 pass, 5 to
7 pass with repair, fewer fail with every interface in reset (R377). -/
def State.powerItem (s : State) (bad : Nat) : State :=
  let perm := (List.range 8).filter s.stagePermanent
  let s1 := perm.foldl (fun (acc : State) k =>
    (acc.setRegBit .powerStat k true).setRegFld .powerStat 31 28 (acc.regFld .powerStat 31 28 - 1)) s
  let s2 := ((List.range 8).filter fun k => bit bad k && !perm.contains k).foldl (fun (acc : State) k =>
    (acc.fenceStage k (toLE 16 (Config.itemSeen acc.free).toNat)).draw) s1
  let n := s2.regFld .powerStat 31 28
  let s3 := (s2.setRegFld .powerLimit 31 16 s2.effNow).setRegFld .testDawn 1 0 (if n = 8 then 1 else if 5 ≤ n then 2 else 3)
  if n < 5 then s3.failItem 0 (BitVec.ofNat 24 (((List.range 8).find? fun k => s3.regBit .powerStat k).getD 0)) false 5 else s3

/-- RAILS_IN_REGULATION (R374, R376): the stages that fail their test at soft-start; PGOOD_N goes low. -/
def execRailsInRegulation (bad : BitVec 8) (s : State) : Host.Outcome State Fault Refusal :=
  if s.phase ≠ 1 ∨ !s.pins.pgoodN then .next s
  else
    let s1 := s.powerItem bad.toNat
    .next { s1 with pins := { s1.pins with pgoodN := false } }

/-! ### Retained state (R378 to R380) -/

/-- What a clear leaves of a register: the items that are never cleared (R378). -/
def neverCleared (a : Nat) (w : Word) : Word :=
  match regAt a with
  | some r =>
    let m : Word := match r with
      | .fwStat => r.info.ret
      | .fwSlot _ => r.info.ret
      | .secDebug => 0x8F00FFFF
      | .secPstat _ => 0xFFFFFFFF
      | .testStat => 0xFFFFFFFF
      | r => ~~~r.info.ret
    (w &&& m) ||| (r.info.reset &&& ~~~m)
  | none => resetWord a

/-- Retained state at its factory values (R378); the last strapped seat is the present one. -/
def State.factory (s : State) : State :=
  let s1 := { s with
    office := s.mapOffice neverCleared
    retained := { faults := s.retained.faults } }
  s1.setRegFld .testRetain 4 0 s1.seat

/-- Step 5 (R374, R378, R379): the factory values after a clear that was asked for, by CLRPEND or by TESTMODE 0b10, or where neither
copy checks; else the copies. Debug that was armed is retained too. -/
def State.restore (s : State) : State :=
  let clear := s.regBit .testRetain 31 || s.pins.testmode == 2
  let good := s.pins.copyA || s.pins.copyB
  let s1 := if clear || !good then { s.factory with pins := { s.pins with armed := none } } else s
  let s2 := if clear then s1.setRegBit .testStat 21 true else s1
  if good then s2 else (s2.setRegBit .testRetain 30 true).alert

/-- The locations classed permanent take effect (R271, R280): tiles are fenced and leave the map, stash lines are withheld. -/
def State.takePermanent (s : State) : State :=
  let perm := s.retained.locs.filter (·.perm)
  let tiles := (perm.filter fun e => field e.key 0 1 = 0).map fun e => 625 * field e.key 1 1 + 25 * field e.key 2 1 + field e.key 3 1
  let lines := (perm.filter fun e => field e.key 0 1 = 3).map fun e => field e.key 4 8
  let ex := (tiles.eraseDups).filter fun t => !s.tileExcluded t
  let s1 := tiles.eraseDups.foldl (fun (acc : State) t =>
    if ex.contains t then acc.fenceTile t else acc.setTile t { acc.tile t with fenced := true }) s
  { s1 with badLines := lines.eraseDups, retained := { s1.retained with exTiles := s1.retained.exTiles ++ ex } }.setReg .checkTrans
    (transWord s.retained.locs)

/-- The seat strap governs; a change from the last start is shown (R380). -/
def State.keepSeat (s : State) : State :=
  let old := s.regFld .testRetain 4 0
  (if old = s.seat then s else s.setRegBit .testStat 20 true).setRegFld .testRetain 4 0 s.seat

/-- Whether a dusk record lets this start be short: valid, clean and passed (R375). -/
def State.duskOk (s : State) : Bool :=
  let w := s.reg .testDusk
  w.toNat.testBit 31 && w.toNat.testBit 30 && ((List.range 4).all fun i => fld w (2 * i + 1) (2 * i) == 1 || fld w (2 * i + 1) (2 * i) == 2)

/-- The dusk record is consumed, and FULL is set unless it makes a short dawn (R375). -/
def State.takeDusk (s : State) : State := (s.setRegBit .testStat 24 (!s.duskOk)).setReg .testDusk 0

/-! ### The boot ROM (R354, R355, R356, R420) -/

/-- The fuses' values in their registers (R360, R420). -/
def State.loadFuses (s : State) : State :=
  let f := s.fuses
  let s1 := s.setReg .officeId (BitVec.ofNat 32 (0x0B020000 + 256 * (if f.gradeB then 11 else 10) + 16 * b2n f.stepB1 + 8 * b2n f.twin))
  let s2 := (List.range 4).foldl (fun (acc : State) n => acc.setReg (.officeSerial n) (BitVec.ofNat 32 (f.serial.toNat / 2 ^ (32 * n)))) s1
  let s3 := (s2.setReg .officeMacLo (BitVec.ofNat 32 f.mac.toNat)).setReg .officeMacHi (BitVec.ofNat 32 (f.mac.toNat / 2 ^ 32))
  ((s3.setRegBit .secBoot 30 f.owner.isSome).setRegFld .secBoot 15 8 f.svnMon).setRegFld .secBoot 7 0 f.svnPri

/-- Whether the principal image of a slot may run (R354): its monitors are verified as they load (R362). -/
def State.principalOk (s : State) (p : Bool) : Bool :=
  let b := s.slot p
  bundleForm b && s.bundleSigned b && decide (s.fuses.svnPri ≤ field b 12 1)

/-- The principal image that runs (R354): the preferred slot, else the other with OTHERBAD; none: the part is fenced and reports only
through management. -/
def State.bootSlot (s : State) : Option State :=
  let p := s.prefSlot
  if s.principalOk p then some (s.setRegBit .secBoot 31 p)
  else if s.principalOk (!p) then some ((s.setRegBit .secBoot 31 !p).setRegBit .secBoot 29 true)
  else none

/-- Debug opens for this start when a token armed it (R356). -/
def State.openDebug (s : State) : State :=
  match s.pins.armed with
  | some scope => (s.setRegBit .secDebug 31 true).setRegFld .secDebug 27 24 scope.toNat
  | none => s

/-- Step 5 of a start (R374, R378 to R380): retained state, debug, the permanent locations, the seat and the dusk record. -/
def State.takeRetained (s : State) : State := (s.restore.openDebug.takePermanent.keepSeat).takeDusk

/-- The part fenced at its start with management up (R354, R377). -/
def State.fenceStart (s : State) : State :=
  let s1 := s.fencePartAll
  { s1 with pins := { s1.pins with mgmt := true } }

/-- Step 3 of a start, up to the dawn items: invalid straps leave the part in reset with management up, ALERT_N held low
and the straps in TEST_ITEM (R400, R412). -/
def State.boot (s : State) (copyA copyB : Bool) : State :=
  let s1 := { s with pins := { s.pins with early := false, copyA := copyA, copyB := copyB } }.setRegFld .testStat 31 28 2
  let s2 := if s1.regFld .testDawn 1 0 = 0 then s1.powerItem 0 else s1
  if s2.pins.fenced then s2
  else
    let s3 := s2.loadFuses
    if !s3.regBit .officeStrap 31 then
      let s4 := (s3.setRegFld .testItem 23 0 (s3.regFld .officeStrap 6 0)).setRegFld .testStat 31 28 0
      { s4 with pins := { s4.pins with mgmt := true, alertHeld := true } }
    else
      match s3.bootSlot with
      | none => s3.fenceStart
      | some s4 => s4.setRegFld .testStat 31 28 3

/-- PIN_RESET (R373, R400, R411, R412): RESET_N has been low for its minimum pulse and the straps are sampled; before the rails of
a start are up, and while RESET_N has not risen in it, it is no start of its own. -/
def execPinReset (seat : BitVec 5) (mode : BitVec 2) (s : State) : Host.Outcome State Fault Refusal :=
  let only := s.pins.pgoodN || (s.phase == 1) || (s.phase == 0 && !s.pins.resetN && s.regFld .testStat 27 25 == 1)
  let s1 := if only then s else s.beginStart 1 0
  .next (({ s1 with pins := { s1.pins with resetN := false, early := false } }).sampleStraps seat mode)

/-- RESET_RELEASE (R374, R411, R412): RESET_N rises. While PGOOD_N is high, or has not been low for 10 ms (`early`), the part stays
in its internal reset; else it boots. The operands say whether the digests of the retained copies check. -/
def execResetRelease (copyA copyB early : Bool) (s : State) : Host.Outcome State Fault Refusal :=
  if s.pins.resetN then .next s
  else
    let s1 := { s with pins := { s.pins with resetN := true } }
    if 2 ≤ s1.phase ∨ s1.pins.fenced then .next s1
    else if s1.pins.pgoodN || early then
      .next { s1 with pins := { s1.pins with early := true, copyA := copyA, copyB := copyB } }
    else .next (s1.boot copyA copyB)

/-- INTERNAL_RESET_RELEASE (R412): 10 ms after PGOOD_N fell, a RESET_N that rose early takes effect. -/
def execInternalResetRelease (s : State) : Host.Outcome State Fault Refusal :=
  if !s.pins.early ∨ s.pins.pgoodN ∨ !s.pins.resetN ∨ 2 ≤ s.phase ∨ s.pins.fenced then .next s
  else .next (s.boot s.pins.copyA s.pins.copyB)

/-! ### Monitors (R362) -/

/-- The state of monitor m in FW_MONSTAT. -/
def State.monState (s : State) (m : Nat) : Nat := s.regFld .fwMonstat (2 * m + 1) (2 * m)

/-- Steps 7 and 8 of a start: pending passes run, and a host port without one leaves reset (R352, R374). -/
def State.beginPasses (s : State) : State :=
  let s1 := s.setRegFld .testStat 31 28 6
  let s2 := [false, true].foldl (fun (acc : State) p =>
    if acc.regBit (.secPstat p) 27 then acc.setRegBit (.secPstat p) 30 true else acc) s1
  ((s2.releaseHost false).releaseHost true).tryTrain

/-- All six monitors have ended their loads (R362). With one fenced the start of the image has failed: a trial falls back, else the
other
slot is tried once, and without it the part is fenced. With all ready a start goes on; the pause of a firmware change ends with its own
command. -/
def State.monitorsDone (s : State) : State :=
  let ready := (List.range 6).all fun m => s.monState m == 2
  let trial := s.regFld .fwStat 31 30 == 3
  if ready then (if s.phase = 5 then s.beginPasses else s)
  else
    match s.fw.act with
    | some a =>
      if trial then s.startFallback { a with cmd := s.fw.trialCmd } s.runSlot
      else if !a.fallback && !s.regBit .secBoot 29 && s.principalOk (!s.runSlot) then
        (s.startSlot !s.runSlot).setRegBit .secBoot 29 true
      else s.fenceStart
    | none =>
      if s.phase ≠ 5 then s
      else if !s.regBit .secBoot 29 ∧ s.principalOk (!s.runSlot) then
        ((s.setRegBit .secBoot 31 !s.runSlot).setRegBit .secBoot 29 true).setRegFld .fwMonstat 11 0 1
      else s.fenceStart

/-- Monitor m has ended its load in a state of FW_MONSTAT; the next one of R362's order begins. -/
def State.monitorEnds (s : State) (m n : Nat) : State :=
  let s1 := s.setRegFld .fwMonstat (2 * m + 1) (2 * m) n
  if m < 5 then s1.setRegFld .fwMonstat (2 * m + 3) (2 * m + 2) 1 else s1.monitorsDone

/-- MONITOR_READY (R362): a monitor that is loading reports ready; one whose image does not verify is never released. -/
def execMonitorReady (m : Nat) (s : State) : Host.Outcome State Fault Refusal :=
  if 6 ≤ m then .fault .noSuchUnit
  else if s.monState m ≠ 1 ∨ s.bundleOutcome (s.slot s.runSlot) ≠ 0 then .next s
  else .next (s.monitorEnds m 2)

/-- MONITOR_READY_TIMEOUT (R362, R277): the monitor is fenced with record 0x0085 and the outcome of its verification, 0xFF for one that
did not report in time. -/
def execMonitorReadyTimeout (m : Nat) (s : State) : Host.Outcome State Fault Refusal :=
  if 6 ≤ m then .fault .noSuchUnit
  else if s.monState m ≠ 1 then .next s
  else
    let o := s.bundleOutcome (s.slot s.runSlot)
    let s1 := s.logErr { code := 0x0085, cls := 2, kind := 4, loc := m, syn := toLE 1 (if o = 0 then 0xFF else o) }
    .next (s1.monitorEnds m 3)

/-! ### The items (R376, R377) -/

/-- An outcome of a list; an item left out passes. -/
def outcomeAt (os : List (BitVec 2)) (i : Nat) : Nat := (os.getD i 1).toNat

/-- The worse of two outcomes. -/
def worse (a b : Nat) : Nat := Nat.max a b

/-- The unit kind of a TEST_DAWN item (R276): stages, stacks and ports; the rest lie on the office die. -/
def itemKind (item : Nat) : Nat := if item = 0 then 5 else if 6 ≤ item ∧ item ≤ 12 then 3 else if 14 ≤ item ∧ item ≤ 18 then 1
  else if item = 20 then 0 else 4

/-- Lanes that an item found bad: the port's spare takes the slot, where there is one (R196, R376). -/
def State.repairLanes (s : State) (ls : List (Nat × Nat)) : State :=
  (ls.filter fun x => decide (x.1 < 20)).foldl (fun (acc : State) x =>
    match acc.laneSlot x.1 x.2 with
    | some k =>
      if acc.spareLane x.1 = 7 then acc
      else (acc.setRegFld (.linkLanemap x.1) (3 * k + 5) (3 * k + 3) (acc.spareLane x.1)).setRegFld (.linkLanemap x.1) 2 0 7
    | none => if acc.spareLane x.1 = x.2 then acc.setRegFld (.linkLanemap x.1) 2 0 7 else acc) s

/-- Tiles whose router or link failed: excluded, recorded and classed permanent (R376). -/
def State.excludeTiles (s : State) (ts : List Nat) : State :=
  (ts.filter fun t => decide (t < 2500)).foldl (fun (acc : State) t =>
    let a1 := (acc.logErr { code := 0x0081, cls := 1, kind := 0, unit := tileUnit t, loc := 20
                            syn := toLE 16 (Config.itemSeen acc.free).toNat }).draw
    { a1 with retained := { a1.retained with
      exTiles := if a1.retained.exTiles.contains t then a1.retained.exTiles else a1.retained.exTiles ++ [t] } }) s

/-- The items of step 4: host A, host B, management, stacks 0 to 3 (R374). Management leaves reset when its own item passes; a failed
item fences the part. Then retained state is restored, and the principal starts (steps 5 and 6). -/
def State.dawnFirst (s : State) (os : List (BitVec 2)) (unit : BitVec 24) : State :=
  let host := worse (outcomeAt os 0) (outcomeAt os 1)
  let mgmt := outcomeAt os 2
  let s1 := (s.setRegFld .testDawn 3 2 host).setRegFld .testDawn 5 4 mgmt
  let s2 := (List.range 4).foldl (fun (acc : State) k => acc.setRegFld .testDawn (2 * k + 7) (2 * k + 6) (outcomeAt os (3 + k))) s1
  match [2, 4, 6, 8, 10, 12].find? fun i => s2.regFld .testDawn (i + 1) i = 3 with
  | some i => s2.failItem i unit (decide (mgmt ≠ 3)) (itemKind i)
  | none =>
    let s3 := ({ s2 with pins := { s2.pins with mgmt := true } }).takeRetained
    (s3.setRegFld .testStat 31 28 5).setRegFld .fwMonstat 11 0 1

/-- The port and mesh items: near, far, storage, mesh (R376). -/
def State.portItems (s : State) (lanes : List (Nat × Nat)) (tiles : List Nat) : State := (s.repairLanes lanes).excludeTiles tiles

/-- The items of step 9 of a full dawn (R374, R376, R377). -/
def State.dawnSecond (s : State) (os : List (BitVec 2)) (unit : BitVec 24) (lanes : List (Nat × Nat)) (tiles : List Nat) : State :=
  let s1 := (List.range 4).foldl (fun (acc : State) k => acc.setRegFld .testDawn (2 * k + 15) (2 * k + 14) (outcomeAt os k))
    (s.portItems lanes tiles)
  match [14, 16, 18, 20].find? fun i => s1.regFld .testDawn (i + 1) i = 3 with
  | some i => s1.failItem i unit true (itemKind i)
  | none => s1.tryTrain

/-- DAWN_TEST_COMPLETE (R374 to R377): the items of step 4, or those of step 9 in a full dawn. -/
def execDawnTestComplete (os : List (BitVec 2)) (unit : BitVec 24) (lanes : List (Nat × Nat)) (tiles : List Nat) (ms : Nat)
    (s : State) : Host.Outcome State Fault Refusal :=
  let s1 := { s with dawnMs := ms }
  if s.phase = 3 then .next (s1.dawnFirst os unit)
  else if s.phase = 6 ∧ s.regBit .testStat 24 ∧ s.regFld .testDawn 15 14 = 0 then .next (s1.dawnSecond os unit lanes tiles)
  else .next s

/-! ### Shut-down (R373, R381) -/

/-- The part enters reset after a shut-down (R373): long commands that are still outstanding end with 0x000B (R300), everything but
what
a reset keeps is at its reset value, and outputs are quiet until the next power-on or pin reset; desk, shelf and stash memory stay
until
the next start zeroes them. -/
def State.enterReset (s0 : State) : State :=
  let s := s0.cmds.foldl (fun (acc : State) c => acc.finish c.id 0x000B []) s0
  let v := s.volatile
  let tiles := s.tiles.filterMap fun e =>
    let x : Tile := { desk := e.2.desk, shelf := e.2.shelf, errs := e.2.errs }
    if x = {} then none else some (e.1, x)
  ({ v with tiles := tiles, stash := s.stash, stashErr := s.stashErr }.setRegFld .testStat 31 28 0).setRegFld .testStat 27 25 2

/-- The final reply of SHUTDOWN. -/
def State.endShutdown (s : State) (status : Nat) (res : Bytes) : State := (s.finishOp 0x0117 none status res).enterReset

/-- DUSK_TEST_COMPLETE (R381): near, far, storage and mesh. The record is written, the reply carries the outcomes; an item that fails
fences the part until it enters reset. -/
def execDuskTestComplete (os : List (BitVec 2)) (unit : BitVec 24) (lanes : List (Nat × Nat)) (tiles : List Nat) (s : State) :
    Host.Outcome State Fault Refusal :=
  if s.phase ≠ 9 then .next s
  else
    let s1 := s.portItems lanes tiles
    let w := BitVec.ofNat 32 (2 ^ 31 + 2 ^ 30 + outcomeAt os 0 + 4 * outcomeAt os 1 + 16 * outcomeAt os 2 + 64 * outcomeAt os 3)
    -- CLEAR_RETAINED before SHUTDOWN discards the record
    let s2 := if s1.regBit .testRetain 31 then s1 else s1.setReg .testDusk w
    let s3 := match [0, 1, 2, 3].find? fun i => outcomeAt os i = 3 with
      | some i => (s2.itemRec (14 + 2 * i) unit (itemKind (14 + 2 * i))).fencePartAll
      | none => s2
    .next (s3.endShutdown 0 (toLE 4 w.toNat))

end Sys2Proof.Machine
end

