-- ==== Sys2Proof/Machine/Service.lean ====
section
/-! DEFINITION. Commands that end at their bound (R300, R301) or with their port (R401), in-field tile tests (R275), scrub (R127,
R128), the storage connections (R327, R339, R407), the clocks (R408, R412), and PERST_N (R401). -/

set_option Elab.async false

namespace Sys2Proof.Machine

/-! ### Commands that are stopped (R300, R301) -/

/-- The tests of tile t that have not been carried out are dropped; a tile under test stays fenced. -/
def State.dropTest (s : State) (t : Nat) : State :=
  let d := s.deferred.filter (· != t)
  { s with moving := s.moving.filter (· != t), testing := s.testing.filter (· != t), deferred := d }.setRegFld .checkTest 10 0
    (Nat.min 2047 d.length)

/-- What a long command's row of R301 leaves in effect when its work is stopped: a load whose bytes stay, a halt or a pre-emption
withdrawn, a save that has begun still completing, an eraser pass that must run again at the next start. -/
def State.stopCmd (s : State) (c : Outstanding) (status : Nat) : State :=
  let own := c.part.getD false
  match c.opcode.toNat with
  | 0x0113 => (s.setRegBit (.secPstat own) 30 false).finish c.id status []
  | 0x0115 =>
    let s1 := { s with rollMask := 0, rollCmd := none }.setReg .linkRoll s.rollWord
    s1.finish c.id status (toLE 4 (s1.reg .linkRoll).toNat)
  | 0x0117 => s.endShutdown status []
  | 0x0201 => ((s.setPart own { s.part own with loading := none }).resumeChans own).finish c.id status []
  | 0x0203 =>
    -- a halt that another command still asks for stays
    ([false, true].foldl (fun (acc : State) p =>
      if c.arg.testBit (b2n p) && !(s.cmds.any fun d => d.id != c.id && d.opcode == 0x0203 && d.arg.testBit (b2n p)) then
        acc.setPart p { acc.part p with haltReq := false } else acc)
      s).finish c.id status []
  | 0x0301 => s.breakLoad own status none
  | 0x0404 =>
    let x := s.part own
    (if x.preReq = some c.id then s.setPart own { x with preReq := none } else s).finish c.id status []
  | 0x0701 =>
    ({ s with fw := { s.fw with writing := none } }.setPhase 0).finish c.id status (toLE 4 0 ++ toLE 1 (s.regFld .fwStat 27 24))
  | 0x0702 =>
    match s.fw.act with
    | some a =>
      if a.cmd = some c.id ∧ !a.fallback ∧ !s.fwPaused then s.withdraw a status
      else { s with fw := { s.fw with act := some { a with cmd := none }, trialCmd := none } }.finish c.id status []
    | none => { s with fw := { s.fw with trialCmd := none } }.finish c.id status []
  | 0x0801 => (s.dropTest c.arg).finish c.id status []
  | _ => s.finish c.id status []

/-- COMMAND_TIMEOUT (R300): the bound of an outstanding command runs out. -/
def execCommandTimeout (id : Nat) (s : State) : Host.Outcome State Fault Refusal :=
  match s.cmd id with
  | some c => .next (s.stopCmd c 0x0008)
  | none => .next s

/-! ### PERST_N (R401) -/

/-- Whether an office address lies in host port h's CMD copy. -/
def inCmd (h : Bool) (a : Nat) : Bool := decide (0x10000 + 0x8000 * b2n h ≤ a) && decide (a < 0x18000 + 0x8000 * b2n h)

/-- The channels of partition p whose current descriptor addresses host space stop with error 0x08 (R321, R401). -/
def State.stopHostChans (s : State) (p : Bool) : State :=
  (chansOf p).foldl (fun (acc : State) c =>
    let x := acc.chan c
    match x.cur with
    | some d =>
      if acc.chState c = 1 ∧ dUses d 0 then acc.stopChan c 8 x.moved else acc
    | none => acc) s

/-- PERST_ASSERT (R401): the port is in reset; its commands end, their replies discarded; its CMD registers and its rings' doorbells
are at reset. -/
def execPerstAssert (h : Bool) (s : State) : Host.Outcome State Fault Refusal :=
  let s1 := { s with pins := if h then { s.pins with perstB := true, hostB := false } else { s.pins with perstA := true, hostA := false } }
  let who := if h then Issuer.hostB else Issuer.hostA
  let s2 := (s1.cmds.filter fun c => c.issuer == who).foldl (fun (acc : State) c =>
    match acc.cmd c.id with
    | some d => acc.stopCmd d 0x000B
    | none => acc) s1
  let s3 := (List.range 512).foldl (fun (acc : State) r => acc.setDoorbell (512 * b2n h + r) false)
    { s2 with cmds := s2.cmds.filter fun c => c.issuer != who
              replies := Bank.clear s2.replies (256 * b2n h) (256 * b2n h + 256), office := s2.office.filter fun e => !inCmd h e.1 }
  .next (s3.stopHostChans h)

/-- PERST_DEASSERT (R374, R401): the port is ready, or will be at step 8 of a start. -/
def execPerstDeassert (h : Bool) (s : State) : Host.Outcome State Fault Refusal :=
  let s1 := { s with pins := if h then { s.pins with perstB := false } else { s.pins with perstA := false } }
  .next (s1.releaseHost h)

/-! ### In-field tests (R275) -/

/-- Whether the mapping gives physical tile t a role: of a usable strip, not excluded, not beyond the columns in use. -/
def State.active (s : State) (t : Nat) : Bool :=
  (s.usableStrips (t / 625)).contains (t / 25) && ((s.usableTiles (t / 25)).take (s.colsUsed t)).contains t

/-- The part with its count of deferred tests (R282). -/
def State.setDeferred (s : State) (d : List Nat) : State :=
  { s with deferred := d }.setRegFld .checkTest 10 0 (Nat.min 2047 d.length)

/-- A test of tile t starts: a tile with a role gives it to the strip's free substitute, at the step boundary of a running lesson or at
once; a tile without one is fenced and tested; with no free substitute, or another test in the strip, it waits. -/
def State.beginTest (s : State) (t : Nat) : State :=
  if s.testing.contains t || s.moving.contains t then s
  else if (s.testing ++ s.moving).any fun x => x / 25 == t / 25 then s.setDeferred (if s.deferred.contains t then s.deferred else s.deferred ++ [t])
  else
    let s0 := s.setDeferred (s.deferred.filter (· != t))
    if !s.active t then { s0.fenceTile t with testing := s0.testing ++ [t] }
    else if !s.hasFree t then s.setDeferred (if s.deferred.contains t then s.deferred else s.deferred ++ [t])
    else
      match s.tilePart t with
      | some p => if s.lessonRuns p then { s0 with moving := s0.moving ++ [t] } else s0.rotate t
      | none => s0.rotate t

/-- TILE_TEST_DUE (R275, R282): with INTERVAL 0 there are no tests; only a tile with a role is tested. -/
def execTileTestDue (t : Nat) (s : State) : Host.Outcome State Fault Refusal :=
  if 2500 ≤ t then .fault .noSuchUnit
  else if s.regFld .checkTest 23 12 = 0 ∨ !s.active t then .next s
  else .next (s.beginTest t)

/-- TEST_TILE (R275, R301): it ends with the test's outcome. -/
def execTestTile (k : Packet) (s : State) : Host.Outcome State Fault Refusal :=
  runPacket k ⟨0x0801, 3, false, true, true⟩ false (fun s =>
    if 3 < pktArg k 8 1 then .field 4 8
    else if 24 < pktArg k 9 1 then .field 4 9
    else if 24 < pktArg k 10 1 then .field 4 10
    else
      let t := 625 * pktArg k 8 1 + 25 * pktArg k 9 1 + pktArg k 10 1
      .long s none t fun a _ => a.beginTest t) s

/-- TILE_TEST_COMPLETE (R271, R275, R279): a pass lifts the fence, and the tile stands by as the strip's free substitute; a fail
is recorded with what was expected and seen, and classes the tile permanent. A deferred test of the strip then goes on. A pending
TILE_MXINJ stays pending (DESIGN CHOICE, log 125). -/
def execTileTestComplete (t : Nat) (pass : Bool) (expected seen : BitVec 64) (s : State) : Host.Outcome State Fault Refusal :=
  if 2500 ≤ t then .fault .noSuchUnit
  else if !s.testing.contains t then .next s
  else
    let s1 := { s with testing := s.testing.filter (· != t) }
    let s2 :=
      if pass then s1.setTile t { s1.tile t with fenced := false, spare := s1.retained.exTiles.contains t }
      else
        let a := s1.logErr { code := 0x0081, cls := 1, kind := 0, unit := tileUnit t, part := s1.tilePart t,
                             syn := toLE 8 expected.toNat ++ toLE 8 seen.toNat }
        let b := a.setTile t { a.tile t with fenced := true, spare := false }
        -- under a running lesson an exclusion takes effect at the step boundary (R272)
        if b.retained.exTiles.contains t then b
        else if (b.tilePart t).any b.lessonRuns then { b with moving := b.moving ++ [t] } else b.remapTile t
    let s3 := (s2.cmds.filter fun c => c.opcode == 0x0801 && c.arg == t).foldl (fun (acc : State) c =>
      acc.finish c.id (if pass then 0 else 0x000A) []) s2
    match s3.deferred.find? fun x => x / 25 == t / 25 with
    | some x => .next (s3.beginTest x)
    | none => .next s3

/-- TEST_OVERDUE (R275, R277): a deferred test has reached its deadline. -/
def execTestOverdue (t hours : Nat) (s : State) : Host.Outcome State Fault Refusal :=
  if 2500 ≤ t then .fault .noSuchUnit
  else if !s.deferred.contains t then .next s
  else
    let s1 := (s.setRegBit .checkTest 11 true).logErr { code := 0x0082, cls := 3, kind := 0, unit := tileUnit t, part := s.tilePart t,
                                                         loc := t, syn := toLE 8 hours }
    .next s1.alert

/-! ### Scrub (R127, R128) -/

/-- A scrubbed line of desk or shelf memory: every marked word is recorded; a corrected one is written back in the same cycle. -/
def State.scrubWords (s : State) (t : Nat) (shelf : Bool) (line : Nat) : State :=
  let c := queueCtx t
  (List.range 8).foldl (fun (acc : State) i =>
    let a := 64 * line + 8 * i
    let k := errKey shelf a
    let m := Bank.get noErr (acc.tile t).errs k
    let a1 := if m = 3 then acc else acc.wordRead c shelf a false
    if m = 1 then a1.cleanWord t k else a1) s

/-- SCRUB_LINE (R127): in a recess cycle, or with the bells stopped, and with no memory instruction in flight. A word that is poisoned
already is known. -/
def execScrubLine (t deskLine shelfLine : Nat) (s : State) : Host.Outcome State Fault Refusal :=
  if 2500 ≤ t ∨ 16384 ≤ deskLine ∨ 65536 ≤ shelfLine then .fault .noSuchUnit
  else
    let busy := match s.tilePart t with
      | some p => s.running p && !(s.part p).inRecess
      | none => false
    if busy || (s.tile t).memBusy then .next s
    else .next ((s.scrubWords t false deskLine).scrubWords t true shelfLine)

/-- The partition whose pages hold a physical stash line, and the line's partition-relative address under its page table. -/
def State.lineOwner (s : State) (line : Nat) : Option (Bool × Option Nat) :=
  match [false, true].find? fun p => s.pageOf p (line / 1024) with
  | none => none
  | some p =>
    let rel := match s.lesson p with
      | some l => (l.pages.find? fun e =>
          let w := s.pageEntry p (65536 * e.1)
          bit w 63 && bits w 20 0 == line / 1024).map fun e => 65536 * e.1 + 64 * line % 65536
      | none => none
    some (p, rel)

/-- STASH_SCRUB (R128): a correctable error is rewritten and recorded; an uncorrectable one is recorded, and recalls the job when the
line lies in its active master bank or a frozen image. -/
def execStashScrub (line : Nat) (s : State) : Host.Outcome State Fault Refusal :=
  if stashSize ≤ 64 * line then .fault .noSuchUnit
  else
    let o := s.lineOwner line
    let r := s.stashLine line (o.map (·.1))
    match r.1, o with
    | true, some (p, some a) => if r.2.guarded p a then .next (r.2.recall p 2 (r.2.pnum p) false) else .next r.2
    | _, _ => .next r.2

/-! ### Storage connections (R327, R339, R406, R407) -/

/-- The connection reply datagram (R406). -/
def State.connReply (s : State) (conn status : Nat) : State :=
  s.emit (.datagram (bv2m 4 ++ toLE 1 conn ++ toLE 1 status ++ List.replicate 6 0))

/-- Whether a load reads a tensor or a node file over a connection (R328). -/
def WLoad.uses (w : WLoad) (conn : Nat) : Bool := (w.ents.any fun e => e.conn == conn) || w.nodes.any fun f => f.2 == conn

/-- Whether a running WEIGHT_LOAD uses a connection. -/
def State.connBusy (s : State) (conn : Nat) : Bool :=
  [false, true].any fun p => match (s.part p).load with
    | some w => w.uses conn
    | none => false

/-- STORAGE_CONNECTION_RECORD (R406, R407): a record of another length is dropped; one out of its fields' ranges, or on a storage port
that its partition does not own (R345), is refused. -/
def execStorageConnectionRecord (body : Bytes) (s : State) : Host.Outcome State Fault Refusal :=
  if !s.pins.mgmt ∨ body.length ≠ 64 then .next s
  else
    let n := field body 0 1
    let part := field body 1 1
    let port := field body 2 1
    let ok := decide (n < 16) && decide (part < 2) && decide (port < 2) && decide (field body 3 1 < 2) && zeroAt body 40 24
      && decide (field body 7 1 = 0) && decide (field body 11 1 = 0)
    let valid := field body 3 1 = 1
    if !ok then .next (s.connReply n 1)
    else if s.connBusy n then .next (s.connReply n 2)
    else if valid ∧ (s.regBit .secPortown (20 + port) ≠ decide (part = 1) ∨ s.erasing (decide (part = 1))) then .next (s.connReply n 1)
    else
      let r := s.retained
      let s1 := { s with retained := { r with conns := Bank.set (fun _ => []) r.conns n (if valid then body else []) } }
      let w := if valid then BitVec.ofNat 32 (2 ^ 31 + 2 ^ 30 * port + 2 ^ 29 * part) else 0
      .next ((s1.setReg (.dmaLdconn n) w).connReply n 0)

/-- STORAGE_CONNECTION_FAILURE (R333, R339, R341): a load that uses the connection ends with 0x000A; a staged leaf that is read
again over it sets FAILED, and its region stays open. -/
def execStorageConnectionFailure (conn : Nat) (s : State) : Host.Outcome State Fault Refusal :=
  if 16 ≤ conn then .fault .noSuchUnit
  else
    let p := s.regBit (.dmaLdconn conn) 29
    let s1 := s.setRegBit (.dmaLdconn conn) 31 false
    let used := match (s1.part p).load with
      | some w => w.uses conn
      | none => false
    let s2 := if used then s1.breakLoad p 0x000A (some conn) else s1
    let again := (s2.part p).fix.any fun w => w.want.any fun y => (w.ents[y.1]?).any fun e => e.staged && e.conn == conn
    .next (if again then s2.setRegBit (.checkEdwave p) 29 true else s2)

/-! ### Clocks (R276, R408, R412) -/

/-- PTP_SYNC (R408): the wall time. -/
def execPtpSync (time : BitVec 64) (s : State) : Host.Outcome State Fault Refusal := .next { s with wall := time }

/-- PPS (R408): its rising edge aligns the second of a synchronised clock, to the nearest. -/
def execPps (s : State) : Host.Outcome State Fault Refusal :=
  if s.wall = 0 then .next s
  else
    let sec := bits s.wall.toNat 63 30
    let up := decide (500000000 ≤ bits s.wall.toNat 29 0)
    .next { s with wall := BitVec.ofNat 64 ((sec + b2n up) * 2 ^ 30) }

/-- REFCLK_LOSS (R412): the part fences itself with record 0x0086; PGOOD_N stays low. -/
def execRefclkLoss (s : State) : Host.Outcome State Fault Refusal :=
  let s1 := ({ s with pins := { s.pins with refclk := false } }.logErr
    { code := 0x0086, cls := 2, kind := 4, syn := toLE 16 (Config.lockStatus s.free).toNat }).draw
  .next s1.fencePartAll

end Sys2Proof.Machine
end

