-- ==== Sys2Proof/Machine/Dispatch.lean ====
section
/-! DEFINITION. One arm per command: its meaning on everything but the queue. -/

namespace Sys2Proof.Machine

def exec (i : Instr) (s : State) : Host.Outcome State Fault Refusal :=
  match i with
  | .mxLdw a1 a2 => Sys2Proof.Machine.execMxLdw a1 a2 s
  | .mxLdwCrossRead a1 a2 => Sys2Proof.Machine.execMxLdwCrossRead a1 a2 s
  | .mxRun a1 a2 => Sys2Proof.Machine.execMxRun a1 a2 s
  | .crossReadRun a1 a2 => Sys2Proof.Machine.execCrossReadRun a1 a2 s
  | .tallyRun a1 a2 => Sys2Proof.Machine.execTallyRun a1 a2 s
  | .mxOut a1 a2 => Sys2Proof.Machine.execMxOut a1 a2 s
  | .mxSideStore a1 a2 => Sys2Proof.Machine.execMxSideStore a1 a2 s
  | .mxSideSend a1 a2 => Sys2Proof.Machine.execMxSideSend a1 a2 s
  | .mxSideFoldDesk a1 a2 => Sys2Proof.Machine.execMxSideFoldDesk a1 a2 s
  | .mxSideFoldStream a1 a2 => Sys2Proof.Machine.execMxSideFoldStream a1 a2 s
  | .mxPsend a1 a2 => Sys2Proof.Machine.execMxPsend a1 a2 s
  | .mxPadd a1 a2 => Sys2Proof.Machine.execMxPadd a1 a2 s
  | .add a1 a2 => Sys2Proof.Machine.execAdd a1 a2 s
  | .sub a1 a2 => Sys2Proof.Machine.execSub a1 a2 s
  | .mul a1 a2 => Sys2Proof.Machine.execMul a1 a2 s
  | .fma a1 a2 => Sys2Proof.Machine.execFma a1 a2 s
  | .fnma a1 a2 => Sys2Proof.Machine.execFnma a1 a2 s
  | .min a1 a2 => Sys2Proof.Machine.execMin a1 a2 s
  | .max a1 a2 => Sys2Proof.Machine.execMax a1 a2 s
  | .abs a1 a2 => Sys2Proof.Machine.execAbs a1 a2 s
  | .neg a1 a2 => Sys2Proof.Machine.execNeg a1 a2 s
  | .div a1 a2 => Sys2Proof.Machine.execDiv a1 a2 s
  | .eq a1 a2 => Sys2Proof.Machine.execEq a1 a2 s
  | .ne a1 a2 => Sys2Proof.Machine.execNe a1 a2 s
  | .lt a1 a2 => Sys2Proof.Machine.execLt a1 a2 s
  | .le a1 a2 => Sys2Proof.Machine.execLe a1 a2 s
  | .sel a1 a2 => Sys2Proof.Machine.execSel a1 a2 s
  | .iadd a1 a2 => Sys2Proof.Machine.execIadd a1 a2 s
  | .isub a1 a2 => Sys2Proof.Machine.execIsub a1 a2 s
  | .and a1 a2 => Sys2Proof.Machine.execAnd a1 a2 s
  | .or a1 a2 => Sys2Proof.Machine.execOr a1 a2 s
  | .xor a1 a2 => Sys2Proof.Machine.execXor a1 a2 s
  | .shl a1 a2 => Sys2Proof.Machine.execShl a1 a2 s
  | .shr a1 a2 => Sys2Proof.Machine.execShr a1 a2 s
  | .iota a1 a2 => Sys2Proof.Machine.execIota a1 a2 s
  | .fround a1 a2 => Sys2Proof.Machine.execFround a1 a2 s
  | .f2i a1 a2 => Sys2Proof.Machine.execF2i a1 a2 s
  | .i2f a1 a2 => Sys2Proof.Machine.execI2f a1 a2 s
  | .srnd a1 a2 => Sys2Proof.Machine.execSrnd a1 a2 s
  | .mxq a1 a2 => Sys2Proof.Machine.execMxq a1 a2 s
  | .exp a1 a2 => Sys2Proof.Machine.execExp a1 a2 s
  | .exp2 a1 a2 => Sys2Proof.Machine.execExp2 a1 a2 s
  | .log a1 a2 => Sys2Proof.Machine.execLog a1 a2 s
  | .log2 a1 a2 => Sys2Proof.Machine.execLog2 a1 a2 s
  | .rcp a1 a2 => Sys2Proof.Machine.execRcp a1 a2 s
  | .sqrt a1 a2 => Sys2Proof.Machine.execSqrt a1 a2 s
  | .rsqrt a1 a2 => Sys2Proof.Machine.execRsqrt a1 a2 s
  | .tanh a1 a2 => Sys2Proof.Machine.execTanh a1 a2 s
  | .sigm a1 a2 => Sys2Proof.Machine.execSigm a1 a2 s
  | .erf a1 a2 => Sys2Proof.Machine.execErf a1 a2 s
  | .sin a1 a2 => Sys2Proof.Machine.execSin a1 a2 s
  | .cos a1 a2 => Sys2Proof.Machine.execCos a1 a2 s
  | .mov a1 a2 => Sys2Proof.Machine.execMov a1 a2 s
  | .perm a1 a2 => Sys2Proof.Machine.execPerm a1 a2 s
  | .bcast a1 a2 => Sys2Proof.Machine.execBcast a1 a2 s
  | .sget a1 a2 => Sys2Proof.Machine.execSget a1 a2 s
  | .sput a1 a2 => Sys2Proof.Machine.execSput a1 a2 s
  | .emax a1 a2 => Sys2Proof.Machine.execEmax a1 a2 s
  | .emaxl a1 a2 => Sys2Proof.Machine.execEmaxl a1 a2 s
  | .gadd a1 a2 => Sys2Proof.Machine.execGadd a1 a2 s
  | .gsq a1 a2 => Sys2Proof.Machine.execGsq a1 a2 s
  | .gdot a1 a2 => Sys2Proof.Machine.execGdot a1 a2 s
  | .gfold a1 a2 => Sys2Proof.Machine.execGfold a1 a2 s
  | .grnd a1 a2 => Sys2Proof.Machine.execGrnd a1 a2 s
  | .gout a1 a2 => Sys2Proof.Machine.execGout a1 a2 s
  | .gin a1 a2 => Sys2Proof.Machine.execGin a1 a2 s
  | .fsum a1 a2 => Sys2Proof.Machine.execFsum a1 a2 s
  | .fsumsq a1 a2 => Sys2Proof.Machine.execFsumsq a1 a2 s
  | .fdot a1 a2 => Sys2Proof.Machine.execFdot a1 a2 s
  | .vxLdDesk a1 a2 => Sys2Proof.Machine.execVxLdDesk a1 a2 s
  | .vxLdStream a1 a2 => Sys2Proof.Machine.execVxLdStream a1 a2 s
  | .vxStDesk a1 a2 => Sys2Proof.Machine.execVxStDesk a1 a2 s
  | .vxStStream a1 a2 => Sys2Proof.Machine.execVxStStream a1 a2 s
  | .vxSideStore a1 a2 => Sys2Proof.Machine.execVxSideStore a1 a2 s
  | .vxSideSend a1 a2 => Sys2Proof.Machine.execVxSideSend a1 a2 s
  | .vxSideFoldDesk a1 a2 => Sys2Proof.Machine.execVxSideFoldDesk a1 a2 s
  | .vxSideFoldStream a1 a2 => Sys2Proof.Machine.execVxSideFoldStream a1 a2 s
  | .tadd a1 a2 => Sys2Proof.Machine.execTadd a1 a2 s
  | .tcvt a1 a2 => Sys2Proof.Machine.execTcvt a1 a2 s
  | .setvl a1 a2 a3 => Sys2Proof.Machine.execSetvl a1 a2 a3 s
  | .simm a1 a2 a3 => Sys2Proof.Machine.execSimm a1 a2 a3 s
  | .mmCopyToShelf a1 a2 => Sys2Proof.Machine.execMmCopyToShelf a1 a2 s
  | .mmCopyToDesk a1 a2 => Sys2Proof.Machine.execMmCopyToDesk a1 a2 s
  | .tfold a1 a2 => Sys2Proof.Machine.execTfold a1 a2 s
  | .mmSreqRead a1 a2 => Sys2Proof.Machine.execMmSreqRead a1 a2 s
  | .mmSreqWrite a1 a2 => Sys2Proof.Machine.execMmSreqWrite a1 a2 s
  | .mmWait a1 a2 => Sys2Proof.Machine.execMmWait a1 a2 s
  | .aput a1 a2 => Sys2Proof.Machine.execAput a1 a2 s
  | .aget a1 a2 => Sys2Proof.Machine.execAget a1 a2 s
  | .edTake a1 a2 => Sys2Proof.Machine.execEdTake a1 a2 s
  | .edTakeWait a1 a2 => Sys2Proof.Machine.execEdTakeWait a1 a2 s
  | .edDrop a1 a2 => Sys2Proof.Machine.execEdDrop a1 a2 s
  | .edOpen a1 a2 => Sys2Proof.Machine.execEdOpen a1 a2 s
  | .edSeal a1 a2 => Sys2Proof.Machine.execEdSeal a1 a2 s
  | .edSet a1 a2 => Sys2Proof.Machine.execEdSet a1 a2 s
  | .tsend a1 a2 => Sys2Proof.Machine.execTsend a1 a2 s
  | .trecv a1 a2 => Sys2Proof.Machine.execTrecv a1 a2 s
  | .stallResume a1 a2 => Sys2Proof.Machine.execStallResume a1 a2 s
  | .stashRequestComplete a1 => Sys2Proof.Machine.execStashRequestComplete a1 s
  | .meshFlitArrival a1 a2 => Sys2Proof.Machine.execMeshFlitArrival a1 a2 s
  | .meshCreditReturn a1 a2 a3 => Sys2Proof.Machine.execMeshCreditReturn a1 a2 a3 s
  | .bell a1 a2 a3 a4 a5 => Sys2Proof.Machine.execBell a1 a2 a3 a4 a5 s
  | .holdoverQuantumEnd a1 => Sys2Proof.Machine.execHoldoverQuantumEnd a1 s
  | .holdoverLimit a1 => Sys2Proof.Machine.execHoldoverLimit a1 s
  | .recessStart a1 => Sys2Proof.Machine.execRecessStart a1 s
  | .dataFrameReceived a1 a2 => Sys2Proof.Machine.execDataFrameReceived a1 a2 s
  | .creditFrameReceived a1 a2 => Sys2Proof.Machine.execCreditFrameReceived a1 a2 s
  | .markFrameReceived a1 a2 => Sys2Proof.Machine.execMarkFrameReceived a1 a2 s
  | .recallNotice a1 a2 => Sys2Proof.Machine.execRecallNotice a1 a2 s
  | .agreementTimeout a1 => Sys2Proof.Machine.execAgreementTimeout a1 s
  | .rebuildComplete a1 => Sys2Proof.Machine.execRebuildComplete a1 s
  | .hello a1 a2 => Sys2Proof.Machine.execHello a1 a2 s
  | .verdict a1 a2 => Sys2Proof.Machine.execVerdict a1 a2 s
  | .pigeonholeMessageFrame a1 a2 => Sys2Proof.Machine.execPigeonholeMessageFrame a1 a2 s
  | .pigeonholeReplyFrame a1 a2 => Sys2Proof.Machine.execPigeonholeReplyFrame a1 a2 s
  | .peerReplyTimeout a1 => Sys2Proof.Machine.execPeerReplyTimeout a1 s
  | .blockReceived a1 a2 a3 => Sys2Proof.Machine.execBlockReceived a1 a2 a3 s
  | .nak a1 a2 => Sys2Proof.Machine.execNak a1 a2 s
  | .probe a1 a2 => Sys2Proof.Machine.execProbe a1 a2 s
  | .echo a1 a2 a3 => Sys2Proof.Machine.execEcho a1 a2 a3 s
  | .linkSilenceTimeout a1 => Sys2Proof.Machine.execLinkSilenceTimeout a1 s
  | .frameSlot a1 a2 a3 => Sys2Proof.Machine.execFrameSlot a1 a2 a3 s
  | .laneFailure a1 a2 => Sys2Proof.Machine.execLaneFailure a1 a2 s
  | .laneCeWindow a1 a2 => Sys2Proof.Machine.execLaneCeWindow a1 a2 s
  | .laneSwitchRequest a1 a2 => Sys2Proof.Machine.execLaneSwitchRequest a1 a2 s
  | .laneSwitchComplete a1 => Sys2Proof.Machine.execLaneSwitchComplete a1 s
  | .rollCallTrainTimeout a1 => Sys2Proof.Machine.execRollCallTrainTimeout a1 s
  | .rollCallComplete => Sys2Proof.Machine.execRollCallComplete s
  | .relayProbeComplete a1 a2 => Sys2Proof.Machine.execRelayProbeComplete a1 a2 s
  | .mirrorStreamComplete a1 => Sys2Proof.Machine.execMirrorStreamComplete a1 s
  | .mirrorRefillComplete a1 => Sys2Proof.Machine.execMirrorRefillComplete a1 s
  | .scrubLine a1 a2 a3 => Sys2Proof.Machine.execScrubLine a1 a2 a3 s
  | .stashScrub a1 => Sys2Proof.Machine.execStashScrub a1 s
  | .identify a1 => Sys2Proof.Machine.execIdentify a1 s
  | .partState a1 => Sys2Proof.Machine.execPartState a1 s
  | .resetPartition a1 => Sys2Proof.Machine.execResetPartition a1 s
  | .clearRetained a1 => Sys2Proof.Machine.execClearRetained a1 s
  | .assignPartitions a1 => Sys2Proof.Machine.execAssignPartitions a1 s
  | .eraserPass a1 => Sys2Proof.Machine.execEraserPass a1 s
  | .eraserPassComplete a1 a2 => Sys2Proof.Machine.execEraserPassComplete a1 a2 s
  | .loadCampusPlan a1 => Sys2Proof.Machine.execLoadCampusPlan a1 s
  | .rollCall a1 => Sys2Proof.Machine.execRollCall a1 s
  | .substitute a1 => Sys2Proof.Machine.execSubstitute a1 s
  | .shutdown a1 => Sys2Proof.Machine.execShutdown a1 s
  | .powerLimit a1 => Sys2Proof.Machine.execPowerLimit a1 s
  | .lessonLoad a1 => Sys2Proof.Machine.execLessonLoad a1 s
  | .lessonLoadComplete a1 => Sys2Proof.Machine.execLessonLoadComplete a1 s
  | .lessonStart a1 => Sys2Proof.Machine.execLessonStart a1 s
  | .lessonHalt a1 => Sys2Proof.Machine.execLessonHalt a1 s
  | .lessonUnload a1 => Sys2Proof.Machine.execLessonUnload a1 s
  | .reshard a1 => Sys2Proof.Machine.execReshard a1 s
  | .reshardComplete a1 a2 a3 => Sys2Proof.Machine.execReshardComplete a1 a2 a3 s
  | .weightLoad a1 => Sys2Proof.Machine.execWeightLoad a1 s
  | .rdmaReadResponse a1 a2 a3 a4 => Sys2Proof.Machine.execRdmaReadResponse a1 a2 a3 a4 s
  | .weightLoadComplete a1 a2 => Sys2Proof.Machine.execWeightLoadComplete a1 a2 s
  | .waveRegionCopyComplete a1 a2 a3 a4 => Sys2Proof.Machine.execWaveRegionCopyComplete a1 a2 a3 a4 s
  | .editionSwitch a1 => Sys2Proof.Machine.execEditionSwitch a1 s
  | .editionStatus a1 => Sys2Proof.Machine.execEditionStatus a1 s
  | .setScalar a1 => Sys2Proof.Machine.execSetScalar a1 s
  | .mgmtRecall a1 => Sys2Proof.Machine.execMgmtRecall a1 s
  | .resume a1 => Sys2Proof.Machine.execResume a1 s
  | .preempt a1 => Sys2Proof.Machine.execPreempt a1 s
  | .preemptSaveComplete a1 => Sys2Proof.Machine.execPreemptSaveComplete a1 s
  | .resumePartition a1 => Sys2Proof.Machine.execResumePartition a1 s
  | .readRing a1 => Sys2Proof.Machine.execReadRing a1 s
  | .readSensors a1 => Sys2Proof.Machine.execReadSensors a1 s
  | .reportCard a1 => Sys2Proof.Machine.execReportCard a1 s
  | .debugChallenge a1 => Sys2Proof.Machine.execDebugChallenge a1 s
  | .debugUnlock a1 => Sys2Proof.Machine.execDebugUnlock a1 s
  | .ownerKeyBurn a1 => Sys2Proof.Machine.execOwnerKeyBurn a1 s
  | .fwWrite a1 => Sys2Proof.Machine.execFwWrite a1 s
  | .fwWriteComplete a1 => Sys2Proof.Machine.execFwWriteComplete a1 s
  | .fwActivate a1 => Sys2Proof.Machine.execFwActivate a1 s
  | .fwActivateWithdraw => Sys2Proof.Machine.execFwActivateWithdraw s
  | .fwPauseComplete => Sys2Proof.Machine.execFwPauseComplete s
  | .fwConfirm => Sys2Proof.Machine.execFwConfirm s
  | .trialTimeout => Sys2Proof.Machine.execTrialTimeout s
  | .fwStatus a1 => Sys2Proof.Machine.execFwStatus a1 s
  | .testTile a1 => Sys2Proof.Machine.execTestTile a1 s
  | .testResults a1 => Sys2Proof.Machine.execTestResults a1 s
  | .tileTestDue a1 => Sys2Proof.Machine.execTileTestDue a1 s
  | .tileTestComplete a1 a2 a3 a4 => Sys2Proof.Machine.execTileTestComplete a1 a2 a3 a4 s
  | .testOverdue a1 a2 => Sys2Proof.Machine.execTestOverdue a1 a2 s
  | .commandTimeout a1 => Sys2Proof.Machine.execCommandTimeout a1 s
  | .getVersion a1 a2 => Sys2Proof.Machine.execGetVersion a1 a2 s
  | .getCapabilities a1 a2 => Sys2Proof.Machine.execGetCapabilities a1 a2 s
  | .negotiateAlgorithms a1 a2 => Sys2Proof.Machine.execNegotiateAlgorithms a1 a2 s
  | .getDigests a1 a2 => Sys2Proof.Machine.execGetDigests a1 a2 s
  | .getCertificate a1 a2 => Sys2Proof.Machine.execGetCertificate a1 a2 s
  | .challenge a1 a2 => Sys2Proof.Machine.execChallenge a1 a2 s
  | .getMeasurements a1 a2 => Sys2Proof.Machine.execGetMeasurements a1 a2 s
  | .cmdDoorbell a1 a2 a3 => Sys2Proof.Machine.execCmdDoorbell a1 a2 a3 s
  | .cmdCtail a1 a2 a3 a4 => Sys2Proof.Machine.execCmdCtail a1 a2 a3 a4 s
  | .cmdRhead a1 a2 a3 a4 => Sys2Proof.Machine.execCmdRhead a1 a2 a3 a4 s
  | .cmdRctl a1 a2 a3 a4 => Sys2Proof.Machine.execCmdRctl a1 a2 a3 a4 s
  | .commitWrite a1 a2 a3 => Sys2Proof.Machine.execCommitWrite a1 a2 a3 s
  | .powerLimitWrite a1 a2 a3 => Sys2Proof.Machine.execPowerLimitWrite a1 a2 a3 s
  | .inject a1 a2 a3 => Sys2Proof.Machine.execInject a1 a2 a3 s
  | .latchedLowWordRead a1 a2 => Sys2Proof.Machine.execLatchedLowWordRead a1 a2 s
  | .registerWrite a1 a2 a3 a4 => Sys2Proof.Machine.execRegisterWrite a1 a2 a3 a4 s
  | .claim a1 a2 a3 => Sys2Proof.Machine.execClaim a1 a2 a3 s
  | .go a1 a2 a3 => Sys2Proof.Machine.execGo a1 a2 a3 s
  | .drop a1 a2 a3 => Sys2Proof.Machine.execDrop a1 a2 a3 s
  | .take a1 a2 a3 => Sys2Proof.Machine.execTake a1 a2 a3 s
  | .pigeonholeTimeout a1 => Sys2Proof.Machine.execPigeonholeTimeout a1 s
  | .dmaChstart a1 a2 a3 => Sys2Proof.Machine.execDmaChstart a1 a2 a3 s
  | .halt a1 a2 => Sys2Proof.Machine.execHalt a1 a2 s
  | .dmaCopy a1 a2 => Sys2Proof.Machine.execDmaCopy a1 a2 s
  | .dmaFill a1 a2 => Sys2Proof.Machine.execDmaFill a1 a2 s
  | .dmaCompare a1 a2 => Sys2Proof.Machine.execDmaCompare a1 a2 s
  | .dmaFence a1 a2 => Sys2Proof.Machine.execDmaFence a1 a2 s
  | .dmaDescriptorComplete a1 => Sys2Proof.Machine.execDmaDescriptorComplete a1 s
  | .dmaHostTimeout a1 => Sys2Proof.Machine.execDmaHostTimeout a1 s
  | .mgmtRegisterRead a1 => Sys2Proof.Machine.execMgmtRegisterRead a1 s
  | .mgmtRegisterWrite a1 => Sys2Proof.Machine.execMgmtRegisterWrite a1 s
  | .storageConnectionRecord a1 => Sys2Proof.Machine.execStorageConnectionRecord a1 s
  | .ptpSync a1 => Sys2Proof.Machine.execPtpSync a1 s
  | .pps => Sys2Proof.Machine.execPps s
  | .refclkLoss => Sys2Proof.Machine.execRefclkLoss s
  | .perstAssert a1 => Sys2Proof.Machine.execPerstAssert a1 s
  | .perstDeassert a1 => Sys2Proof.Machine.execPerstDeassert a1 s
  | .powerOn => Sys2Proof.Machine.execPowerOn s
  | .pinReset a1 a2 => Sys2Proof.Machine.execPinReset a1 a2 s
  | .resetRelease a1 a2 a3 => Sys2Proof.Machine.execResetRelease a1 a2 a3 s
  | .railsInRegulation a1 => Sys2Proof.Machine.execRailsInRegulation a1 s
  | .monitorReady a1 => Sys2Proof.Machine.execMonitorReady a1 s
  | .monitorReadyTimeout a1 => Sys2Proof.Machine.execMonitorReadyTimeout a1 s
  | .dawnTestComplete a1 a2 a3 a4 a5 => Sys2Proof.Machine.execDawnTestComplete a1 a2 a3 a4 a5 s
  | .watchdogLapse a1 a2 => Sys2Proof.Machine.execWatchdogLapse a1 a2 s
  | .inputUndervoltage => Sys2Proof.Machine.execInputUndervoltage s
  | .inputFault => Sys2Proof.Machine.execInputFault s
  | .railFault => Sys2Proof.Machine.execRailFault s
  | .powerStageFault a1 a2 a3 => Sys2Proof.Machine.execPowerStageFault a1 a2 a3 s
  | .sensorReport a1 a2 a3 => Sys2Proof.Machine.execSensorReport a1 a2 a3 s
  | .powerInputWindow a1 a2 => Sys2Proof.Machine.execPowerInputWindow a1 a2 s
  | .hostTelemetryWindow a1 a2 => Sys2Proof.Machine.execHostTelemetryWindow a1 a2 s
  | .partitionRestoreComplete a1 a2 => Sys2Proof.Machine.execPartitionRestoreComplete a1 a2 s
  | .duskTestComplete a1 a2 a3 a4 => Sys2Proof.Machine.execDuskTestComplete a1 a2 a3 a4 s
  | .storageConnectionFailure a1 => Sys2Proof.Machine.execStorageConnectionFailure a1 s
  | .internalResetRelease => Sys2Proof.Machine.execInternalResetRelease s
  | .portTrained a1 a2 => Sys2Proof.Machine.execPortTrained a1 a2 s
  | .registerReadAccerr a1 a2 => Sys2Proof.Machine.execRegisterReadAccerr a1 a2 s

end Sys2Proof.Machine
end

