-- ==== Sys2Proof/Machine/Encode.lean ====
section
/-! DEFINITION. The encoder of tile instructions: issue point, pipe and 64-bit word, from the encoding tables of R72, R97, R99,
R132, R217 and R241. -/

set_option Elab.async false

namespace Sys2Proof.Machine

/-- Field values at their bit places, as one word. -/
def packWord : List (Nat × Nat) → Nat
  | [] => 0
  | (v, lo) :: fs => v * 2 ^ lo + packWord fs

/-- A vector word: major opcode, function and the common fields (R97). -/
def vWord (major fn : Nat) (f : VArgs) : Nat :=
  packWord [(major, 58), (fn, 52), (f.vd.toNat, 47), (f.va.toNat, 42), (f.vb.toNat, 37), (f.bmode.toNat, 35), (f.cnt.toNat, 30),
    (f.mask.toNat, 27), (f.l0.toNat, 21), (f.g.toNat, 0)]

/-- MX.RUN, with the tally bit (R72, R87). -/
def runWord (tally : Bool) (f : RunArgs) : Nat :=
  packWord [(0x31, 58), (f.fmt.toNat, 54), (b2n f.grp, 53), (b2n f.start, 52), (b2n f.swap, 51), (b2n tally, 50), (f.rows.toNat, 44),
    (f.src.toNat, 42), (f.addr.toNat, 22), (f.side.toNat, 0)]

/-- MX.LDW, with the cross-read bit. -/
def ldwWord (cross : Bool) (f : LdwArgs) : Nat :=
  packWord [(0x30, 58), (f.fmt.toNat, 54), (b2n cross, 53), (f.blk.toNat, 32), (f.side.toNat, 10)]

/-- MX.SIDE with its function. -/
def sideWord (fn : Nat) (f : SideArgs) : Nat :=
  packWord [(0x33, 58), (fn, 56), (b2n f.grp, 55), (f.len.toNat, 49), (f.addr.toNat, 16)]

/-- MX.PSEND (0x34) and MX.PADD (0x35). -/
def partialWord (major : Nat) (f : PartialArgs) : Nat :=
  packWord [(major, 58), (b2n f.grp, 53), (b2n f.start, 52), (f.rows.toNat, 46), (f.stream.toNat, 16)]

/-- MM.MOVE with its function. -/
def moveWord (fn : Nat) (f : MoveArgs) : Nat :=
  packWord [(0x38, 58), (fn, 56), (b2n f.clear, 55), (f.cnt.toNat, 47), (f.shelf.toNat, 31), (f.desk.toNat, 17)]

/-- MM.SREQ with its function. -/
def sreqWord (fn : Nat) (f : SreqArgs) : Nat :=
  packWord [(0x39, 58), (fn, 56), (b2n f.shelf, 55), (f.laddr.toNat, 39), (f.saddr.toNat, 8), (f.lines.toNat, 2), (f.ctr.toNat, 0)]

/-- MM.ASTASH with its direction. -/
def stashWord (get : Bool) (f : StashArgs) : Nat :=
  packWord [(0x3B, 58), (b2n get, 57), (b2n f.shelf, 56), (f.recNo.toNat, 44), (f.lines.toNat, 36), (f.laddr.toNat, 20)]

/-- An edition instruction with its function and wait bit. -/
def edWord (fn : Nat) (wait : Bool) (f : EdArgs) : Nat :=
  packWord [(0x3C, 58), (fn, 55), (b2n wait, 54), (f.region.toNat, 48), (f.slot.toNat, 43), (f.desk.toNat, 29)]

/-- MM.TXFER with its direction. -/
def txWord (recv : Bool) (f : TxArgs) : Nat :=
  packWord [(0x3D, 58), (b2n recv, 57), (f.flits.toNat, 49), (f.desk.toNat, 35), (f.stream.toNat, 31), (b2n f.empty, 30)]

/-- The issue point, pipe (0 matrix, 1 vector, 2 memory) and word of a tile instruction. A run over a block of the cross-read
port has MX.RUN's word: which run it is follows from the active block (R83), so none is given for it here. -/
def encodeWord : Instr → Option (Issue × Nat × Nat)
  | .mxLdw a f => some (a, 0, ldwWord false f)
  | .mxLdwCrossRead a f => some (a, 0, ldwWord true f)
  | .mxRun a f => some (a, 0, runWord false f)
  | .tallyRun a f => some (a, 0, runWord true f)
  | .mxOut a f => some (a, 0, packWord [(0x32, 58), (f.fmt.toNat, 54), (b2n f.grp, 53), (b2n f.fold, 52), (f.rows.toNat, 46),
      (f.c.toNat, 38), (f.dst.toNat, 36), (f.addr.toNat, 16), (f.q.toNat, 14), (b2n f.wide, 13)])
  | .mxSideStore a f => some (a, 0, sideWord 0 f)
  | .mxSideSend a f => some (a, 0, sideWord 1 f)
  | .mxSideFoldDesk a f => some (a, 0, sideWord 2 f)
  | .mxSideFoldStream a f => some (a, 0, sideWord 3 f)
  | .mxPsend a f => some (a, 0, partialWord 0x34 f)
  | .mxPadd a f => some (a, 0, partialWord 0x35 f)
  | .add a f => some (a, 1, vWord 0x20 0 f)
  | .sub a f => some (a, 1, vWord 0x20 1 f)
  | .mul a f => some (a, 1, vWord 0x20 2 f)
  | .fma a f => some (a, 1, vWord 0x20 3 f)
  | .fnma a f => some (a, 1, vWord 0x20 4 f)
  | .min a f => some (a, 1, vWord 0x20 5 f)
  | .max a f => some (a, 1, vWord 0x20 6 f)
  | .abs a f => some (a, 1, vWord 0x20 7 f)
  | .neg a f => some (a, 1, vWord 0x20 8 f)
  | .div a f => some (a, 1, vWord 0x20 9 f)
  | .eq a f => some (a, 1, vWord 0x21 0 f)
  | .ne a f => some (a, 1, vWord 0x21 1 f)
  | .lt a f => some (a, 1, vWord 0x21 2 f)
  | .le a f => some (a, 1, vWord 0x21 3 f)
  | .sel a f => some (a, 1, vWord 0x21 4 f)
  | .iadd a f => some (a, 1, vWord 0x22 0 f)
  | .isub a f => some (a, 1, vWord 0x22 1 f)
  | .and a f => some (a, 1, vWord 0x22 2 f)
  | .or a f => some (a, 1, vWord 0x22 3 f)
  | .xor a f => some (a, 1, vWord 0x22 4 f)
  | .shl a f => some (a, 1, vWord 0x22 5 f)
  | .shr a f => some (a, 1, vWord 0x22 6 f)
  | .iota a f => some (a, 1, vWord 0x22 7 f)
  | .fround a f => some (a, 1, vWord 0x23 0 f)
  | .f2i a f => some (a, 1, vWord 0x23 1 f)
  | .i2f a f => some (a, 1, vWord 0x23 2 f)
  | .srnd a f => some (a, 1, vWord 0x23 3 f)
  | .mxq a f => some (a, 1, vWord 0x23 4 f)
  | .exp a f => some (a, 1, vWord 0x24 0 f)
  | .exp2 a f => some (a, 1, vWord 0x24 1 f)
  | .log a f => some (a, 1, vWord 0x24 2 f)
  | .log2 a f => some (a, 1, vWord 0x24 3 f)
  | .rcp a f => some (a, 1, vWord 0x24 4 f)
  | .sqrt a f => some (a, 1, vWord 0x24 5 f)
  | .rsqrt a f => some (a, 1, vWord 0x24 6 f)
  | .tanh a f => some (a, 1, vWord 0x24 7 f)
  | .sigm a f => some (a, 1, vWord 0x24 8 f)
  | .erf a f => some (a, 1, vWord 0x24 9 f)
  | .sin a f => some (a, 1, vWord 0x24 10 f)
  | .cos a f => some (a, 1, vWord 0x24 11 f)
  | .mov a f => some (a, 1, vWord 0x25 0 f)
  | .perm a f => some (a, 1, vWord 0x25 1 f)
  | .bcast a f => some (a, 1, vWord 0x25 2 f)
  | .sget a f => some (a, 1, vWord 0x25 3 f)
  | .sput a f => some (a, 1, vWord 0x25 4 f)
  | .emax a f => some (a, 1, vWord 0x26 0 f)
  | .emaxl a f => some (a, 1, vWord 0x26 1 f)
  | .gadd a f => some (a, 1, vWord 0x26 2 f)
  | .gsq a f => some (a, 1, vWord 0x26 3 f)
  | .gdot a f => some (a, 1, vWord 0x26 4 f)
  | .gfold a f => some (a, 1, vWord 0x26 5 f)
  | .grnd a f => some (a, 1, vWord 0x26 6 f)
  | .gout a f => some (a, 1, vWord 0x26 7 f)
  | .gin a f => some (a, 1, vWord 0x26 8 f)
  | .fsum a f => some (a, 1, vWord 0x27 0 f)
  | .fsumsq a f => some (a, 1, vWord 0x27 1 f)
  | .fdot a f => some (a, 1, vWord 0x27 2 f)
  | .vxLdDesk a f => some (a, 1, vWord 0x28 0 f)
  | .vxLdStream a f => some (a, 1, vWord 0x28 1 f)
  | .vxStDesk a f => some (a, 1, vWord 0x29 0 f)
  | .vxStStream a f => some (a, 1, vWord 0x29 1 f)
  | .vxSideStore a f => some (a, 1, vWord 0x2A 0 f)
  | .vxSideSend a f => some (a, 1, vWord 0x2A 1 f)
  | .vxSideFoldDesk a f => some (a, 1, vWord 0x2A 2 f)
  | .vxSideFoldStream a f => some (a, 1, vWord 0x2A 3 f)
  | .tadd a f => some (a, 1, vWord 0x2B 0 f)
  | .tcvt a f => some (a, 1, vWord 0x2B 1 f)
  | .setvl a s imm => some (a, 1, packWord [(0x2C, 58), (0, 52), (s.toNat, 37), (imm.toNat, 0)])
  | .simm a s imm => some (a, 1, packWord [(0x2C, 58), (1, 52), (s.toNat, 37), (imm.toNat, 0)])
  | .mmCopyToShelf a f => some (a, 2, moveWord 0 f)
  | .mmCopyToDesk a f => some (a, 2, moveWord 1 f)
  | .tfold a f => some (a, 2, moveWord 2 f)
  | .mmSreqRead a f => some (a, 2, sreqWord 0 f)
  | .mmSreqWrite a f => some (a, 2, sreqWord 1 f)
  | .mmWait a f => some (a, 2, packWord [(0x3A, 58), (f.ctr.toNat, 56), (b2n f.consume, 55), (f.n.toNat, 0)])
  | .aput a f => some (a, 2, stashWord false f)
  | .aget a f => some (a, 2, stashWord true f)
  | .edTake a f => some (a, 2, edWord 0 false f)
  | .edTakeWait a f => some (a, 2, edWord 0 true f)
  | .edDrop a f => some (a, 2, edWord 1 false f)
  | .edOpen a f => some (a, 2, edWord 2 false f)
  | .edSeal a f => some (a, 2, edWord 3 false f)
  | .edSet a f => some (a, 2, edWord 4 false f)
  | .tsend a f => some (a, 2, txWord false f)
  | .trecv a f => some (a, 2, txWord true f)
  | _ => none

end Sys2Proof.Machine
end

