-- ==== Sys2Proof/WellFormed.lean ====
section
/-! DEFINITION. Well-formed commands: every operand names a unit the part has, and every operand a sender lays out in a packet or a
list has its length. A command out of these ranges names nothing that the spec gives the part. -/

set_option Elab.async false

namespace Sys2Proof

/-- A physical tile index (R6, R130). -/
def tileOk (t : Nat) : Bool := decide (t < 2500)
/-- A stream of a tile (R148). -/
def streamOk (q : Nat) : Bool := decide (q < 16)
/-- A near or far port (R9). -/
def portOk (l : Nat) : Bool := decide (l < 20)
/-- A lane pair of a port (R9). -/
def laneOk (n : Nat) : Bool := decide (n < 5)
/-- A link queue of a port (R130). -/
def queueOk (q : Nat) : Bool := decide (q < 192)
/-- A frame slot of a quantum (R149). -/
def slotOk (k : Nat) : Bool := decide (k < 78)
/-- A DMA channel (R312). -/
def chanOk (c : Nat) : Bool := decide (c < 512)
/-- A command ring of a host (R293). -/
def ringOk (r : Nat) : Bool := decide (r < 256)
/-- A pigeonhole (R305). -/
def holeOk (g : Nat) : Bool := decide (g < 64)
/-- A desk line and a shelf line (R118, R119). -/
def lineOk (d h : Nat) : Bool := decide (d < 16384) && decide (h < 65536)
/-- A physical stash line (R122). -/
def stashLineOk (n : Nat) : Bool := decide (n < 0x60000000)
/-- A monitor (R362). -/
def monitorOk (m : Nat) : Bool := decide (m < 6)
/-- A power stage (R387). -/
def stageOk (k : Nat) : Bool := decide (k < 8)
/-- A temperature sensor: place and index (R276, R394). -/
def sensorOk (place n : Nat) : Bool :=
  (decide (place < 4) && decide (n < 4)) || (place == 4 && n == 0) || (place == 5 && decide (n < 8))
/-- A storage connection (R327). -/
def connOk (n : Nat) : Bool := decide (n < 16)
/-- A word of the office space (R413). -/
def addrOk (a : Nat) : Bool := decide (a < 0x1000000)
/-- A reader: a monitor's number, and at least one byte (R414). -/
def readerOk (r : Reader) : Bool := monitorOk r.field && decide (r.enables ≠ 0)
/-- The outcomes of a test's items, the lanes repaired and the tiles excluded (R376). -/
def itemsOk (n : Nat) (os : List (BitVec 2)) (ls : List (Nat × Nat)) (ts : List Nat) : Bool :=
  decide (os.length ≤ n) && (ls.all fun x => portOk x.1 && laneOk x.2) && ts.all tileOk
/-- Who may send a command packet or an SPDM request (R293, R357). -/
def requesterOk (i : Issuer) : Bool := i == .hostA || i == .hostB || i == .mgmt
/-- A command packet: a sender, a ring of its port, and 56 bytes of parameters (R293, R296). -/
def packetOk (k : Packet) : Bool :=
  requesterOk k.issuer && (k.issuer == .mgmt || ringOk k.ring) && decide (k.params.length = 56)

/-- Whether every operand of a command is within its range. -/
def Instr.wf : Instr → Bool
  | .mxLdw x _ | .mxLdwCrossRead x _ | .mxRun x _ | .crossReadRun x _ | .tallyRun x _ | .mxOut x _ | .mxSideStore x _
  | .mxSideSend x _ | .mxSideFoldDesk x _ | .mxSideFoldStream x _ | .mxPsend x _ | .mxPadd x _ | .add x _ | .sub x _
  | .mul x _ | .fma x _ | .fnma x _ | .min x _ | .max x _ | .abs x _ | .neg x _ | .div x _ | .eq x _ | .ne x _
  | .lt x _ | .le x _ | .sel x _ | .iadd x _ | .isub x _ | .and x _ | .or x _ | .xor x _ | .shl x _ | .shr x _
  | .iota x _ | .fround x _ | .f2i x _ | .i2f x _ | .srnd x _ | .mxq x _ | .exp x _ | .exp2 x _ | .log x _
  | .log2 x _ | .rcp x _ | .sqrt x _ | .rsqrt x _ | .tanh x _ | .sigm x _ | .erf x _ | .sin x _ | .cos x _ | .mov x _
  | .perm x _ | .bcast x _ | .sget x _ | .sput x _ | .emax x _ | .emaxl x _ | .gadd x _ | .gsq x _ | .gdot x _
  | .gfold x _ | .grnd x _ | .gout x _ | .gin x _ | .fsum x _ | .fsumsq x _ | .fdot x _ | .vxLdDesk x _
  | .vxLdStream x _ | .vxStDesk x _ | .vxStStream x _ | .vxSideStore x _ | .vxSideSend x _ | .vxSideFoldDesk x _
  | .vxSideFoldStream x _ | .tadd x _ | .tcvt x _ | .setvl x _ _ | .simm x _ _ | .mmCopyToShelf x _
  | .mmCopyToDesk x _ | .tfold x _ | .mmSreqRead x _ | .mmSreqWrite x _ | .mmWait x _ | .aput x _ | .aget x _
  | .edTake x _ | .edTakeWait x _ | .edDrop x _ | .edOpen x _ | .edSeal x _ | .edSet x _ | .tsend x _ | .trecv x _ => tileOk x.tile
  | .stallResume x _ | .stashRequestComplete x | .tileTestDue x | .tileTestComplete x _ _ _ | .testOverdue x _ => tileOk x
  | .inject _ x _ => tileOk x
  | .identify x | .partState x | .resetPartition x | .clearRetained x | .assignPartitions x | .eraserPass x
  | .loadCampusPlan x | .rollCall x | .substitute x | .shutdown x | .powerLimit x | .lessonLoad x | .lessonStart x
  | .lessonHalt x | .lessonUnload x | .reshard x | .weightLoad x | .editionSwitch x | .editionStatus x | .setScalar x
  | .mgmtRecall x | .resume x | .preempt x | .resumePartition x | .readRing x | .readSensors x | .reportCard x
  | .debugChallenge x | .debugUnlock x | .ownerKeyBurn x | .fwWrite x | .fwActivate x | .fwStatus x | .testTile x
  | .testResults x => packetOk x
  | .dataFrameReceived x _ | .creditFrameReceived x _ | .markFrameReceived x _ | .recallNotice x _ | .hello x _
  | .verdict x _ | .pigeonholeMessageFrame ⟨_, x⟩ _ | .pigeonholeReplyFrame x _ | .nak x _ | .probe x _ | .echo x _ _
  | .linkSilenceTimeout x | .laneSwitchComplete x | .rollCallTrainTimeout x | .relayProbeComplete x _
  | .portTrained x _ => portOk x
  | .dmaCopy x _ | .dmaFill x _ | .dmaCompare x _ | .dmaFence x _ | .dmaDescriptorComplete x | .dmaHostTimeout x => chanOk x
  | .dmaChstart _ x _ | .halt _ x => chanOk x
  | .commitWrite _ x _ | .powerLimitWrite _ x _ | .registerWrite _ x _ _ => addrOk x
  | .latchedLowWordRead r x => readerOk r && addrOk x
  | .registerReadAccerr r x => readerOk r && addrOk x
  | .getVersion x _ | .getCapabilities x _ | .negotiateAlgorithms x _ | .getDigests x _ | .getCertificate x _
  | .challenge x _ | .getMeasurements x _ => requesterOk x
  | .holdoverQuantumEnd _ | .holdoverLimit _ | .recessStart _ | .agreementTimeout _ | .rebuildComplete _
  | .peerReplyTimeout _ | .rollCallComplete | .mirrorStreamComplete _ | .mirrorRefillComplete _
  | .lessonLoadComplete _ | .reshardComplete _ _ _ | .rdmaReadResponse _ _ _ _ | .weightLoadComplete _ _
  | .preemptSaveComplete _ | .fwWriteComplete _ | .fwActivateWithdraw | .fwPauseComplete | .fwConfirm | .trialTimeout
  | .commandTimeout _ | .cmdDoorbell _ _ _ | .mgmtRegisterRead _ | .mgmtRegisterWrite _ | .storageConnectionRecord _
  | .ptpSync _ | .pps | .refclkLoss | .perstAssert _ | .perstDeassert _ | .powerOn | .pinReset _ _
  | .resetRelease _ _ _ | .railsInRegulation _ | .watchdogLapse _ _ | .inputUndervoltage | .inputFault | .railFault
  | .powerInputWindow _ _ | .hostTelemetryWindow _ _ | .partitionRestoreComplete _ _ | .internalResetRelease => true
  | .meshFlitArrival t q => tileOk t && streamOk q
  | .meshCreditReturn port n q => if port then portOk n && queueOk q else tileOk n && streamOk q
  | .bell _ t _ _ _ => decide (t = 0xFFFF) || tileOk t
  | .blockReceived l r _ => portOk l && laneOk r.lane
  | .frameSlot l _ k => portOk l && slotOk k
  | .laneFailure l n => portOk l && laneOk n
  | .laneCeWindow l c => portOk l && decide (c.length = 5)
  | .laneSwitchRequest l n => portOk l && laneOk n
  | .scrubLine t d h => tileOk t && lineOk d h
  | .stashScrub n => stashLineOk n
  | .eraserPassComplete _ b => match b with | some x => decide (x.1 < 3) | none => true
  | .waveRegionCopyComplete _ t r _ => tileOk t && decide (r < 64)
  | .cmdCtail _ _ r _ => ringOk r
  | .cmdRhead _ _ r _ => ringOk r
  | .cmdRctl _ _ r _ => ringOk r
  | .claim _ f g => monitorOk f && holeOk g
  | .go _ f g => monitorOk f && holeOk g
  | .drop _ f g => monitorOk f && holeOk g
  | .take _ f g => monitorOk f && holeOk g
  | .pigeonholeTimeout g => holeOk g
  | .monitorReady m => monitorOk m
  | .monitorReadyTimeout m => monitorOk m
  | .dawnTestComplete os _ ls ts _ => itemsOk 7 os ls ts
  | .powerStageFault k _ _ => stageOk k
  | .sensorReport place n _ => sensorOk place n
  | .duskTestComplete os _ ls ts => itemsOk 4 os ls ts
  | .storageConnectionFailure n => connOk n

end Sys2Proof
end

