-- ==== Sys2Proof/Safety.lean ====
section
/-! DEFINITION. What counts as a safe state, and the terms the claims are stated in. -/

set_option Elab.async false

namespace Sys2Proof.Machine

/-! ### Safe states -/

/-- The anti-rollback counters lie within their 64 fuses (R355, R370). -/
def Fuses.legal (f : Fuses) : Bool := decide (f.svnPri ≤ 64) && decide (f.svnMon ≤ 64)

/-- What fuses can become: the counters only advance, a burnt owner digest stays, and what manufacture wrote stays (R355, R370). -/
def Fuses.Later (f g : Fuses) : Prop :=
  f.svnPri ≤ g.svnPri ∧ f.svnMon ≤ g.svnMon ∧ (∀ d, f.owner = some d → g.owner = some d) ∧
  g = { f with svnPri := g.svnPri, svnMon := g.svnMon, owner := g.owner }

/-- Desk, shelf and stash memory are in their canonical form. -/
def State.memWf (s : State) : Prop :=
  (∀ t, Memory.wf (s.tile t).desk ∧ Memory.wf (s.tile t).shelf) ∧ Memory.wf s.stash

/-! ### Tile instructions -/

/-- Tile t takes an instruction: it exists, its partition's bells run or it rebuilds, nothing fences it, and its instruction
stream is not stalled (R6, R147, R228, R265, R271). -/
def State.Ready (s : State) (t : Nat) : Prop := t < 2500 ∧ s.tileLive t = true ∧ (s.tile t).stalled = false

/-- Where a tile instruction issues; none for every other command. -/
def issueOf : Instr → Option Issue
  | .mxLdw a _ | .mxLdwCrossRead a _ | .mxRun a _ | .crossReadRun a _ | .tallyRun a _ | .mxOut a _ | .mxSideStore a _
  | .mxSideSend a _ | .mxSideFoldDesk a _ | .mxSideFoldStream a _ | .mxPsend a _ | .mxPadd a _ | .add a _ | .sub a _
  | .mul a _ | .fma a _ | .fnma a _ | .min a _ | .max a _ | .abs a _ | .neg a _ | .div a _ | .eq a _ | .ne a _
  | .lt a _ | .le a _ | .sel a _ | .iadd a _ | .isub a _ | .and a _ | .or a _ | .xor a _ | .shl a _ | .shr a _
  | .iota a _ | .fround a _ | .f2i a _ | .i2f a _ | .srnd a _ | .mxq a _ | .exp a _ | .exp2 a _ | .log a _
  | .log2 a _ | .rcp a _ | .sqrt a _ | .rsqrt a _ | .tanh a _ | .sigm a _ | .erf a _ | .sin a _ | .cos a _ | .mov a _
  | .perm a _ | .bcast a _ | .sget a _ | .sput a _ | .emax a _ | .emaxl a _ | .gadd a _ | .gsq a _ | .gdot a _
  | .gfold a _ | .grnd a _ | .gout a _ | .gin a _ | .fsum a _ | .fsumsq a _ | .fdot a _ | .vxLdDesk a _
  | .vxLdStream a _ | .vxStDesk a _ | .vxStStream a _ | .vxSideStore a _ | .vxSideSend a _ | .vxSideFoldDesk a _
  | .vxSideFoldStream a _ | .tadd a _ | .tcvt a _ | .setvl a _ _ | .simm a _ _ | .mmCopyToShelf a _
  | .mmCopyToDesk a _ | .tfold a _ | .mmSreqRead a _ | .mmSreqWrite a _ | .mmWait a _ | .aput a _ | .aget a _
  | .edTake a _ | .edTakeWait a _ | .edDrop a _ | .edOpen a _ | .edSeal a _ | .edSet a _ | .tsend a _ | .trecv a _ => some a
  | _ => none

/-- The events of several lanes together. -/
def anyFlags (xs : List VFlags) : VFlags := xs.foldl VFlags.or {}

/-- The engine once the writes of the first m iterations of a run are readable; `r` gives each iteration's writes. -/
def Engine.upTo (e : Engine) (r : Nat → List VWrite × VFlags) (m : Nat) : Engine :=
  applyWrites e ((List.range m).flatMap fun i => (r i).1)

/-- R99 of a run of n iterations whose results are readable k iterations later: iteration i reads the registers with the
results of iterations 0 to i − k. `f` is what one iteration writes and raises, `e1` the engine after it, `fl` its events. -/
def RunLaw (k n : Nat) (f : Engine → Nat → List VWrite × VFlags) (e e1 : Engine) (fl : VFlags) : Prop :=
  ∃ r : Nat → List VWrite × VFlags,
    (∀ i, i < n → r i = f (e.upTo r (i + 1 - k)) i) ∧ e1 = e.upTo r n ∧ fl = anyFlags ((List.range n).map fun i => (r i).2)

/-- What one iteration of a lane instruction writes: each active lane of vd + i takes its result (R96, R97). -/
def laneWrites (f : VArgs) (ls : List Nat) (op : Engine → Nat → Nat → LaneF) (e : Engine) (i : Nat) : List VWrite × VFlags :=
  (ls.map fun l => (f.vd.toNat + i, l, (op e i l).w), anyFlags (ls.map fun l => (op e i l).flags))

/-- A lane instruction at tile a.tile: every active lane takes `op`, nothing but the tile's V registers and TILE_VXFLAGS
changes (R96, R99, R114). -/
def LaneLaw (c : Instr) (a : Issue) (f : VArgs) (k : Nat) (op : Engine → Nat → Nat → LaneF) (s : State) : Prop :=
  let e := (s.tile a.tile).eng
  ∃ e1 fl, RunLaw k (vCount f) (laneWrites f (e.active f.mask.toNat) op) e e1 fl ∧
    exec c s = .next ((s.setEng a.tile e1).raiseVx a.tile fl)

/-- A compare at tile a.tile into mask register vd, written once an iteration (`m` lists what it holds after each): active lanes
take the
result of `op`, every other lane keeps its bit, and nothing else changes (R96, R99). Which lanes are active in iteration i the
masks say as
iterations up to i − 3 leave them. -/
def CmpLaw (c : Instr) (a : Issue) (f : VArgs) (op : FVal → FVal → Bool) (s : State) : Prop :=
  let e := (s.tile a.tile).eng
  let n := f.vd.toNat
  ∃ (m : Nat → DWord) (e1 : Engine), exec c s = .next (s.setEng a.tile e1) ∧ e1 = { e with m := e1.m } ∧
    (∀ k, e1.maskReg k = if k = n then m (vCount f) else e.maskReg k) ∧ m 0 = e.maskReg n ∧
    ∀ i l, i < vCount f → l < 64 → (m (i + 1)).getLsbD l =
      if l ∈ (e.setMask n (m (i - 2))).active f.mask.toNat then op (f32 (e.lane (f.va.toNat + i) l)) (f32 (e.opB f i l))
      else (m i).getLsbD l

/-- The value of node j at height n of the fixed tree over lanes x: neighbours added in fp32, one rounding each (R109). -/
def treeNode (x : Nat → Word) : Nat → Nat → Word
  | 0, j => x j
  | n + 1, j => (lane32 (fAddExact (f32 (treeNode x n (2 * j))) (f32 (treeNode x n (2 * j + 1))))).w

/-! ### Memory -/

/-- One byte of a tile's desk memory. -/
def State.deskAt (s : State) (t a : Nat) : Byte := Bank.byte (s.tile t).desk a
/-- One byte of a tile's shelf memory. -/
def State.shelfAt (s : State) (t a : Nat) : Byte := Bank.byte (s.tile t).shelf a
/-- One byte of a tile's desk or shelf memory. -/
def State.memAt (s : State) (t : Nat) (shelf : Bool) (a : Nat) : Byte := Bank.byte ((s.tile t).mem shelf) a

/-- What a read of `n` bytes delivers: bytes beyond the memory are 0 (R423). -/
def State.memBytes (s : State) (t : Nat) (shelf : Bool) (a n : Nat) : Bytes :=
  (List.range n).map fun i => if a + i < memSize shelf then s.memAt t shelf (a + i) else 0

/-- The number that `n` bytes of desk memory spell. -/
def State.deskNum (s : State) (t a n : Nat) : Nat := leNat (s.memBytes t false a n)

/-- Every byte of desk, shelf and stash memory reads as before. -/
def SameMem (s u : State) : Prop := (∀ t sh a, u.memAt t sh a = s.memAt t sh a) ∧ ∀ a, Bank.byte u.stash a = Bank.byte s.stash a

/-- Every byte of memory outside one tile's desk (false) or shelf (true) addresses of a set reads as before. -/
def SameMemBut (t : Nat) (sh : Bool) (p : Nat → Prop) (s u : State) : Prop :=
  (∀ t' sh' a, ¬ (t' = t ∧ sh' = sh ∧ p a) → u.memAt t' sh' a = s.memAt t' sh' a) ∧
  ∀ a, Bank.byte u.stash a = Bank.byte s.stash a

/-- Bytes a to a + n − 1. -/
def span (a n x : Nat) : Prop := a ≤ x ∧ x < a + n

/-! ### Streams -/

/-- An outbound stream of a tile takes n flits at once: it is unbound, or it has the credits, or its link queue has no frame that is
late and its gate has room for them (R150, R170). -/
def State.CanSend (s : State) (t st n : Nat) : Prop :=
  ∀ b, s.streamBind t st = some b →
    (b.toQueue = false → n ≤ Bank.get fullCredit (s.tile t).outCred st) ∧
    (b.toQueue = true → ∀ p l q port, s.tilePart t = some p → s.lesson p = some l →
      (l.queues.find? fun q => q.idx == b.bind) = some q → s.bindPort p q = some port →
      (∀ e ∈ (s.port port).late, e.q ≠ q.q) ∧
      (Bank.get noFlits (s.port port).gate q.q).length + n ≤ l.frameFlits q * Bank.get fullLink (s.port port).credits q.q)

/-- A sending instruction: after what `pre` says the flits `bs` leave on stream `st` as far as credits and room reach; where all do it
is done, else its tile's instruction stream stalls with the rest to send (R147, R150). With the credits and room for them all leave. -/
def SendLaw (i : Instr) (c : Ctx) (st : Nat) (bs : List Bytes) (pre s : State) : Prop :=
  let r := pre.drainSends c (bs.map fun b => (st, b))
  (s.CanSend c.t st bs.length → r.2 = []) ∧ (r.2 = [] → exec i s = .next r.1) ∧
  (r.2 ≠ [] → ∃ w, exec i s = .next (r.1.setTile c.t { r.1.tile c.t with
    unsent := r.2, stall := none, wait := w, memStall := memInstr i }))

/-- An instruction that reads n flits of inbound stream st: it goes on as `k` says once they have arrived, and stalls its
tile's instruction stream while they have not (R75, R101, R147). -/
def TakeLaw (i : Instr) (c : Ctx) (st n : Nat) (k : List Bytes → State → State) (s : State) : Prop :=
  (∀ fl s1, s.takeFlits c.t st n = (some fl, s1) → exec i s = .next (k fl s1)) ∧
  (∀ s1, s.takeFlits c.t st n = (none, s1) →
    ∃ w, exec i s = .next (s1.setTile c.t { s1.tile c.t with stall := some i, wait := w, memStall := memInstr i }))

/-! ### Packets and registers -/

/-- The packet of a command and its row of R301; whether the host of a closed partition may use it (R344). -/
def packetRow : Instr → Option (Packet × OpRow × Bool)
  | .identify k => some (k, ⟨0x0101, 0, true, true, false⟩, true)
  | .partState k => some (k, ⟨0x0102, 0, true, true, false⟩, true)
  | .resetPartition k => some (k, ⟨0x0110, 1, false, true, true⟩, false)
  | .clearRetained k => some (k, ⟨0x0111, 0, false, true, true⟩, false)
  | .assignPartitions k => some (k, ⟨0x0112, 2, false, true, false⟩, false)
  | .eraserPass k => some (k, ⟨0x0113, 1, false, true, true⟩, false)
  | .loadCampusPlan k => some (k, ⟨0x0114, 12, false, true, true⟩, false)
  | .rollCall k => some (k, ⟨0x0115, 4, false, true, true⟩, false)
  | .substitute k => some (k, ⟨0x0116, 1, false, true, true⟩, false)
  | .shutdown k => some (k, ⟨0x0117, 0, false, true, true⟩, false)
  | .powerLimit k => some (k, ⟨0x0118, 2, false, true, false⟩, false)
  | .lessonLoad k => some (k, ⟨0x0201, 17, true, false, true⟩, false)
  | .lessonStart k => some (k, ⟨0x0202, 8, true, false, false⟩, false)
  | .lessonHalt k => some (k, ⟨0x0203, 0, true, true, true⟩, false)
  | .lessonUnload k => some (k, ⟨0x0204, 0, true, false, false⟩, false)
  | .reshard k => some (k, ⟨0x0205, 16, true, false, true⟩, false)
  | .weightLoad k => some (k, ⟨0x0301, 24, true, false, true⟩, false)
  | .editionSwitch k => some (k, ⟨0x0302, 4, true, false, false⟩, false)
  | .editionStatus k => some (k, ⟨0x0303, 0, true, false, false⟩, false)
  | .setScalar k => some (k, ⟨0x0401, 16, true, false, false⟩, false)
  | .mgmtRecall k => some (k, ⟨0x0402, 1, false, true, true⟩, false)
  | .resume k => some (k, ⟨0x0403, 0, false, true, false⟩, false)
  | .preempt k => some (k, ⟨0x0404, 1, false, true, true⟩, false)
  | .resumePartition k => some (k, ⟨0x0405, 1, false, true, true⟩, false)
  | .readRing k => some (k, ⟨0x0501, 24, true, true, true⟩, false)
  | .readSensors k => some (k, ⟨0x0502, 0, true, true, false⟩, false)
  | .reportCard k => some (k, ⟨0x0601, 40, true, true, true⟩, true)
  | .debugChallenge k => some (k, ⟨0x0602, 0, false, true, false⟩, false)
  | .debugUnlock k => some (k, ⟨0x0603, 56, false, true, true⟩, false)
  | .ownerKeyBurn k => some (k, ⟨0x0604, 48, false, true, true⟩, false)
  | .fwWrite k => some (k, ⟨0x0701, 16, false, true, true⟩, false)
  | .fwActivate k => some (k, ⟨0x0702, 16, false, true, true⟩, false)
  | .fwStatus k => some (k, ⟨0x0703, 0, true, true, false⟩, false)
  | .testTile k => some (k, ⟨0x0801, 3, false, true, true⟩, false)
  | .testResults k => some (k, ⟨0x0802, 0, false, true, false⟩, false)
  | _ => none

/-- The part takes a command's packet, which passes checks 1 to 4 of R298, and the issuer's partition is not closed to it. -/
def State.Runs (s : State) (c : Instr) : Prop :=
  ∃ k r x, packetRow c = some (k, r, x) ∧ s.takes k = true ∧ pktCheck k r = none ∧
    (x = true ∨ ∀ h, pktHost k = some h → s.openTo h = true)

/-- An access of an issuer reaches the register r: its path is served, it is not foreign, and the window it lies in is available
(R350, R374, R401, R416 to R419). -/
def State.Reaches (s : State) (who : Issuer) (r : Reg) (write : Bool) : Prop :=
  s.served who = true ∧ s.foreign who r.addr write = false ∧ regAt r.addr = some r ∧
  ∀ t, windowAt r.addr = some t → s.winBusy t = false

end Sys2Proof.Machine
end

