-- ==== Sys2Proof/Certificates/Slice0/Obligations.lean ====
section
/-! DEFINITION. The statements for the provers, one definition each: the step, tile instructions by pipe, links and bells,
commands of the hosts and of management, starts, and what holds of the part as a whole. -/

open Sys2Proof Sys2Proof.Machine

/-- Every command is taken from the front of the queue, and runs with the queue's rest. The model's choice (log entry 1): on an empty
queue the part idles. -/
def Obligations.StepRunsFrontCommand : Prop :=
  (∀ (c : Instr) (rest : List Instr) (s : State), s.pending = c :: rest → step s = exec c { s with pending := rest }) ∧
  (∀ s : State, s.pending = [] → step s = .next s)

/-- R6, R97, R147, R265: when a tile instruction does not take effect at once. Choices of the model in it, where the spec leaves a
point open: log entries 12, 13. -/
def Obligations.TileInstructionGate : Prop :=
  ∀ (c : Instr) (a : Issue) (s : State), issueOf c = some a →
    (2500 ≤ a.tile → exec c s = .fault .noSuchUnit) ∧
    (a.tile < 2500 → wordOk c = false → exec c s = .refused .wordRejected) ∧
    (a.tile < 2500 → wordOk c = true → s.tileLive a.tile = false → exec c s = .next s) ∧
    (a.tile < 2500 → wordOk c = true → s.tileLive a.tile = true → (s.tile a.tile).stalled = true →
      exec c s = .next (s.setTile a.tile { s.tile a.tile with held := (s.tile a.tile).held ++ [c] }))

/-- VX.FP: the ten arithmetic functions, exact and rounded once. VX.TR: the twelve functions. Choices of the model in it, where the
spec leaves a point open: log entries 10, 15. -/
def Obligations.VectorFloatArithmetic : Prop :=
  (∀ (a : Issue) (f : VArgs) (s : State), s.Ready a.tile → fpOk f = true →
    let x := fun (e : Engine) (i l : Nat) => f32 (e.lane (f.va.toNat + i) l)
    let y := fun (e : Engine) (i l : Nat) => f32 (e.opB f i l)
    let d := fun (e : Engine) (i l : Nat) => f32 (e.lane (f.vd.toNat + i) l)
    LaneLaw (.add a f) a f 4 (fun e i l => lane32 (fAddExact (x e i l) (y e i l))) s ∧
    LaneLaw (.sub a f) a f 4 (fun e i l => lane32 (fAddExact (x e i l) (y e i l).negate)) s ∧
    LaneLaw (.mul a f) a f 4 (fun e i l => lane32 (fMulExact (x e i l) (y e i l))) s ∧
    LaneLaw (.fma a f) a f 5 (fun e i l => lane32 (fAddExact (fMulExact (x e i l) (y e i l)) (d e i l))) s ∧
    LaneLaw (.fnma a f) a f 5 (fun e i l => lane32 (fAddExact (fMulExact (x e i l).negate (y e i l)) (d e i l))) s ∧
    LaneLaw (.min a f) a f 4 (fun e i l => lane32 (fMin (x e i l) (y e i l))) s ∧
    LaneLaw (.max a f) a f 4 (fun e i l => lane32 (fMax (x e i l) (y e i l))) s ∧
    LaneLaw (.div a f) a f (readDist (trOcc (s.tile a.tile).eng.vl.toNat) 14)
      (fun e i l => divLane (e.lane (f.va.toNat + i) l) (e.opB f i l)) s) ∧
  (∀ (a : Issue) (f : VArgs) (s : State), s.Ready a.tile → unOk f = true →
    LaneLaw (.abs a f) a f 4 (fun e i l => lane32 (fAbs (f32 (e.lane (f.va.toNat + i) l)))) s ∧
    LaneLaw (.neg a f) a f 4 (fun e i l => lane32 (f32 (e.lane (f.va.toNat + i) l)).negate) s) ∧
  (∀ (a : Issue) (f : VArgs) (s : State), s.Ready a.tile → trOk f = true →
    let law := fun (c : Instr) (fn : TrFn) =>
      LaneLaw c a f (readDist (trOcc (s.tile a.tile).eng.vl.toNat) 14) (fun e i l => trLane fn (e.lane (f.va.toNat + i) l)) s
    law (.exp a f) .exp ∧ law (.exp2 a f) .exp2 ∧ law (.log a f) .log ∧ law (.log2 a f) .log2 ∧ law (.rcp a f) .rcp ∧
    law (.sqrt a f) .sqrt ∧ law (.rsqrt a f) .rsqrt ∧ law (.tanh a f) .tanh ∧ law (.sigm a f) .sigm ∧ law (.erf a f) .erf ∧
    law (.sin a f) .sin ∧ law (.cos a f) .cos)

/-- VX.INT, MOV and BCAST: 32-bit lanes. VX.CVT but MXQ. -/
def Obligations.VectorIntegerAndConversion : Prop :=
  (∀ (a : Issue) (f : VArgs) (s : State), s.Ready a.tile →
    let x := fun (e : Engine) (i l : Nat) => e.lane (f.va.toNat + i) l
    let y := fun (e : Engine) (i l : Nat) => e.opB f i l
    (intOk f = true →
      LaneLaw (.iadd a f) a f 3 (fun e i l => laneW (x e i l + y e i l)) s ∧
      LaneLaw (.isub a f) a f 3 (fun e i l => laneW (x e i l - y e i l)) s ∧
      LaneLaw (.and a f) a f 3 (fun e i l => laneW (x e i l &&& y e i l)) s ∧
      LaneLaw (.or a f) a f 3 (fun e i l => laneW (x e i l ||| y e i l)) s ∧
      LaneLaw (.xor a f) a f 3 (fun e i l => laneW (x e i l ^^^ y e i l)) s ∧
      LaneLaw (.shl a f) a f 3 (fun e i l => laneW (x e i l <<< ((y e i l).toNat % 32))) s ∧
      LaneLaw (.shr a f) a f 3 (fun e i l => laneW (x e i l >>> ((y e i l).toNat % 32))) s) ∧
    (wordOk (.iota a f) = true → LaneLaw (.iota a f) a f 3 (fun _ _ l => laneW (BitVec.ofNat 32 (l + f.g.toNat))) s) ∧
    (wordOk (.mov a f) = true → LaneLaw (.mov a f) a f 3 (fun e i l => laneW (x e i l)) s) ∧
    (wordOk (.bcast a f) = true → LaneLaw (.bcast a f) a f 3 (fun e i _ => laneW (e.lane (f.va.toNat + i) f.g.toNat)) s)) ∧
  (∀ (a : Issue) (f : VArgs) (s : State), s.Ready a.tile →
    let x := fun (e : Engine) (i l : Nat) => e.lane (f.va.toNat + i) l
    (wordOk (.fround a f) = true → LaneLaw (.fround a f) a f 4 (fun e i l => froundLane (bits f.g.toNat 20 18) (x e i l)) s) ∧
    (wordOk (.f2i a f) = true → LaneLaw (.f2i a f) a f 4 (fun e i l => f2iLane (x e i l)) s) ∧
    (wordOk (.i2f a f) = true → LaneLaw (.i2f a f) a f 4 (fun e i l => lane32 (ofInt (x e i l).toInt)) s) ∧
    (wordOk (.srnd a f) = true → ∀ p, s.tilePart a.tile = some p →
      LaneLaw (.srnd a f) a f 6 (fun e i l =>
        srndLane (srndR (s.reg64 (.checkSeedLo p) (.checkSeedHi p)) (if s.rebuilding p then s.cstep64 p else s.step64 p)
          (f.g.toNat % 65536) ((e.scalar 13).toNat % 65536 * 2 ^ 32 + (e.opB f i l).toNat)) (x e i l)) s))

/-- VX.CMP, a run of one register or more. SEL and PERM. Choices of the model in it, where the spec leaves a point open: log entry
15. -/
def Obligations.VectorComparesAndPermutes : Prop :=
  (∀ (a : Issue) (f : VArgs) (s : State), s.Ready a.tile → cmpOk f = true →
    CmpLaw (.eq a f) a f fEq s ∧ CmpLaw (.ne a f) a f (fun x y => !fEq x y) s ∧ CmpLaw (.lt a f) a f fLt s ∧
    CmpLaw (.le a f) a f (fun x y => fLt x y || fEq x y) s) ∧
  (∀ (a : Issue) (f : VArgs) (s : State), s.Ready a.tile →
    let e := (s.tile a.tile).eng
    let ls := e.active f.mask.toNat
    (wordOk (.sel a f) = true → ∃ e1,
      RunLaw 3 (vCount f) (fun e i => ((List.range e.vl.toNat).map fun l =>
        (f.vd.toNat + i, l, if (e.maskReg f.mask.toNat).getLsbD l then e.lane (f.va.toNat + i) l else e.opB f i l), {})) e e1 {} ∧
      exec (.sel a f) s = .next (s.setEng a.tile e1)) ∧
    (wordOk (.perm a f) = true → ∃ e1 fl,
      RunLaw 3 (vCount f) (fun e i =>
        (ls.map fun l => (f.vd.toNat + i, l,
          if (e.opB f i l).toNat < e.vl.toNat then e.lane (f.va.toNat + i) (e.opB f i l).toNat else 0),
         { lr := (ls.filter fun l => decide (e.vl.toNat ≤ (e.opB f i l).toNat)).length })) e e1 fl ∧
      exec (.perm a f) s = .next (((s.setEng a.tile e1).raiseVx a.tile fl).countTile a.tile
        ((e.scalar 12).toNat % 65536) (List.replicate fl.lr { lr := true }))))

/-- SGET, SPUT, SETVL and SIMM. EMAX and EMAXL. Choices of the model in it, where the spec leaves a point open: log entries 15,
122. -/
def Obligations.VectorScalarsAndCodes : Prop :=
  (∀ (a : Issue) (f : VArgs) (n : BitVec 4) (imm : BitVec 32) (s : State), s.Ready a.tile →
    let e := (s.tile a.tile).eng
    let on := f.g.toNat ∈ e.active f.mask.toNat
    (wordOk (.sget a f) = true →
      (on → ∃ e1, exec (.sget a f) s = .next (s.setEng a.tile e1) ∧ e1 = { e with s := e1.s } ∧
        ∀ k, e1.scalar k = if f.vd.toNat % 16 ≤ k ∧ k ≤ f.vd.toNat % 16 + f.cnt.toNat
          then e.lane (f.va.toNat + (k - f.vd.toNat % 16)) f.g.toNat else e.scalar k) ∧
      (¬ on → exec (.sget a f) s = .next s)) ∧
    (wordOk (.sput a f) = true →
      (on → ∃ e1, exec (.sput a f) s = .next (s.setEng a.tile e1) ∧ e1 = { e with v := e1.v } ∧
        ∀ v l, l < 64 → e1.lane v l = if l = f.g.toNat ∧ f.vd.toNat ≤ v ∧ v ≤ f.vd.toNat + f.cnt.toNat
          then e.scalar (f.va.toNat % 16 + (v - f.vd.toNat)) else e.lane v l) ∧
      (¬ on → exec (.sput a f) s = .next s)) ∧
    (imm.toNat ≤ 64 → n = 0 → exec (.setvl a n imm) s = .next (s.setEng a.tile { e with vl := imm.truncate 7 })) ∧
    (exec (.simm a n imm) s = .next (s.setEng a.tile (e.setScalar n.toNat imm)))) ∧
  (∀ (a : Issue) (f : VArgs) (s : State), s.Ready a.tile → (s.tile a.tile).eng.vl.toNat ≤ 64 →
    let e := (s.tile a.tile).eng
    let ls := e.active f.mask.toNat
    (wordOk (.emax a f) = true → ∃ e1, exec (.emax a f) s = .next (s.setEng a.tile e1) ∧ e1 = { e with vs := e1.vs } ∧
      ∀ n l, l < 64 → e1.side n l = if n = gSel f ∧ l ∈ ls
        then (if gFold f then Nat.max (e.side n l) (laneMax e f l) else laneMax e f l) else e.side n l) ∧
    (wordOk (.emaxl a f) = true → ∃ e1, exec (.emaxl a f) s = .next (s.setEng a.tile e1) ∧ e1 = { e with s := e1.s } ∧
      ∀ n, e1.scalar n = if n = f.vd.toNat % 16 ∧ e.vl ≠ 0
        then setFld (e.scalar n) 7 0 (ls.foldl (fun m l => Nat.max m (laneMax e f l)) 0) else e.scalar n))

/-- VX.TREE: the result is the root of the fixed tree over the 64 lanes, inactive lanes +0. Choices of the model in it, where the
spec leaves a point open: log entry 122. -/
def Obligations.VectorTreeSums : Prop :=
  (∀ x : Nat → Word, (treeSum 6 ((List.range 64).map x)).1 = treeNode x 6 0) ∧
  ∀ (a : Issue) (f : VArgs) (s : State), s.Ready a.tile →
    let e := (s.tile a.tile).eng
    let law := fun (c : Instr) (op : Engine → Nat → Nat → LaneF) => wordOk c = true →
      (e.vl = 0 → exec c s = .next s) ∧
      (e.vl ≠ 0 → ∃ e1 fl, exec c s = .next ((s.setEng a.tile e1).raiseVx a.tile fl) ∧
        RunLaw 10 (vCount f) (fun e i =>
          let ls := (List.range 64).map fun l => if l ∈ e.active f.mask.toNat then op e i l else laneW 0
          ([(f.vd.toNat + i, 0, (treeSum 6 (ls.map (·.w))).1)],
           (anyFlags (ls.map (·.flags))).or (treeSum 6 (ls.map (·.w))).2)) e e1 fl)
    law (.fsum a f) (fun e i l => laneW (e.lane (f.va.toNat + i) l)) ∧
    law (.fsumsq a f) (fun e i l => lane32 (fMulExact (f32 (e.lane (f.va.toNat + i) l)) (f32 (e.lane (f.va.toNat + i) l)))) ∧
    law (.fdot a f) (fun e i l => lane32 (fMulExact (f32 (e.lane (f.va.toNat + i) l)) (f32 (e.opB f i l))))

/-- GADD, GSQ and GDOT: which grid lanes change, and to what, and the clamps that count. GFOLD over recorded lanes of one pair of
codes, and GRND. R51, R107: a grid lane started on an anchor z holds the exact sum of its terms, each cut to units of 2^(z − 78).
Choices of the model in it, where the spec leaves a point open: log entries 23, 106, 123. -/
def Obligations.VectorGridSumsAndFolds : Prop :=
  (∀ (a : Issue) (f : VArgs) (s : State), s.Ready a.tile → (s.tile a.tile).eng.vl.toNat ≤ 64 →
    let e := (s.tile a.tile).eng
    let ls := e.active f.mask.toNat
    let law := fun (c : Instr) (fn : Nat) => wordOk c = true → ∃ e1 fs,
      let n := (ls.map fun l => (gridLane f e fn l []).2.1).sum
      exec c s = .next ((((s.setEng a.tile e1).raiseVx a.tile { clamp := decide (0 < n) }).countTile a.tile
        ((e.scalar 12).toNat % 65536) (if n = 0 then [] else [{ sat := n }])).gridFails (s.ctx a (opBytes 0x26 fn 1)) fs) ∧
      ((∀ l ∈ ls, (gridLane f e fn l []).2.2 = []) → fs = []) ∧ e1 = { e with q := e1.q } ∧
      ∀ q l, l < 64 → e1.grid q l = if q = gDst f ∧ l ∈ ls then (gridLane f e fn l []).1 else e.grid q l
    law (.gadd a f) 2 ∧ law (.gsq a f) 3 ∧ law (.gdot a f) 4) ∧
  (∀ (a : Issue) (f : VArgs) (s : State), s.Ready a.tile →
    let e := (s.tile a.tile).eng
    let ls := e.active f.mask.toNat
    (wordOk (.gfold a f) = true → ∀ ca cb, ls ≠ [] → gStart f = true →
      (∀ l ∈ ls, (e.grid (gSrc f) l).rcd = true ∧ (e.grid (gSrc f) l).ca = ca ∧ (e.grid (gSrc f) l).cb = cb) →
      ∃ g : GLane, exec (.gfold a f) s = .next (s.setEng a.tile (e.setGrid (gDst f) 0 g)) ∧ g.ca = ca ∧ g.cb = cb ∧
        g.rcd = true ∧ g.chunk = 0 ∧ g.terms = 0 ∧ g.nonfin = (ls.any fun l => (e.grid (gSrc f) l).nonfin) ∧
        g.total = ls.foldl (fun t l => t + (e.grid (gSrc f) l).closed.total) 0) ∧
    (wordOk (.gfold a f) = true → ls = [] → exec (.gfold a f) s = .next (s.setEng a.tile e)) ∧
    (wordOk (.grnd a f) = true → ∃ e1 fl,
      RunLaw 10 (vCount f) (laneWrites f ls fun e _ l => grndLane (gScale f) (e.grid (gSrc f) l)) e e1 fl ∧
      exec (.grnd a f) s = .next (((s.setEng a.tile e1).raiseVx a.tile fl).gridFails (s.ctx a (opBytes 0x26 6 1))
        (unrecorded e (gSrc f) ls)))) ∧
  (∀ (f : VArgs) (e : Engine) (fn l : Nat) (z : Int) (m x : Nat → Int), (fn = 2 ∨ fn = 3 ∨ fn = 4) → gStart f = true →
    anchorOf (gridCodes f e fn l).1 (gridCodes f e fn l).2 = some z →
    (∀ i, i < vCount f → (gridTerm f e fn i l).opnd = some (m i, x i) ∧
      (m i).natAbs * 2 ^ (x i - (z - 78)).toNat / 2 ^ (-(x i - (z - 78))).toNat < 2 ^ (if fn = 2 then 79 else 80)) →
    let g := (gridLane f e fn l []).1
    g.sum = ((List.range (vCount f)).map fun i => floorShift (m i) (x i - (z - 78))).sum ∧ g.nonfin = false ∧
    g.ca = (gridCodes f e fn l).1 ∧ g.cb = (gridCodes f e fn l).2 ∧ (gridLane f e fn l []).2 = (0, []))

/-- What every step keeps of desk, shelf and stash memory: the canonical form, addresses rising and nothing listed that an unlisted
address reads as. -/
def Obligations.MemoriesStayCanonical : Prop :=
  ∀ s t : State, step s = .next t → s.memWf → s.tiles.Pairwise (fun x y => x.1 < y.1) →
    t.memWf ∧ t.tiles.Pairwise (fun x y => x.1 < y.1)

/-- R150, R424, R429: flits sent on an outbound stream. R429: a flit sent on a stream that no binding names is discarded, and the
tile's mark is bad with cause bit 3. R148, R150, R424: flits read from an inbound stream leave its buffer, and each returns one
credit to its sender. -/
def Obligations.TileStreams : Prop :=
  (∀ (s : State) (c : Ctx) (st : Nat) (bs : List Bytes) (b : StreamBind) (p : Bool) (l : Lesson),
    s.streamBind c.t st = some b → s.tilePart c.t = some p → s.lesson p = some l →
    let fs := bs.map fun x => (st, x)
    let flits := bs.map fun x => (⟨x, tileSender c.t st⟩ : Flit)
    (∀ d, b.toQueue = false → s.physTile l.cols b.dRow b.dCol = some d →
      let cr := Bank.get fullCredit (s.tile c.t).outCred st
      (bs.length ≤ cr → ∃ u, s.drainSends c fs = (u, []) ∧ u.mesh = s.mesh ++ flits.map (fun x => (d, b.dStream, x)) ∧
        Bank.get fullCredit (u.tile c.t).outCred st = cr - bs.length ∧ SameMem s u) ∧
      (cr < bs.length → ∃ u, s.drainSends c fs = (u, fs.drop cr) ∧
        u.mesh = s.mesh ++ (flits.take cr).map (fun x => (d, b.dStream, x)) ∧ SameMem s u)) ∧
    (∀ q port, b.toQueue = true → (l.queues.find? fun q => q.idx == b.bind) = some q → s.bindPort p q = some port →
      (∀ e ∈ (s.port port).late, e.q ≠ q.q) →
      let at_ := Bank.get noFlits (s.port port).gate q.q
      let room := l.frameFlits q * Bank.get fullLink (s.port port).credits q.q - at_.length
      ∃ u, s.drainSends c fs = (u, fs.drop room) ∧ u.mesh = s.mesh ∧ u.tiles = s.tiles ∧
        Bank.get noFlits (u.port port).gate q.q = at_ ++ flits.take room)) ∧
  (∀ (s : State) (c : Ctx) (st : Nat) (b : Bytes), s.streamBind c.t st = none →
    ∃ u, s.drainSends c [(st, b)] = (u, []) ∧ u.mesh = s.mesh ∧ u.ports = s.ports ∧ SameMem s u ∧
      (u.tile c.t).causes = (s.tile c.t).causes ||| 8) ∧
  (∀ (s : State) (t st n : Nat), (s.tile t).got = [] →
    let buf := Bank.get (fun _ => []) (s.tile t).inb st
    (n ≤ buf.length → ∃ u, s.takeFlits t st n = (some ((buf.take n).map (·.data)), u) ∧
      Bank.get (fun _ => []) (u.tile t).inb st = buf.drop n ∧ (u.tile t).got = [] ∧
      (∀ k, Bank.get (fun _ => 0) u.meshCred k =
        Bank.get (fun _ => 0) s.meshCred k + ((buf.take n).filter fun f => f.sender == k).length) ∧
      SameMem s u ∧ u.office = s.office) ∧
    (buf.length < n → (s.takeFlits t st n).1 = none))

/-- GOUT and GIN. VX.LD and VX.ST on mesh streams. Choices of the model in it, where the spec leaves a point open: log entries
106, 128. -/
def Obligations.VectorRecordsAndStreams : Prop :=
  (∀ (a : Issue) (f : VArgs) (s : State), s.Ready a.tile → (s.tile a.tile).eng.vl.toNat ≤ 64 →
    let e := (s.tile a.tile).eng
    let ls := e.active f.mask.toNat
    (wordOk (.gout a f) = true → ∃ e1, e1 = { e with q := e1.q } ∧
      (∀ q l, l < 64 → e1.grid q l = if q = gSrc f ∧ l ∈ ls then (e.grid q l).closed else e.grid q l) ∧
      SendLaw (.gout a f) (s.ctx a (opBytes 0x26 7 1)) (gStream f)
        ((List.range 18).map fun i => ((gridRecord e (gSrc f) ls).drop (64 * i)).take 64)
        ((s.setEng a.tile e1).gridFails (s.ctx a (opBytes 0x26 7 1)) (unrecorded e (gSrc f) ls)) s) ∧
    (wordOk (.gin a f) = true → ∃ k : List Bytes → State → State, TakeLaw (.gin a f) (s.ctx a (opBytes 0x26 8 1)) (gStream f) 18 k s ∧
      ∀ fl s1, s.takeFlits a.tile (gStream f) 18 = (some fl, s1) → ∀ q l, l < 64 →
        let b := fl.flatten
        (((k fl s1).tile a.tile).eng).grid q l = if q = gDst f ∧ l ∈ ls
          then (ginLane (e.grid q l) (gStart f) (BitVec.ofNat 128 (field b (16 * l) 16)) (BitVec.ofNat 8 (field b (1024 + 2 * l) 1))
            (BitVec.ofNat 8 (field b (1025 + 2 * l) 1)) l []).1
          else e.grid q l)) ∧
  (∀ (a : Issue) (f : VArgs) (s : State), s.Ready a.tile →
    let e := (s.tile a.tile).eng
    let ls := e.active f.mask.toNat
    let n := mBytes (mFmt f)
    (wordOk (.vxLdStream a f) = true → e.vl.toNat ≤ 64 → ∃ k : List Bytes → State → State,
      TakeLaw (.vxLdStream a f) (s.ctx a (opBytes 0x28 1 1)) (mStream f) (n * vCount f) k s ∧
      ∀ fl s1, s.takeFlits a.tile (mStream f) (n * vCount f) = (some fl, s1) → ∀ v l, l < 64 →
        (((k fl s1).tile a.tile).eng).lane v l = if f.vd.toNat ≤ v ∧ v ≤ f.vd.toNat + f.cnt.toNat ∧ l ∈ ls
          then (loadEl (mFmt f) (field fl.flatten (64 * n * (v - f.vd.toNat) + n * l) n)).w else e.lane v l) ∧
    (wordOk (.vxStStream a f) = true →
      let rows := (List.range (vCount f)).map fun i => storeLanes e f i ls
      SendLaw (.vxStStream a f) (s.ctx a (opBytes 0x29 1 1)) (mStream f)
        ((List.range (vCount f)).flatMap fun i => flitsOf ((List.range 64).flatMap fun l =>
          if l ∈ ls then toLE n (storeEl (mFmt f) (e.lane (f.va.toNat + i) l)).v else toLE n 0))
        (s.storeCounts a.tile rows.flatten) s))

/-- VX.LD from desk memory. VX.ST to desk memory: the bytes of the elements in range, and no other byte. -/
def Obligations.VectorLoadsAndStores : Prop :=
  (∀ (a : Issue) (f : VArgs) (s : State), s.Ready a.tile → (s.tile a.tile).eng.vl.toNat ≤ 64 → wordOk (.vxLdDesk a f) = true →
    let e := (s.tile a.tile).eng
    let ls := e.active f.mask.toNat
    ∃ u, exec (.vxLdDesk a f) s = .next u ∧ SameMem s u ∧ (u.tile a.tile).eng = { e with v := (u.tile a.tile).eng.v } ∧
      ∀ v l, l < 64 → (u.tile a.tile).eng.lane v l = if f.vd.toNat ≤ v ∧ v ≤ f.vd.toNat + f.cnt.toNat ∧ l ∈ ls
        then (loadEl (mFmt f) (s.deskNum a.tile (elAddr f (v - f.vd.toNat) l) (mBytes (mFmt f)))).w else e.lane v l) ∧
  (∀ (a : Issue) (f : VArgs) (s : State), s.Ready a.tile → (s.tile a.tile).eng.vl.toNat ≤ 64 → wordOk (.vxStDesk a f) = true →
    let e := (s.tile a.tile).eng
    let ls := e.active f.mask.toNat
    let n := mBytes (mFmt f)
    ∃ u, exec (.vxStDesk a f) s = .next u ∧
      SameMemBut a.tile false (fun x => ∃ i l, i < vCount f ∧ l ∈ ls ∧ span (elAddr f i l) n x) s u ∧
      (∀ i l j, i < vCount f → l ∈ ls → j < n → elAddr f i l + j < 0x100000 →
        u.deskAt a.tile (elAddr f i l + j) = (toLE n (storeEl (mFmt f) (e.lane (f.va.toNat + i) l)).v).getD j 0) ∧
      (u.tile a.tile).eng = { e with vs := (u.tile a.tile).eng.vs } ∧
      ∀ k l, l < 64 → (u.tile a.tile).eng.side k l =
        if mSide f ≠ 0 ∧ k = mSel f ∧ l ∈ ls
        then (let m := (List.range (vCount f)).foldl
                (fun m i => Nat.max m (storeEl (mFmt f) (e.lane (f.va.toNat + i) l)).code) 0
              if mSide f = 2 then Nat.max (e.side k l) m else m)
        else e.side k l)

/-- Frame of the vector instructions that write registers alone: one tile's engine and its TILE_VXFLAGS change; by PERM, the watch's
count of the tensor in s12 too (R110), or WATCH_STAT where no such tensor is declared. -/
def Obligations.VectorRegisterFrame : Prop :=
  (∀ (c : Instr) (a : Issue) (f : VArgs) (s u : State), s.Ready a.tile → exec c s = .next u →
    c ∈ [Instr.add a f, .sub a f, .mul a f, .fma a f, .fnma a f, .min a f, .max a f, .abs a f, .neg a f, .div a f, .eq a f,
      .ne a f, .lt a f, .le a f, .sel a f, .iadd a f, .isub a f, .and a f, .or a f, .xor a f, .shl a f, .shr a f, .iota a f,
      .fround a f, .f2i a f, .i2f a f, .srnd a f, .exp a f, .exp2 a f, .log a f, .log2 a f, .rcp a f, .sqrt a f, .rsqrt a f,
      .tanh a f, .sigm a f, .erf a f, .sin a f, .cos a f, .mov a f, .bcast a f, .sget a f, .sput a f, .emax a f, .emaxl a f,
      .fsum a f, .fsumsq a f, .fdot a f] →
    u = { s with tiles := u.tiles, office := u.office } ∧ (∀ t, t ≠ a.tile → u.tile t = s.tile t) ∧
    u.tile a.tile = { s.tile a.tile with eng := (u.tile a.tile).eng } ∧
    ((u.tile a.tile).eng.vl = (s.tile a.tile).eng.vl ∧ (u.tile a.tile).eng.q = (s.tile a.tile).eng.q) ∧
    ∀ k, k ≠ (Reg.tileVxflags a.tile).addr → u.word k = s.word k) ∧
  (∀ (a : Issue) (f : VArgs) (s u : State), s.Ready a.tile → exec (.perm a f) s = .next u →
    u = { s with tiles := u.tiles, office := u.office, part0 := u.part0, part1 := u.part1 } ∧
    (∀ t, t ≠ a.tile → u.tile t = s.tile t) ∧ u.tile a.tile = { s.tile a.tile with eng := (u.tile a.tile).eng } ∧
    ((u.tile a.tile).eng.vl = (s.tile a.tile).eng.vl ∧ (u.tile a.tile).eng.q = (s.tile a.tile).eng.q) ∧
    (∀ p, u.part p = { s.part p with watch := (u.part p).watch } ∧ (s.tilePart a.tile ≠ some p → u.part p = s.part p) ∧
      ∀ key, key ≠ watchKey (s.step64 p) (((s.tile a.tile).eng.scalar 12).toNat % 65536) →
        Bank.get noCounts (u.part p).watch key = Bank.get noCounts (s.part p).watch key) ∧
    ∀ k, k ≠ (Reg.tileVxflags a.tile).addr → (∀ p, s.tilePart a.tile = some p → k ≠ (Reg.watchStat p).addr) →
      u.word k = s.word k)

/-- MX.SIDE on desk memory. MX.SIDE on mesh streams. VX.SIDE in its four forms. Choices of the model in it, where the spec leaves a
point open: log entry 14. -/
def Obligations.SidecarMoves : Prop :=
  (∀ (a : Issue) (f : SideArgs) (s : State), s.Ready a.tile →
    let arr := (s.tile a.tile).arr
    let n := f.len.toNat + 1
    (∃ u, exec (.mxSideStore a f) s = .next u ∧ SameMemBut a.tile false (span f.addr.toNat n) s u ∧
      (u.tile a.tile).arr = arr ∧ ∀ j, j < n → f.addr.toNat + j < 0x100000 →
        u.deskAt a.tile (f.addr.toNat + j) = Bank.byte (arr.grp f.grp).side j) ∧
    (∃ u, exec (.mxSideFoldDesk a f) s = .next u ∧ SameMem s u ∧
      ∀ g r, ((u.tile a.tile).arr.grp g).elems = (arr.grp g).elems ∧ ((u.tile a.tile).arr.grp g).sideAt r =
        if g = f.grp ∧ r < n then Nat.max ((arr.grp g).sideAt r) (s.deskNum a.tile (f.addr.toNat + r) 1)
        else (arr.grp g).sideAt r)) ∧
  (∀ (a : Issue) (f : SideArgs) (s : State), s.Ready a.tile →
    let arr := (s.tile a.tile).arr
    let n := f.len.toNat + 1
    SendLaw (.mxSideSend a f) (s.ctx a (opBytes 0x33 1 0)) (f.addr.toNat % 16) [padTo 64 ((arr.grp f.grp).sideBytes n)] s s ∧
    ∃ k : List Bytes → State → State, TakeLaw (.mxSideFoldStream a f) (s.ctx a (opBytes 0x33 3 0)) (f.addr.toNat % 16) 1 k s ∧
      ∀ fl s1, s.takeFlits a.tile (f.addr.toNat % 16) 1 = (some fl, s1) → SameMem s (k fl s1) ∧
        ∀ g r, (((k fl s1).tile a.tile).arr.grp g).sideAt r =
          if g = f.grp ∧ r < n ∧ r < fl.flatten.length then Nat.max ((arr.grp g).sideAt r) (fl.flatten.getD r 0).toNat
          else (arr.grp g).sideAt r) ∧
  (∀ (a : Issue) (f : VArgs) (s : State), s.Ready a.tile → sideOk f = true →
    let e := (s.tile a.tile).eng
    let n := sideSel f
    (∃ u, exec (.vxSideStore a f) s = .next u ∧ SameMemBut a.tile false (span (mAddr f) 64) s u ∧ (u.tile a.tile).eng = e ∧
      ∀ j, j < 64 → u.deskAt a.tile (mAddr f + j) = Bank.byte e.vs (64 * n + j)) ∧
    SendLaw (.vxSideSend a f) (s.ctx a (opBytes 0x2A 1 1)) (mStream f) [e.sideBytes n] s s ∧
    (∃ u, exec (.vxSideFoldDesk a f) s = .next u ∧ SameMem s u ∧ (u.tile a.tile).eng = { e with vs := (u.tile a.tile).eng.vs } ∧
      ∀ k l, l < 64 → (u.tile a.tile).eng.side k l =
        if k = n then Nat.max (e.side k l) (s.deskNum a.tile (mAddr f + l) 1) else e.side k l) ∧
    ∃ k : List Bytes → State → State, TakeLaw (.vxSideFoldStream a f) (s.ctx a (opBytes 0x2A 3 1)) (mStream f) 1 k s ∧
      ∀ fl s1, s.takeFlits a.tile (mStream f) 1 = (some fl, s1) → SameMem s (k fl s1) ∧
        ∀ j l, l < 64 → ((k fl s1).tile a.tile).eng.side j l =
          if j = n ∧ l < fl.flatten.length then Nat.max (e.side j l) (fl.flatten.getD l 0).toNat else e.side j l)

/-- R60: tally additions are exact; the marker absorbs; a sum that leaves −(2^63 − 1) to 2^63 − 1 stores the marker, makes the mark
bad with cause bit 0, and is recorded. Contributions within the guard bits never reach that range. -/
def Obligations.TallyAdditions : Prop :=
  (∀ x y : BitVec 64, tallyAdd x y = tallyAdd y x ∧ (x = marker ∨ y = marker → tallyAdd x y = (marker, false)) ∧
    (x ≠ marker → y ≠ marker →
      ((x.toInt + y.toInt).natAbs ≤ 2 ^ 63 - 1 →
        (tallyAdd x y).1.toInt = x.toInt + y.toInt ∧ (tallyAdd x y).1 ≠ marker ∧ (tallyAdd x y).2 = false) ∧
      (2 ^ 63 - 1 < (x.toInt + y.toInt).natAbs → tallyAdd x y = (marker, true)))) ∧
  (∀ (k : Nat) (vs : List Int), k ≤ 40 → vs.length ≤ 2 ^ k → (∀ v ∈ vs, v.natAbs ≤ 2 ^ (63 - k) - 1) →
    vs.sum.natAbs ≤ 2 ^ 63 - 2 ^ k) ∧
  (∀ g : Int, (tcvtLane g marker).1.w = 0x7FC00000 ∧ (tcvtLane g marker).2.nonfin = true) ∧
  ∀ (s : State) (c : Ctx) (addr : Nat) (v : BitVec 64), addr + 8 ≤ 0x100000 →
    let y := tallyAdd (BitVec.ofNat 64 (s.deskNum c.t addr 8)) v
    let u := s.addDeskTally c addr v
    u.deskNum c.t addr 8 = y.1.toNat ∧ SameMemBut c.t false (span addr 8) s u ∧
    (y.2 = true → (u.tile c.t).causes.getLsbD 0 = true ∧ ∃ w : State, u = w.tileErr c 0x0021 1 addr [])

/-- TADD: each active lane's contribution is added into its 64-bit tally, and no other byte changes; an entry with VALID = 0 adds
nothing and makes the mark bad. TCVT: each active lane takes its tally as fp32, or 0 where the entry has VALID = 0. Choices of the
model in it, where the spec leaves a point open: log entry 126. -/
def Obligations.TallyInDesk : Prop :=
  (∀ (a : Issue) (f : VArgs) (s : State), s.Ready a.tile → (s.tile a.tile).eng.vl.toNat ≤ 64 → wordOk (.tadd a f) = true →
    let e := (s.tile a.tile).eng
    let ls := e.active f.mask.toNat
    let tg := tgrid (s.reg (.tileTgrid a.tile (tallyEntry f)))
    (tg.1 = true → ∃ u, exec (.tadd a f) s = .next u ∧
      SameMemBut a.tile false (fun x => ∃ i l, i < vCount f ∧ l ∈ ls ∧ span (tallyAddr f i l) 8 x) s u ∧
      ∀ i l, i < vCount f → l ∈ ls → tallyAddr f i l < 0x100000 →
        u.deskNum a.tile (tallyAddr f i l) 8 =
          (tallyAdd (BitVec.ofNat 64 (s.deskNum a.tile (tallyAddr f i l) 8))
            (contribution tg.2.1 tg.2.2.1 (e.lane (f.va.toNat + i) l)).1).1.toNat) ∧
    (tg.1 = false → ∃ u, exec (.tadd a f) s = .next u ∧ SameMem s u ∧
      (u.tile a.tile).causes = (s.tile a.tile).causes ||| 1)) ∧
  (∀ (a : Issue) (f : VArgs) (s : State), s.Ready a.tile → (s.tile a.tile).eng.vl.toNat ≤ 64 → wordOk (.tcvt a f) = true →
    let e := (s.tile a.tile).eng
    let ls := e.active f.mask.toNat
    let tg := tgrid (s.reg (.tileTgrid a.tile (tallyEntry f)))
    ∃ u, exec (.tcvt a f) s = .next u ∧ SameMem s u ∧ (u.tile a.tile).eng = { e with v := (u.tile a.tile).eng.v } ∧
      (∀ v l, l < 64 → (u.tile a.tile).eng.lane v l = if f.vd.toNat ≤ v ∧ v ≤ f.vd.toNat + f.cnt.toNat ∧ l ∈ ls
        then (if tg.1 then (tcvtLane (tallyG tg.2.1 tg.2.2.1)
          (BitVec.ofNat 64 (s.deskNum a.tile (tallyAddr f (v - f.vd.toNat) l) 8))).1.w else 0) else e.lane v l) ∧
      (tg.1 = false → (u.tile a.tile).causes = (s.tile a.tile).causes ||| 1))

/-- MXQ: the MXFP4 line of each register, and no other byte; a half without an active lane stays, and so does the nibble of every
lane that is not active. Choices of the model in it, where the spec leaves a point open: log entries 19, 124, 127. -/
def Obligations.VectorMxfp4Lines : Prop :=
  ∀ (a : Issue) (f : VArgs) (s : State), s.Ready a.tile → wordOk (.mxq a f) = true →
    let e := (s.tile a.tile).eng
    let line := fun i => 64 * (f.g.toNat % 16384 + i)
    ∃ u, exec (.mxq a f) s = .next u ∧ (u.tile a.tile).eng = e ∧
      SameMemBut a.tile false (fun x => ∃ i, i < vCount f ∧ span (line i) 34 x) s u ∧
      ∀ i h, i < vCount f → h < 2 → line i < 0x100000 →
        let ls := (e.active f.mask.toNat).filter fun l => l / 32 == h
        let b := mxBlock (ls.map fun l => f32 (e.lane (f.va.toNat + i) l))
        u.deskAt a.tile (line i + 32 + h) = (if ls = [] then s.deskAt a.tile (line i + 32 + h) else BitVec.ofNat 8 b.1) ∧
        ∀ l, l / 32 = h →
          let nib := fun x : State => (x.deskAt a.tile (line i + l / 2)).toNat / 16 ^ (l % 2) % 16
          nib u = if l ∈ ls then b.2.getD (ls.idxOf l) 0 else nib s

/-- MX.LDW, both ports: the shadow block takes the stored bytes and sidecar codes; nothing else changes but error records. R70:
activation rows in desk memory lie in slots, their sidecar codes in a byte array; nothing is changed by reading them but error
records and marks. Choices of the model in it, where the spec leaves a point open: log entries 14, 17, 20. -/
def Obligations.MatrixLoads : Prop :=
  (∀ (a : Issue) (f : LdwArgs) (s : State), s.Ready a.tile → fmtCode f.fmt = true →
    let blk := 64 * f.blk.toNat
    let law := fun (c : Instr) (cross : Bool) (n : Nat) => ∃ u, exec c s = .next u ∧ SameMem s u ∧
      (u.tile a.tile).eng = (s.tile a.tile).eng ∧
      (u.tile a.tile).arr = { (s.tile a.tile).arr with
        shadow := { loaded := true, fmt := f.fmt, cross := cross, data := s.memBytes a.tile true blk (blockBytes f.fmt.toNat),
                    codes := s.memBytes a.tile true f.side.toNat n, off := s.blockOff a.tile blk
                    depth := s.blockDepth a.tile blk } }
    law (.mxLdw a f) false 20 ∧ law (.mxLdwCrossRead a f) true (depthOf f.fmt.toNat)) ∧
  (∀ (s : State) (c : Ctx) (addr n rowBytes : Nat) (side : Option Nat),
    ∃ u, s.readRows c false addr n rowBytes side = (some ((List.range n).map fun r =>
      (s.memBytes c.t false (addr + r * slotOf rowBytes) rowBytes,
       match side with | some x => s.deskNum c.t (x + r) 1 | none => 0)), u) ∧
      SameMem s u ∧ (u.tile c.t).arr = (s.tile c.t).arr ∧ (u.tile c.t).eng = (s.tile c.t).eng)

/-- MX.RUN with tally = 0 and a cross-read run, on the loaded block that is active after the swap: each element of the streamed
rows becomes what its row and column (or row of K) give; elements of other rows keep theirs. Choices of the model in it, where the
spec leaves a point open: log entries 103, 106, 118, 119. -/
def Obligations.MatrixRunElements : Prop :=
  ∀ (a : Issue) (f : RunArgs) (s s1 : State) (rows : List (Bytes × Nat)) (g : Fmt) (c : Instr),
    c = .mxRun a f ∨ c = .crossReadRun a f → s.Ready a.tile → wordOk c = true → fmtOf f.fmt.toNat = some g →
    let arr := (s.tile a.tile).arr
    let blk := if f.swap then arr.shadow else arr.active
    let len := if blk.cross then 20 else depthOf blk.fmt.toNat
    let ctx := s.ctx a (opBytes 0x31 0 0)
    let n := f.rows.toNat + 1
    blk.loaded = true → pairOk blk.fmt.toNat f.fmt.toNat = true → (arr.grp f.grp).kind ≠ some true → arr.inject = false →
    s.readRows ctx (f.src == 1) f.addr.toNat n (len * g.bytes) (some f.side.toNat) = (some rows, s1) →
    (s1.tile a.tile).arr = arr → rows.length = n →
    ∃ u, exec c s = .next u ∧ (u.tile a.tile).arr.active = blk ∧
      (u.tile a.tile).arr.shadow = (if f.swap then {} else arr.shadow) ∧
      ((u.tile a.tile).arr.grp f.grp).kind = some false ∧
      (u.tile a.tile).arr.grp (!f.grp) = arr.grp (!f.grp) ∧
      (∀ r x, r < n → x < (if blk.cross then depthOf blk.fmt.toNat else 20) →
        let row := rows.getD r ([], 0)
        let gr := if blk.cross then x / 20 * n + r else r
        gr < 64 →
        ((u.tile a.tile).arr.grp f.grp).el (20 * gr + x % 20) =
          (runElem (g == .fp32) f.start (BitVec.ofNat 8 row.2) (blk.codes.getD x 0) (20 * gr + x % 20)
            ((List.range len).map (mxElAt g row.1)) ((if blk.cross then blk.krows else blk.cols).getD x [])
            ((arr.grp f.grp).el (20 * gr + x % 20)) false []).1) ∧
      ∀ i, (if blk.cross then depthOf blk.fmt.toNat / 20 else 1) * n * 20 ≤ i →
        ((u.tile a.tile).arr.grp f.grp).el i = (arr.grp f.grp).el i

/-- R49, R51, R52: an element started on an anchor z with finite operands, no product beyond the limit, holds the exact sum of its
products, each cut to units of 2^(z − 78); its residue agrees (R79). R78, R79: a product that enters an element keeps the
element's residue in agreement with its accumulator; for a product that R52 clamps this is the model's choice (log entry 118). -/
def Obligations.MatrixElementArithmetic : Prop :=
  (∀ (ca cb : Byte) (idx : Nat) (e : Elem) (z : Int) (ps : List (Int × Int × Int × Int)),
    anchorOf ca cb = some z → ps.length ≤ 32768 →
    (∀ p ∈ ps, (p.1 * p.2.2.1).natAbs * 2 ^ (p.2.1 + p.2.2.2 - (z - 78)).toNat / 2 ^ (-(p.2.1 + p.2.2.2 - (z - 78))).toNat < 2 ^ 80) →
    let xs : List MxEl := ps.map fun p => { hi := some (p.1, p.2.1) }
    let ws : List MxEl := ps.map fun p => { hi := some (p.2.2.1, p.2.2.2) }
    let r := runElem false true ca cb idx xs ws e false []
    r.1.sum = (ps.map fun p => floorShift (p.1 * p.2.2.1) (p.2.1 + p.2.2.2 - (z - 78))).sum ∧
    r.1.rcd = .anchor ca cb ∧ r.1.nonfin = false ∧ r.1.clamps = e.clamps ∧ r.2.2 = []) ∧
  (∀ (e : Elem) (idx : Nat) (a sx sw ex : Int) (fs : Fails), e.diff = 0 → e.terms ≤ 32768 →
    e.chunk.toInt.natAbs ≤ e.terms * 2 ^ 80 → (e.terms = 32768 → e.total.toInt.natAbs ≤ 2 ^ 126) →
    let r := e.enter idx a sx sw ex false fs
    r.1.diff = 0 ∧ r.1.chunk.toInt.natAbs ≤ r.1.terms * 2 ^ 80 ∧ r.1.terms ≤ 32768)

/-- MX.RUN with tally = 1: on a valid grid entry, with the hold filled and the group started, each of the 400 elements holds the
exact sum of its contributions and records the entry's G and k. Choices of the model in it, where the spec leaves a point open:
log entries 15, 34, 106. -/
def Obligations.TallyRunElements : Prop :=
  ∀ (a : Issue) (f : RunArgs) (s s1 : State) (rows : List (Bytes × Nat)) (g hg : Fmt) (h : RowHold),
    s.Ready a.tile → wordOk (.tallyRun a f) = true → f.start = true → fmtOf f.fmt.toNat = some g → f.fmt.toNat ≤ 2 →
    let arr := (s.tile a.tile).arr
    let n := f.rows.toNat + 1
    let w := s.reg (.tileTgrid a.tile (f.side.toNat % 16))
    let tg := tgrid w
    arr.hold = some h → h.fmt.toNat ≤ 2 → fmtOf h.fmt.toNat = some hg → n ≤ h.rows.length → arr.inject = false → tg.1 = true →
    s.readRows (s.ctx a (opBytes 0x31 0 0)) (f.src == 1) f.addr.toNat n (20 * g.bytes) none = (some rows, s1) →
    (s1.tile a.tile).arr = arr → s1.office = s.office → rows.length = n →
    let x := fun m r => (mxElAt g (rows.getD m ([], 0)).1 r).hi
    let y := fun m c => (mxElAt hg (h.rows.getD m []) c).hi
    ∃ u, exec (.tallyRun a f) s = .next u ∧ ((u.tile a.tile).arr.grp f.grp).kind = some true ∧
      (u.tile a.tile).arr.grp (!f.grp) = arr.grp (!f.grp) ∧
      ∀ r c, r < 20 → c < 20 →
        let e := ((u.tile a.tile).arr.grp f.grp).el (20 * r + c)
        e.rcd = .grid (some (f.side.truncate 4)) (BitVec.ofNat 8 (fld w 30 23)) (BitVec.ofNat 6 (fld w 22 17)) ∧
        ∀ sx ex sy ey : Nat → Int, (∀ m, m < n → x m r = some (sx m, ex m) ∧ y m c = some (sy m, ey m)) →
          e.nonfin = false ∧
          e.sum = ((List.range n).map fun m => (tallyIn tg.2.1 tg.2.2.1 (sx m * sy m) (ex m + ey m)).1).sum

/-- MX.OUT of an anchored group to desk memory: the rounded elements of its rows, and no other byte. MX.OUT of an anchored group
to a mesh stream and to V registers. MX.OUT of a tally group: its sums are added into 64-bit desk tallies, and no other byte
changes; a form that a tally group does not take changes no byte. Choices of the model in it, where the spec leaves a point open:
log entries 14, 15, 21, 106, 120. -/
def Obligations.MatrixOutputs : Prop :=
  (∀ (a : Issue) (f : OutArgs) (s : State) (g : Fmt), s.Ready a.tile → outOk f = true → fmtOf f.fmt.toNat = some g → f.dst = 0 →
    let grp := (s.tile a.tile).arr.grp f.grp
    grp.kind ≠ some true →
    let at_ := fun r => f.addr.toNat + r * outSlot g f.wide + (if g.bytes = 1 then 20 * f.q.toNat else 0)
    ∃ u, exec (.mxOut a f) s = .next u ∧
        (∀ i, ((u.tile a.tile).arr.grp f.grp).el i = if i ≤ 20 * f.rows.toNat + 19 then (grp.el i).counted else grp.el i) ∧
        (u.tile a.tile).eng = (s.tile a.tile).eng ∧
      SameMemBut a.tile false (fun x => ∃ r, r ≤ f.rows.toNat ∧ span (at_ r) (20 * g.bytes) x) s u ∧
      ∀ r j k, r ≤ f.rows.toNat → j < 20 → k < g.bytes → at_ r + g.bytes * j + k < 0x100000 →
        u.deskAt a.tile (at_ r + g.bytes * j + k) = (toLE g.bytes (outElem g f.c.toInt (grp.el (20 * r + j))).1.code).getD k 0) ∧
  (∀ (a : Issue) (f : OutArgs) (s : State) (g : Fmt), s.Ready a.tile → outOk f = true → fmtOf f.fmt.toNat = some g →
    let x := s.tile a.tile
    let grp := x.arr.grp f.grp
    grp.kind ≠ some true →
    (f.dst = 1 → ∃ (pre : State) (side : Nat → Nat),
      (∀ r, r ≤ f.rows.toNat → side r = Nat.max (if f.fold then grp.sideAt r else 0)
        ((List.range 20).foldl (fun m j => Nat.max m (codeOf (g.decode (outElem g f.c.toInt (grp.el (20 * r + j))).1.code))) 0)) ∧
      SameMem s pre ∧
      SendLaw (.mxOut a f) (s.ctx a (opBytes 0x32 0 0)) (f.addr.toNat % 16)
        ((List.range (f.rows.toNat + 1)).flatMap fun r => flitsOf (((List.range 20).flatMap fun j =>
          toLE g.bytes (outElem g f.c.toInt (grp.el (20 * r + j))).1.code) ++ toLE 1 (side r))) pre s) ∧
    (f.dst = 2 → ∃ u, exec (.mxOut a f) s = .next u ∧ SameMem s u ∧
      ∀ v l, l < 64 → (u.tile a.tile).eng.lane v l =
        if f.addr.toNat % 32 ≤ v ∧ v < f.addr.toNat % 32 + 20 ∧ l ≤ f.rows.toNat
        then BitVec.ofNat 32 (outElem g f.c.toInt (grp.el (20 * l + (v - f.addr.toNat % 32)))).1.code else x.eng.lane v l)) ∧
  (∀ (a : Issue) (f : OutArgs) (s : State), s.Ready a.tile → outOk f = true →
    let grp := (s.tile a.tile).arr.grp f.grp
    grp.kind = some true →
    let at_ := fun r j => f.addr.toNat + 192 * r + 8 * j
    let plain := f.fmt = 0 ∧ f.c = 0 ∧ f.q = 0 ∧ f.wide = false ∧ f.dst = 0
    (plain → ∃ u, exec (.mxOut a f) s = .next u ∧
      SameMemBut a.tile false (fun x => ∃ r j, r ≤ f.rows.toNat ∧ j < 20 ∧ span (at_ r j) 8 x) s u ∧
      ∀ r j, r ≤ f.rows.toNat → j < 20 → at_ r j + 8 ≤ 0x100000 →
        let e := grp.el (20 * r + j)
        let old := BitVec.ofNat 64 (s.deskNum a.tile (at_ r j) 8)
        ∀ o G k, e.rcd = .grid o G k → u.deskNum a.tile (at_ r j) 8 =
          (if e.nonfin then marker else (tallyAddInt old e.sum).1).toNat) ∧
    (¬ plain → ∃ u, exec (.mxOut a f) s = .next u ∧ SameMem s u ∧ (u.tile a.tile).causes.getLsbD 0 = true))

/-- MX.PSEND and MX.PADD: partial records leave and are added. TSEND and TRECV. Choices of the model in it, where the spec leaves
a point open: log entries 21, 106. -/
def Obligations.PartialsAndTallyTransfers : Prop :=
  (∀ (a : Issue) (f : PartialArgs) (s : State), s.Ready a.tile →
    let grp := (s.tile a.tile).arr.grp f.grp
    let n := f.rows.toNat + 1
    (f.start = false → ∃ pre, SameMem s pre ∧
      (∀ i, ((pre.tile a.tile).arr.grp f.grp).el i = if i < 20 * n then (grp.el i).closed.counted else grp.el i) ∧
      SendLaw (.mxPsend a f) (s.ctx a (opBytes 0x34 0 0)) f.stream.toNat
        ((List.range n).flatMap fun r => flitsOf (grp.record r)) pre s) ∧
    ∃ k : List Bytes → State → State, TakeLaw (.mxPadd a f) (s.ctx a (opBytes 0x35 0 0)) f.stream.toNat (6 * n) k s ∧
      ∀ fl s1, s.takeFlits a.tile f.stream.toNat (6 * n) = (some fl, s1) → SameMem s (k fl s1) ∧
        ∀ r j, r < n → j < 20 →
          let b := ((fl.drop (6 * r)).take 6).flatten
          let e := grp.el (20 * r + j)
          let ca : Byte := BitVec.ofNat 8 (field b 380 1)
          let cb : Byte := BitVec.ofNat 8 (field b (360 + j) 1)
          (∀ i, i < n → field ((fl.drop (6 * i)).take 6).flatten 381 1 = 0) → (f.start = true ∨ grp.kind = some false) →
          f.start = true ∨ e.rcd = .anchor ca cb →
          let z := (((k fl s1).tile a.tile).arr.grp f.grp).el (20 * r + j)
          let e0 := if f.start then e.fresh (.anchor ca cb) else e
          z.rcd = .anchor ca cb ∧ z.total = e0.total + BitVec.ofNat 128 (field b (16 * j) 16) ∧
          z.nonfin = (e0.nonfin || decide (32768 ≤ field b (320 + 2 * j) 2)) ∧ z.chunk = e0.chunk) ∧
  (∀ (a : Issue) (f : TxArgs) (s : State), s.Ready a.tile →
    let n := f.flits.toNat + 1
    let base := 64 * f.desk.toNat
    (∃ pre, SameMem s pre ∧ SendLaw (.tsend a f) (s.ctx a (opBytes 0x3D 0 2)) f.stream.toNat
      (if f.empty then List.replicate n (List.replicate 64 0) else flitsOf (s.memBytes a.tile false base (64 * n))) pre s) ∧
    ∃ k : List Bytes → State → State, TakeLaw (.trecv a f) (s.ctx a (opBytes 0x3D 1 2)) f.stream.toNat n k s ∧
      ∀ fl s1, s.takeFlits a.tile f.stream.toNat n = (some fl, s1) →
        (f.empty = true → SameMem s (k fl s1)) ∧
        (f.empty = false → SameMemBut a.tile false (span base (64 * n)) s (k fl s1) ∧
          ∀ i, i < 8 * n → base + 8 * i < 0x100000 → (k fl s1).deskNum a.tile (base + 8 * i) 8 =
            (tallyAdd (BitVec.ofNat 64 (s.deskNum a.tile (base + 8 * i) 8)) (BitVec.ofNat 64 (field fl.flatten (8 * i) 8))).1.toNat))

/-- R423: an access of desk or shelf memory: what lies in the memory proceeds, what lies beyond it is not written and reads as 0, and
an access that leaves the memory makes the mark bad with cause bit 3 and record 0x0031. -/
def Obligations.AccessesBeyondMemory : Prop :=
  ∀ (s : State) (c : Ctx) (sh : Bool) (addr n : Nat) (b : Bytes),
    let r := s.readMem c sh addr n
    let w := s.writeMem c sh addr b
    let left := fun (m : Nat) (x : State) => 0 < m → memSize sh < addr + m → (x.tile c.t).causes.getLsbD 3 = true ∧
      ∃ v : State, x = v.tileErr c 0x0031 1 (2 ^ 63 * b2n sh + Nat.max addr (memSize sh)) []
    r.1 = s.memBytes c.t sh addr n ∧ SameMem s r.2 ∧ left n r.2 ∧
    SameMemBut c.t sh (fun a => span addr b.length a ∧ a < memSize sh) s w ∧ left b.length w ∧
    ∀ i, i < b.length → addr + i < memSize sh → w.memAt c.t sh (addr + i) = b.getD i 0

/-- MM.MOVE COPY in both directions: the lines arrive, and no other byte changes; a write into a closed region is performed and marks
the tile bad. MM.MOVE TFOLD: desk tallies are added into packed shelf tallies; the source is cleared where the word says so; no
other byte changes. Choices of the model in it, where the spec leaves a point open: log entries 15, 16. -/
def Obligations.MemoryMoves : Prop :=
  (∀ (a : Issue) (f : MoveArgs) (s : State), s.Ready a.tile →
    let n := 64 * (f.cnt.toNat + 1)
    let d := 64 * f.desk.toNat
    let h := 64 * f.shelf.toNat
    (∃ u, exec (.mmCopyToShelf a f) s = .next u ∧ SameMemBut a.tile true (span h n) s u ∧
      (∀ j, j < n → h + j < 0x400000 → u.shelfAt a.tile (h + j) = (s.memBytes a.tile false d n).getD j 0) ∧
      ∀ r, r < 64 → s.regBit (.tileRegion a.tile r) 31 = true → s.regBit (.tileRegcnt a.tile r) 31 = false →
        s.regFld (.tileRegion a.tile r) 9 0 * 4096 < h + n →
        h < (s.regFld (.tileRegion a.tile r) 9 0 + s.regFld (.tileRegion a.tile r) 29 19) * 4096 →
        (u.tile a.tile).causes.getLsbD 2 = true) ∧
    (∃ u, exec (.mmCopyToDesk a f) s = .next u ∧ SameMemBut a.tile false (span d n) s u ∧
      ∀ j, j < n → d + j < 0x100000 → u.deskAt a.tile (d + j) = (s.memBytes a.tile true h n).getD j 0)) ∧
  (∀ (a : Issue) (f : MoveArgs) (s : State), s.Ready a.tile →
    let n := f.cnt.toNat + 1
    let d := fun r j => 64 * f.desk.toNat + 192 * r + 8 * j
    let h := fun r j => 64 * f.shelf.toNat + 160 * r + 8 * j
    ∃ u, exec (.tfold a f) s = .next u ∧ (∀ x, Bank.byte u.stash x = Bank.byte s.stash x) ∧
      (∀ t sh x, t ≠ a.tile → u.memAt t sh x = s.memAt t sh x) ∧
      (∀ x, ¬ span (h 0 0) (160 * n) x → u.shelfAt a.tile x = s.shelfAt a.tile x) ∧
      (∀ r j, r < n → j < 20 → h r j < 0x400000 →
        leNat (u.memBytes a.tile true (h r j) 8) = (tallyAdd (BitVec.ofNat 64 (leNat (s.memBytes a.tile true (h r j) 8)))
          (BitVec.ofNat 64 (s.deskNum a.tile (d r j) 8))).1.toNat) ∧
      (∀ x, ¬ (f.clear = true ∧ ∃ r, r < n ∧ span (d r 0) 160 x) → u.deskAt a.tile x = s.deskAt a.tile x) ∧
      (f.clear = true → ∀ r x, r < n → span (d r 0) 160 x → x < 0x100000 → u.deskAt a.tile x = 0))

/-- MM.SREQ: a request enters the tile's queue, a write with the lines that it takes from local memory, or waits for a slot while
the tile stalls; nothing is moved yet. STASH_REQUEST_COMPLETE: the front request of a tile's queue moves its lines and raises its
token counter. R124, R131, R134: a request that reaches an unmapped page fences its tile's queue; its token counter still
advances, and no byte moves. Choices of the model in it, where the spec leaves a point open: log entries 16, 26, 28, 114, 133. -/
def Obligations.StashRequests : Prop :=
  (∀ (a : Issue) (f : SreqArgs) (s : State) (p : Bool), s.Ready a.tile → s.tilePart a.tile = some p →
    let x := s.tile a.tile
    let n := f.lines.toNat + 1
    let req := fun (d : Option Bytes) => ({ write := d.isSome, shelf := f.shelf, laddr := 64 * f.laddr.toNat
                                            saddr := (List.range n).map fun i =>
                                              s.window p (s.rebuilding p) (64 * f.saddr.toNat + 64 * i)
                                            ctr := some f.ctr, data := d } : StashReq)
    let law := fun (c : Instr) (d : Option Bytes) => ∃ u, exec c s = .next u ∧ SameMem s u ∧
      (x.queue.length < 32 → (u.tile a.tile).queue = x.queue ++ [req d] ∧ (u.tile a.tile).stalled = false) ∧
      (32 ≤ x.queue.length → (u.tile a.tile).queue = x.queue ∧ (u.tile a.tile).unqueued = [req d] ∧ (u.tile a.tile).stall = none)
    law (.mmSreqRead a f) none ∧ law (.mmSreqWrite a f) (some (s.memBytes a.tile f.shelf (64 * f.laddr.toNat) (64 * n)))) ∧
  (∀ (s : State) (t : Nat) (p : Bool) (q : StashReq) (rest : List StashReq) (ps : List Nat) (k : BitVec 2),
    t < 2500 → s.tilePart t = some p → (s.tile t).queue = q :: rest → (s.tile t).unqueued = [] → (s.tile t).qFenced = false →
    q.ctr = some k → q.fetch = none → q.saddr.map (fun a => s.translate p a q.write) = ps.map some →
    (∀ a ∈ ps, a % 64 = 0 ∧ s.lineErr (a / 64) = 0) →
    ∃ u, exec (.stashRequestComplete t) s = .next u ∧ (u.tile t).queue = rest ∧
      u.reg (.tileToken t k.toNat) = s.reg (.tileToken t k.toNat) + 1 ∧
      (∀ b, q.write = true → q.data = some b → ps.Nodup →
        (∀ t' sh a, u.memAt t' sh a = s.memAt t' sh a) ∧
        (∀ i a, ps[i]? = some a → ∀ j, j < 64 → Bank.byte u.stash (a + j) = b.getD (64 * i + j) 0) ∧
        ∀ x, (∀ a ∈ ps, ¬ span a 64 x) → Bank.byte u.stash x = Bank.byte s.stash x) ∧
      (q.write = false →
        SameMemBut t q.shelf (span q.laddr (64 * ps.length)) s u ∧
        ∀ i a, ps[i]? = some a → ∀ j, j < 64 → q.laddr + 64 * i + j < memSize q.shelf →
          u.memAt t q.shelf (q.laddr + 64 * i + j) = Bank.byte s.stash (a + j))) ∧
  (∀ (s : State) (t : Nat) (p : Bool) (q : StashReq) (rest : List StashReq) (k : BitVec 2),
    t < 2500 → s.tilePart t = some p → (s.tile t).queue = q :: rest → (s.tile t).qFenced = false → q.ctr = some k →
    (∃ a ∈ q.saddr, s.translate p a q.write = none) →
    ∃ u, exec (.stashRequestComplete t) s = .next u ∧ (u.tile t).qFenced = true ∧
      (u.tile t).causes = (s.tile t).causes ||| 8 ∧ SameMem s u ∧
      u.reg (.tileToken t k.toNat) = s.reg (.tileToken t k.toNat) + 1)

/-- MM.WAIT. STALL_RESUME: nothing on a tile that does not stall; a waiting MM.WAIT ends when its counter has reached n; the slip
grows by the stall. -/
def Obligations.TokenWaits : Prop :=
  (∀ (a : Issue) (f : WaitArgs) (s : State), s.Ready a.tile →
    let r : Reg := .tileToken a.tile f.ctr.toNat
    (f.n.toNat ≤ (s.reg r).toNat → exec (.mmWait a f) s =
      .next (if f.consume then s.setReg r (s.reg r - f.n.zeroExtend 32) else s)) ∧
    ((s.reg r).toNat < f.n.toNat → ∃ w, exec (.mmWait a f) s =
      .next (s.setTile a.tile { s.tile a.tile with stall := some (.mmWait a f), wait := w, memStall := true }))) ∧
  (∀ (a : Issue) (f : WaitArgs) (s : State) (n : Nat), a.tile < 2500 →
    let x := s.tile a.tile
    let r : Reg := .tileToken a.tile f.ctr.toNat
    (x.stalled = false → exec (.stallResume a.tile n) s = .next s) ∧
    (x.stall = some (.mmWait a f) → x.unsent = [] → x.unqueued = [] → x.fetching = false → x.held = [] → s.tileLive a.tile = true →
      ∃ u, exec (.stallResume a.tile n) s = .next u ∧ (u.tile a.tile).slip = x.slip + n ∧
        (u.tile a.tile).stall = (if f.n.toNat ≤ (s.reg r).toNat then none else some (.mmWait a f)) ∧
        u.reg r = (if f.n.toNat ≤ (s.reg r).toNat ∧ f.consume then s.reg r - f.n.zeroExtend 32 else s.reg r) ∧
        SameMem s u))

/-- APUT: a record goes to the plan region while it fits, else to the spill segment through the queue, else the stash is exhausted.
AGET: a planned record is copied from the plan region; where the directory holds no such record the destination lines read +0 and
the mark is bad; a spilled record's reads are enqueued while the tile stalls, and its lines land as the last of them completes.
Choices of the model in it, where the spec leaves a point open: log entry 25. -/
def Obligations.ActivationStash : Prop :=
  (∀ (a : Issue) (f : StashArgs) (s : State) (p : Bool), s.Ready a.tile → s.tilePart a.tile = some p →
    let x := s.tile a.tile
    let n := f.lines.toNat + 1
    let plan := s.planRegion a.tile
    let seg := s.spillSeg a.tile
    let dst := plan.2.1 + 64 * x.planPtr
    let c := s.ctx a (opBytes 0x3B 0 2)
    let data := s.memBytes a.tile f.shelf (64 * f.laddr.toNat) (64 * n)
    (x.spillPtr = 0 → x.planPtr + n ≤ plan.2.2 → ∃ u, exec (.aput a f) s = .next u ∧
      Bank.get noDir (u.tile a.tile).dir f.recNo.toNat = { spilled := false, addr := dst, lines := n } ∧
      (u.tile a.tile).planPtr = x.planPtr + n ∧ (u.tile a.tile).spillPtr = x.spillPtr ∧
      SameMemBut a.tile plan.1 (span dst (64 * n)) s u ∧
      ∀ j, j < 64 * n → dst + j < memSize plan.1 → u.memAt a.tile plan.1 (dst + j) = data.getD j 0) ∧
    (x.spillPtr ≠ 0 ∨ plan.2.2 < x.planPtr + n → x.spillPtr + 1 + n ≤ seg.2 → ∃ u, exec (.aput a f) s = .next u ∧
      Bank.get noDir (u.tile a.tile).dir f.recNo.toNat = { spilled := true, addr := seg.1 + 64 * x.spillPtr, lines := n } ∧
      (u.tile a.tile).planPtr = x.planPtr ∧ (u.tile a.tile).spillPtr = x.spillPtr + n + 1 ∧ SameMem s u ∧
      (u.tile a.tile).queue ++ (u.tile a.tile).unqueued = x.queue ++
        spillReqs (seg.1 + 64 * x.spillPtr) (s.spillHeader p a.tile f.recNo.toNat n ++ data)) ∧
    (x.spillPtr ≠ 0 ∨ plan.2.2 < x.planPtr + n → seg.2 < x.spillPtr + 1 + n →
        exec (.aput a f) s = .next (s.exhaust c p f.recNo.toNat n))) ∧
  (∀ (a : Issue) (f : StashArgs) (s : State), s.Ready a.tile →
    let x := s.tile a.tile
    let n := f.lines.toNat + 1
    let e := Bank.get noDir x.dir f.recNo.toNat
    let dst := 64 * f.laddr.toNat
    (e.lines = n → e.spilled = false → ∃ u, exec (.aget a f) s = .next u ∧ SameMemBut a.tile f.shelf (span dst (64 * n)) s u ∧
      ∀ j, j < 64 * n → dst + j < memSize f.shelf →
        u.memAt a.tile f.shelf (dst + j) = (s.memBytes a.tile (s.planRegion a.tile).1 e.addr (64 * n)).getD j 0) ∧
    (e.lines ≠ n → ∃ u, exec (.aget a f) s = .next u ∧ SameMemBut a.tile f.shelf (span dst (64 * n)) s u ∧
      (u.tile a.tile).causes.getLsbD 3 = true ∧
      ∀ j, j < 64 * n → dst + j < memSize f.shelf → u.memAt a.tile f.shelf (dst + j) = 0) ∧
    (e.lines = n → e.spilled = true → ∃ u, exec (.aget a f) s = .next u ∧ SameMem s u ∧ (u.tile a.tile).stall = none ∧
      (u.tile a.tile).stalled = true ∧
      (u.tile a.tile).queue ++ (u.tile a.tile).unqueued = x.queue ++ fetchReqs f e)) ∧
  (∀ (s : State) (t : Nat) (p : Bool) (f : StashArgs) (q : StashReq) (rest : List StashReq) (ps : List Nat),
    t < 2500 → s.tilePart t = some p → (s.tile t).queue = q :: rest → (s.tile t).unqueued = [] → (s.tile t).qFenced = false →
    q.ctr = none → q.fetch = some (some f) → (∀ y ∈ q.saddr, (s.translate p y q.write).isSome = true) →
    let n := f.lines.toNat + 1
    let e := Bank.get noDir (s.tile t).dir f.recNo.toNat
    let dst := 64 * f.laddr.toNat
    (List.range (n + 1)).map (fun i => s.translate p (e.addr + 64 * i) false) = ps.map some →
    (∀ y ∈ ps, y % 64 = 0 ∧ s.lineErr (y / 64) = 0) →
    ∃ u, exec (.stashRequestComplete t) s = .next u ∧ (u.tile t).queue = rest ∧
      SameMemBut t f.shelf (span dst (64 * n)) s u ∧
      (Bank.bytes s.stash (ps.headD 0) 16 = (s.spillHeader p t f.recNo.toNat n).take 16 →
        ∀ i y j, ps[i + 1]? = some y → j < 64 → dst + 64 * i + j < memSize f.shelf →
          u.memAt t f.shelf (dst + 64 * i + j) = Bank.byte s.stash (y + j)) ∧
      (Bank.bytes s.stash (ps.headD 0) 16 ≠ (s.spillHeader p t f.recNo.toNat n).take 16 →
        (u.tile t).causes.getLsbD 3 = true ∧ ∀ j, j < 64 * n → dst + j < memSize f.shelf → u.memAt t f.shelf (dst + j) = 0))

/-- ED.TAKE in both forms, ED.DROP: what they do when they complete, when they wait, and when they fault. ED.OPEN, ED.SEAL and ED.SET.
Choices of the model in it, where the spec leaves a point open: log entries 27, 104. -/
def Obligations.EditionInstructions : Prop :=
  (∀ (a : Issue) (f : EdArgs) (s : State), s.Ready a.tile → edOk f = true →
    let t := a.tile
    let n := f.region.toNat
    let k := f.slot.toNat
    let cnt := s.regionCount t n
    let taken := (((s.setReg (.tileEdslot t k) (s.edition t n)).setReg (.tileEdslotr t k) (BitVec.ofNat 32 (2 ^ 31 + n))).setRegFld
      (.tileRegcnt t n) 15 0 (cnt + 1))
    let stalls := fun (c : Instr) => ∃ w, exec c s = .next (s.setTile t { s.tile t with stall := some c, wait := w, memStall := true })
    let bad := fun (c : Instr) (op : Nat) => exec c s = .next (s.editionFault (s.ctx a op) n k)
    (s.regionValid t n = true → s.slotLive t k = false → s.regionOpen t n = false → cnt < 65535 →
      exec (.edTake a f) s = .next taken ∧
      (s.edition t n = s.reg (.tileEdslot t k) → exec (.edTakeWait a f) s = .next taken) ∧
      (s.edition t n ≠ s.reg (.tileEdslot t k) → stalls (.edTakeWait a f))) ∧
    (s.regionValid t n = true → s.slotLive t k = false → s.regionOpen t n = false → cnt = 65535 →
      bad (.edTake a f) (opBytes 0x3C 0 2) ∧
      (s.edition t n = s.reg (.tileEdslot t k) → bad (.edTakeWait a f) (opBytes 0x3C 0 2)) ∧
      (s.edition t n ≠ s.reg (.tileEdslot t k) → stalls (.edTakeWait a f))) ∧
    (s.regionValid t n = true → s.slotLive t k = false → s.regionOpen t n = true →
      stalls (.edTake a f) ∧ stalls (.edTakeWait a f)) ∧
    (s.regionValid t n = false ∨ s.slotLive t k = true →
      bad (.edTake a f) (opBytes 0x3C 0 2) ∧ bad (.edTakeWait a f) (opBytes 0x3C 0 2)) ∧
    (s.regionValid t n = true → s.slotLive t k = true → cnt ≠ 0 → s.regFld (.tileEdslotr t k) 5 0 = n →
      (∀ p, s.tilePart t = some p → (s.part p).wave = none) →
      let dropped := fun x : State => (x.setRegFld (.tileRegcnt t n) 15 0 (cnt - 1)).setReg (.tileEdslotr t k) 0
      (s.reg (.tileEdslot t k) = s.edition t n → exec (.edDrop a f) s = .next (dropped s)) ∧
      (s.reg (.tileEdslot t k) ≠ s.edition t n →
        exec (.edDrop a f) s = .next (dropped (s.editionFault (s.ctx a (opBytes 0x3C 1 2)) n k)))) ∧
    (s.regionValid t n = false ∨ s.slotLive t k = false ∨ cnt = 0 ∨ s.regFld (.tileEdslotr t k) 5 0 ≠ n →
      bad (.edDrop a f) (opBytes 0x3C 1 2))) ∧
  (∀ (a : Issue) (f : EdArgs) (s : State) (p : Bool), s.Ready a.tile → s.tilePart a.tile = some p →
    let t := a.tile
    let n := f.region.toNat
    let k := f.slot.toNat
    (edOpenOk f = true →
      (s.regionValid t n = true → s.regionOpen t n = false → s.regionCount t n = 0 →
        exec (.edOpen a f) s = .next (s.setRegBit (.tileRegcnt t n) 31 true)) ∧
      (s.regionValid t n = true → s.regionOpen t n = false → s.regionCount t n ≠ 0 → ∃ w,
        exec (.edOpen a f) s = .next (s.setTile t { s.tile t with stall := some (.edOpen a f), wait := w, memStall := true })) ∧
      (s.regionValid t n = false ∨ s.regionOpen t n = true →
        exec (.edOpen a f) s = .next (s.editionFault (s.ctx a (opBytes 0x3C 2 2)) n 0)) ∧
      (s.regionValid t n = true → s.regionOpen t n = true → s.rebuilding p = false →
        exec (.edSeal a f) s = .next ((s.setRegBit (.tileRegcnt t n) 31 false).setReg (.tileReged t n) (s.edition t n + 1))) ∧
      (s.regionValid t n = true → s.regionOpen t n = true → s.rebuilding p = true →
        exec (.edSeal a f) s = .next (s.setRegBit (.tileRegcnt t n) 31 false)) ∧
      (s.regionValid t n = false ∨ s.regionOpen t n = false →
        exec (.edSeal a f) s = .next (s.editionFault (s.ctx a (opBytes 0x3C 3 2)) n 0))) ∧
    (wordOk (.edSet a f) = true →
      (s.slotLive t k = false → ∃ u, exec (.edSet a f) s = .next u ∧ SameMem s u ∧
        u.reg (.tileEdslot t k) = BitVec.ofNat 32 (s.deskNum t (64 * f.desk.toNat) 4)) ∧
      (s.slotLive t k = true → exec (.edSet a f) s = .next (s.editionFault (s.ctx a (opBytes 0x3C 4 2)) 0 k))))

/-- MESH_FLIT_ARRIVAL and MESH_CREDIT_RETURN. -/
def Obligations.MeshFlitsAndCredits : Prop :=
  ∀ (s : State) (t st : Nat), t < 2500 → st < 16 →
    (∀ before after f, s.mesh = before ++ (t, st, f) :: after → (∀ e ∈ before, ¬ (e.1 = t ∧ e.2.1 = st)) →
      ∃ u, exec (.meshFlitArrival t st) s = .next u ∧ u.mesh = before ++ after ∧
        Bank.get (fun _ => []) (u.tile t).inb st = Bank.get (fun _ => []) (s.tile t).inb st ++ [f] ∧
        u = { s with mesh := u.mesh, tiles := u.tiles } ∧ SameMem s u) ∧
    ((∀ e ∈ s.mesh, ¬ (e.1 = t ∧ e.2.1 = st)) → exec (.meshFlitArrival t st) s = .next s) ∧
    (let n := Bank.get (fun _ => 0) s.meshCred (tileSender t st)
     (n = 0 → exec (.meshCreditReturn false t st) s = .next s) ∧
     (n ≠ 0 → ∃ u, exec (.meshCreditReturn false t st) s = .next u ∧ u = { s with tiles := u.tiles, meshCred := u.meshCred } ∧
       SameMem s u ∧ Bank.get (fun _ => 0) u.meshCred (tileSender t st) = n - 1 ∧
       Bank.get fullCredit (u.tile t).outCred st = satAdd streamDepth (Bank.get fullCredit (s.tile t).outCred st) 1)) ∧
    ∀ l q, l < 20 → q < 192 →
      let parts := Bank.get (fun _ => []) (s.port l).gateOut q
      (Bank.get (fun _ => 0) s.meshCred (gateSender l q) = 0 → exec (.meshCreditReturn true l q) s = .next s) ∧
      (Bank.get (fun _ => 0) s.meshCred (gateSender l q) ≠ 0 →
      ∃ v : State, exec (.meshCreditReturn true l q) s = .next (v.drainPort l) ∧
        v = { s with ports := v.ports, meshCred := v.meshCred, out := v.out } ∧
        Bank.get (fun _ => 0) v.meshCred (gateSender l q) = Bank.get (fun _ => 0) s.meshCred (gateSender l q) - 1 ∧
        Bank.get fullCredit (v.port l).gateCred q = satAdd streamDepth (Bank.get fullCredit (s.port l).gateCred q) 1 ∧
        ∀ n ns, parts = n :: ns →
          Bank.get (fun _ => []) (v.port l).gateOut q = (if n ≤ 1 then ns else (n - 1) :: ns) ∧
          (1 < n → v.out = s.out) ∧
          (n ≤ 1 → ∀ p, s.portPart l = some p → s.carries l = true → (s.port (s.txPort l)).switching = none →
            ∃ f, .frame (s.txPort l) f ∈ v.out ∧ f.kind = 1 ∧ f.payload = toLE 2 (q * 256 + 1)))

/-- R154, R156: what BELL does in a running lesson: a holdover while something is outstanding, and otherwise the bell; without a
running lesson nothing. HOLDOVER_QUANTUM_END, HOLDOVER_LIMIT and RECESS_START. Choices of the model in it, where the spec leaves a
point open: log entries 65, 66, 111, 136, 137, 140. -/
def Obligations.BellsAndHoldover : Prop :=
  (∀ (s : State) (p : Bool) (t d e w : Nat),
    (s.running p = false → s.rebuilding p = false → exec (.bell p t d e w) s = .next s) ∧
    (∀ l r, s.lesson p = some l → (s.part p).rcl = some r → r.phase = .rebuild →
      let x := s.part p
      let none' := ∀ n ∈ s.liveTiles p, (s.tile n).stalled = false
      (x.healPos.isSome = true → exec (.bell p t d e w) s = .next s) ∧
      (x.healPos = none → (∃ n ∈ s.liveTiles p, (s.tile n).stalled = true) → ∃ u n, exec (.bell p t d e w) s = .next u ∧
        n ∈ s.liveTiles p ∧ (s.tile n).stalled = true ∧ (u.part p).late = (s.tile n).wait ∧ (u.part p).held = true ∧
        (u.part p).idx = x.idx ∧ u.office = s.office ∧ u.tiles = s.tiles ∧ SameMem s u) ∧
      (none' → x.held = true → x.holdQ = 0 → exec (.bell p t d e w) s = .next s) ∧
      (x.healPos = none → none' → x.held = false ∨ x.holdQ ≠ 0 → ∃ u, exec (.bell p t d e w) s = .next u ∧
        (u.part p).held = false ∧ (u.part p).holdQ = 0 ∧ SameMem s u ∧
        u.reg (.bellHcount p) = BitVec.ofNat 32 (satAdd 0xFFFFFFFF (s.reg (.bellHcount p)).toNat x.holdQ) ∧
        (∀ n, s.tilePart n = some p → (u.tile n).eng.vl = 64 ∧ (u.tile n).slip = 0) ∧
        (∀ i, (l.deriv.find? fun i => decide (x.idx < i)) = some i →
          (u.part p).idx = i ∧ u.step64 p = r.target ∧ u.pnum p = s.pnumOf p l.periods r.target i) ∧
        ((l.deriv.find? fun i => decide (x.idx < i)) = none → (u.part p).idx = x.idx ∧ u.pnum p = s.pnum p))) ∧
    ∀ l, s.lesson p = some l → s.running p = true → s.rebuilding p = false →
      (∀ x, s.holdCause p l = some x → ∃ u, exec (.bell p t d e w) s = .next u ∧ u.regBit (.bellStat p) 30 = true ∧
        (u.part p).late = x ∧ u.pnum p = s.pnum p ∧ (u.part p).idx = (s.part p).idx ∧ SameMem s u) ∧
      (s.holdCause p l = none → s.regBit (.bellStat p) 30 = true → (s.part p).holdQ = 0 → exec (.bell p t d e w) s = .next s) ∧
      (s.holdCause p l = none → (s.regBit (.bellStat p) 30 = false ∨ (s.part p).holdQ ≠ 0) →
        exec (.bell p t d e w) s = .next ((s.ringBell p l t d e w).drainPorts p) ∧
        let i := ((s.part p).idx + 1) % l.periods
        (i ≠ 0 → l.planFlag 2 (s.part p).idx = false → s.staged = [] → (s.part p).preReq = none → s.fw.act = none →
          ∃ (v : State) (m : Mark), exec (.bell p t d e w) s = .next ((v.sendEndMark p l m).drainPorts p) ∧
            m.period = s.pnum p ∧ m.level = 0 ∧ v.pnum p = s.pnum p + 1 ∧ (v.part p).idx = i ∧ (v.part p).holdQ = 0 ∧
            v.running p = true ∧ v.regBit (.bellStat p) 30 = false ∧ v.regFld (.bellStat p) 3 0 = l.classOf i % 16 ∧
            SameMem s v ∧ ∀ n, s.tilePart n = some p → (v.tile n).eng.vl = 64 ∧ (v.tile n).slip = 0))) ∧
  (∀ (s : State) (p : Bool),
    (s.running p = false → exec (.recessStart p) s = .next s ∧ exec (.holdoverLimit p) s = .next s) ∧
    (s.running p = false → s.rebuilding p = false ∨ (s.part p).held = false → exec (.holdoverQuantumEnd p) s = .next s) ∧
    (s.running p = false → s.rebuilding p = true → (s.part p).held = true → ∃ u, exec (.holdoverQuantumEnd p) s = .next u ∧
      (u.part p).holdQ = (s.part p).holdQ + 1 ∧ u.office = s.office ∧ u.tiles = s.tiles ∧ u.out = s.out ∧ SameMem s u) ∧
    (s.running p = true → ∃ u, exec (.holdoverQuantumEnd p) s = .next u ∧ (u.part p).holdQ = (s.part p).holdQ + 1 ∧
      u.regBit (.bellStat p) 30 = true ∧ u.tiles = s.tiles ∧ u.out = s.out ∧ SameMem s u) ∧
    ((s.part p).noMax = true ∨ s.regFld (.bellHoldmax p) 23 0 = 0 ∨ (s.part p).holdQ < s.regFld (.bellHoldmax p) 23 0 →
      exec (.holdoverLimit p) s = .next s) ∧
    (s.running p = true → (s.part p).noMax = false → s.regFld (.bellHoldmax p) 23 0 ≠ 0 →
      s.regFld (.bellHoldmax p) 23 0 ≤ (s.part p).holdQ → ∃ v : State, exec (.holdoverLimit p) s = .next (v.recallNow p 9) ∧
        v.regBit (.bellStat p) 27 = true ∧ v.running p = true ∧ SameMem s v) ∧
    ((s.part p).inRecess = true → exec (.recessStart p) s = .next s) ∧
    (s.running p = true → (s.part p).inRecess = false → ∃ u, exec (.recessStart p) s = .next u ∧ (u.part p).inRecess = true ∧
      (∀ t, s.tilePart t = some p → (s.tile t).memBusy = false → (u.tile t).wb = []) ∧
      (∀ t, s.tilePart t = some p → (s.tile t).memBusy = true → u.tile t = s.tile t) ∧ SameMem s u))

/-- R227: the commit of step n toggles the bank selection, sets CHECK_CSTEP, takes each region's present edition as committed, and
clears the count of recalls without a commit; a mirror step starts its stream. R90, R134, R139, R154, R156, R166, R215, R301, R346:
BELL rings at the end of a commit period (with a LESSON_HALT waiting the bells stop there), at the first bell of a step, with a
pre-emption requested, and with a BELL set staged. -/
def Obligations.CommitTurnsBank : Prop :=
  (∀ (s : State) (p : Bool) (l : Lesson) (n : BitVec 64),
    let u := s.commit p l n
    let m := s.regFld (.checkMirror p) 31 16
    u.regBit (.checkBank p) 31 = !s.regBit (.checkBank p) 31 ∧ u.cstep64 p = n ∧ u.regFld (.checkRecall p) 31 24 = 0 ∧
    (u.part p).comEd = s.editionsNow p ∧ SameMem s u ∧
    (m ≠ 0 → n.toNat % m = 0 → l.mirrors = true → u.regBit (.checkMirror p) 15 = true ∧ (u.part p).flip = some n)) ∧
  ∀ (s : State) (p : Bool) (l : Lesson) (t d e w : Nat), s.lesson p = some l → s.running p = true → s.rebuilding p = false →
    s.holdCause p l = none → s.regBit (.bellStat p) 30 = false ∨ (s.part p).holdQ ≠ 0 → s.fw.act = none →
    let x := s.part p
    let i := (x.idx + 1) % l.periods
    let ends := l.planFlag 2 x.idx
    let rings := fun (after : State → Prop) => ∃ (v : State) (m : Mark),
      exec (.bell p t d e w) s = .next ((v.sendEndMark p l m).drainPorts p) ∧ m.period = s.pnum p ∧ m.level = 0 ∧ after v
    let committed := fun (v : State) => v.cstep64 p = s.step64 p - 1 ∧ (v.part p).comEd = s.editionsNow p ∧
      v.regBit (.checkBank p) 31 = !s.regBit (.checkBank p) 31 ∧ v.regFld (.checkRecall p) 31 24 = 0 ∧ SameMem s v
    let moves := fun (v : State) => (v.part p).idx = i ∧ v.pnum p = s.pnum p + 1
    -- the commit period of a step: the commit, and then the next period or the end that LESSON_HALT asked for
    (ends = true → s.cstep64 p + 2 = s.step64 p → s.staged = [] →
      (x.haltReq = false → i ≠ 0 → x.preReq = none → rings fun v => committed v ∧ moves v ∧ v.running p = true) ∧
      (x.haltReq = true → rings fun v => committed v ∧ v.running p = false ∧ (v.part p).haltReq = false ∧
        (v.part p).idx = x.idx ∧ v.pnum p = s.pnum p ∧ ∀ c ∈ v.cmds, c.opcode = 0x0203 → c.arg.testBit (b2n p) = false)) ∧
    -- the first bell of a step: its number, its counters, and the tiles of the lesson with no tokens and no stash records
    (ends = false → i = 0 → s.staged = [] → x.remap = [] → x.preReq = none → rings fun v => moves v ∧ v.running p = true ∧
      v.step64 p = s.step64 p + 1 ∧ (v.part p).pace = {} ∧ v.reg (.bellHcount p) = 0 ∧ v.regFld (.bellMargin p) 23 0 = 0xFFFFFF ∧
      ∀ n ∈ s.lessonTiles p, (∀ k, k < 4 → v.reg (.tileToken n k) = 0) ∧
        (v.tile n).dir = [] ∧ (v.tile n).planPtr = 0 ∧ (v.tile n).spillPtr = 0 ∧
        ∀ k, k < 16 →
          (∀ y, (l.tensors.filter fun y => y.kind == 3)[k]? = some y → let g := v.reg (.tileTgrid n k)
            fld g 31 31 = 1 ∧ fld g 22 17 = y.k % 64 ∧ fld g 15 0 = y.watch % 65536) ∧
          ((l.tensors.filter fun y => y.kind == 3)[k]? = none → v.reg (.tileTgrid n k) = 0)) ∧
    -- a pre-emption that is requested begins its save in place of the next period
    (∀ k, ends = false → i ≠ 0 → s.staged = [] → x.preReq = some k → rings fun v => moves v ∧ v.running p = false ∧
      (v.part p).preReq = none ∧ (v.part p).saving = some k ∧ SameMem s v) ∧
    -- a staged BELL set is checked as a whole, and the next period takes its class from it
    (ends = false → i ≠ 0 → x.preReq = none → s.held (.bellCommit p) = false →
      (∀ y ∈ s.staged, (Reg.bellPeriod p 0).addr ≤ y.1 ∧ y.1 < (Reg.bellWork p 0).addr) → s.staged ≠ [] →
      (s.bellSetOk p = true → rings fun v => moves v ∧ v.staged = [] ∧
        (∀ n, n < 16 → v.reg (.bellPeriod p n) = s.applied (Reg.bellPeriod p n).addr ∧
          v.reg (.bellRecess p n) = s.applied (Reg.bellRecess p n).addr) ∧
        (l.classOf i < 16 → (v.part p).curLen = fld (s.applied (Reg.bellPeriod p (l.classOf i)).addr) 15 0)) ∧
      (s.bellSetOk p = false → rings fun v => moves v ∧ v.staged = [] ∧ v.regBit (.bellStat p) 28 = true ∧
        ∀ n, n < 16 → v.reg (.bellPeriod p n) = s.reg (.bellPeriod p n) ∧ v.reg (.bellRecess p n) = s.reg (.bellRecess p n)))

/-- R152: the checks of a data frame at its port, in order, and its delivery. DATA_FRAME_RECEIVED and CREDIT_FRAME_RECEIVED: a
port that does not carry lesson traffic drops the frame; a relay passes it on; at its own port a data frame is checked in its
queue, and a credit frame returns credits up to the queue's depth. Choices of the model in it, where the spec leaves a point open:
log entries 35, 71, 110, 115, 138. -/
def Obligations.DataFrames : Prop :=
  (∀ (s : State) (p : Bool) (l : Lesson) (port : Nat) (f : Frame),
    let r := s.dataFrame p l port f
    (f.digest ≠ s.lessonDigest p → r = ((s.frameErr p f 2).fencePort port, false)) ∧
    (f.digest = s.lessonDigest p → staleAttempt (s.attempt p) f.attempt.toNat = true →
      r.2 = false ∧ (r.1.part p).pace.stale = (s.part p).pace.stale + 1 ∧ r.1.mesh = s.mesh) ∧
    (f.digest = s.lessonDigest p → newerAttempt (s.attempt p) f.attempt.toNat = true → r = (s, true)) ∧
    (f.digest = s.lessonDigest p → f.attempt.toNat = s.attempt p →
      let d := (f.period - s.pnum p).toNat
      let stream := port < 17 ∧ f.queue.toNat = 4096 + 192 * port + 191
      (s.restoring p = true → stream → r = ((s.restoreFrame p l port (padTo 256 f.payload)).linkCredit p port 191, false)) ∧
      ((s.restoring p = false ∨ ¬ stream) →
        (0 < d → d < 2 ^ 47 → r = (s, true)) ∧
        (2 ^ 47 ≤ d → r.2 = false ∧ (r.1.part p).causes = (s.part p).causes ||| 16 ∧ r.1.mesh = s.mesh) ∧
        (d = 0 → s.running p = false → s.rebuilding p = false → r = (s, true)) ∧
        (d = 0 → s.running p = true → (l.queues.all fun q => !(q.row != 0xFF && q.q == (f.queue.toNat - 4096) % 192 &&
          s.bindPort p q == some port && queuePort f.queue.toNat == port)) = true → r = (s.markPart p 4, false)) ∧
        (d = 0 → s.running p = true → ∀ q t, (q.q ≠ 191 ∨ q.far = true) →
          (l.queues.find? fun q => q.row != 0xFF && q.q == (f.queue.toNat - 4096) % 192 && s.bindPort p q == some port
            && queuePort f.queue.toNat == port) = some q →
          s.physTile l.cols q.row q.col = some t →
          let fl := flitsIn q.fmt (l.rxFlits q (s.part p).idx f.seq.toNat) (padTo 256 f.payload)
          (Bank.get fullCredit (s.port port).gateCred q.q < fl.length → r = (s, true)) ∧
          (fl.length ≤ Bank.get fullCredit (s.port port).gateCred q.q →
            r.2 = false ∧ r.1.mesh = s.mesh ++ fl.map (fun b => (t, q.stream, ⟨b, gateSender port q.q⟩)) ∧
            r.1.out = s.out ∧ (f.seq ≠ Bank.get noSeq (s.port port).nextSeq q.q → (r.1.part p).causes.getLsbD 4 = true)))))) ∧
  (∀ (s : State) (n : Nat) (f : Frame), n < 20 → s.portsOut = false →
    exec (.dataFrameReceived n f) s = .next s ∧ exec (.creditFrameReceived n f) s = .next s) ∧
  (∀ (s : State) (n : Nat) (f : Frame), n < 20 → s.portsOut = true →
    let s1 := s.unhand n f
    (s1.carries n = false → exec (.dataFrameReceived n f) s = .next s1 ∧ exec (.creditFrameReceived n f) s = .next s1) ∧
    (∀ o, s1.carries n = true → s1.forwardTo n f = some o →
      exec (.dataFrameReceived n f) s = .next (s1.sendFrame o f) ∧ exec (.creditFrameReceived n f) s = .next (s1.sendFrame o f)) ∧
    ∀ k, s1.carries n = true → s1.forwardTo n f = none → s1.rxPort n f = k →
      (s1.portPart k = none → exec (.dataFrameReceived n f) s = .next s1 ∧ exec (.creditFrameReceived n f) s = .next s1) ∧
      (∀ p, s1.portPart k = some p → s1.lessonRuns p = false →
        exec (.creditFrameReceived n f) s = .next s1 ∧
        ((s1.cmdOf 0x0205 (some p) = none ∨ (f.queue.toNat - 4096) % 192 ≠ 190) → exec (.dataFrameReceived n f) s = .next s1) ∧
        ((s1.cmdOf 0x0205 (some p)).isSome = true → (f.queue.toNat - 4096) % 192 = 190 → f.digest ≠ s1.lessonDigest p →
          exec (.dataFrameReceived n f) s = .next ((s1.frameErr p f 2).fencePort k)) ∧
        ((s1.cmdOf 0x0205 (some p)).isSome = true → (f.queue.toNat - 4096) % 192 = 190 → f.digest = s1.lessonDigest p →
          f.period = 0 → f.attempt = 0 → ∃ u, exec (.dataFrameReceived n f) s = .next u ∧ SameMem s u ∧
            (u.part p).shardIn = (s.part p).shardIn ++ [(k, f.seq.toNat, padTo 256 f.payload)])) ∧
      ∀ p, s1.portPart k = some p → s1.lessonRuns p = true →
        exec (.dataFrameReceived n f) s =
          .next ((s1.setPort k { s1.port k with waiting := (s1.port k).waiting ++ [f] }).drainPort k) ∧
        (f.digest ≠ s1.lessonDigest p → exec (.creditFrameReceived n f) s = .next ((s1.frameErr p f 2).fencePort k)) ∧
        (f.digest = s1.lessonDigest p → newerAttempt (s1.attempt p) f.attempt.toNat = true →
          exec (.creditFrameReceived n f) s = .next (s1.setPort k { s1.port k with waiting := (s1.port k).waiting ++ [f] })) ∧
        (f.digest = s1.lessonDigest p → f.attempt.toNat = s1.attempt p → f.queue.toNat ≠ 4096 + 192 * k →
          exec (.creditFrameReceived n f) s = .next (s1.markPart p 4)) ∧
        (∀ l, f.digest = s1.lessonDigest p → f.attempt.toNat = s1.attempt p → f.queue.toNat = 4096 + 192 * k → s1.lesson p = some l →
          let a := (s1.addCredits k (creditEntries (padTo 48 f.payload))).heard p k
          exec (.creditFrameReceived n f) s = .next (a.creditsIn p l k) ∧
          ((s.port k).late = [] → exec (.creditFrameReceived n f) s = .next a)) ∧
        ∀ i m, ((s1.addCredits k [(i, m)]).port k).credits = Bank.set fullLink (s1.port k).credits i
          (Nat.min 16 (Bank.get fullLink (s1.port k).credits i + m)))

/-- MARK_FRAME_RECEIVED and RECALL_NOTICE that pass the checks; a mark on a queue that is not the partition's makes its mark bad.
Choices of the model in it, where the spec leaves a point open: log entries 32, 36, 37, 112. -/
def Obligations.MarksAndNotices : Prop :=
  ∀ (s : State) (n : Nat) (f : Frame), n < 20 →
    let s1 := s.unhand n f
    let both := fun u : State => exec (.markFrameReceived n f) s = .next u ∧ exec (.recallNotice n f) s = .next u
    (s.portsOut = false → both s) ∧ (s.portsOut = true → (s1.carries n = false → both s1) ∧
    (∀ o, s1.carries n = true → s1.forwardTo n f = some o → both (s1.sendFrame o f)) ∧
    ∀ k p l, s1.carries n = true → s1.forwardTo n f = none → s1.rxPort n f = k → s1.portPart k = some p → s1.lesson p = some l →
      (s1.lessonRuns p = false → both s1) ∧
      (s1.lessonRuns p = true →
        (f.digest ≠ s1.lessonDigest p → both ((s1.frameErr p f 2).fencePort k)) ∧
        (f.digest = s1.lessonDigest p →
          (newerAttempt (s1.attempt p) f.attempt.toNat = true →
            both (s1.setPort k { s1.port k with waiting := (s1.port k).waiting ++ [f] })) ∧
          (staleAttempt (s1.attempt p) f.attempt.toNat = true → ∃ u, both u ∧ SameMem s u ∧
            (u.part p).pace.stale = (s.part p).pace.stale + 1 ∧ (u.part p).marks = (s.part p).marks)) ∧
        (f.digest = s1.lessonDigest p → f.attempt.toNat = s1.attempt p → markTarget f ≠ some p → both (s1.markPart p 4)) ∧
        (markTarget f = some p → f.digest = s1.lessonDigest p → f.attempt.toNat = s1.attempt p →
          let m := markOf k (padTo 48 f.payload)
          (m.notice = false → exec (.markFrameReceived n f) s = .next (s1.periodMark p l k m)) ∧
          (m.notice = true → (∀ r, (s1.part p).rcl = some r → r.phase ≠ .agreement) →
            exec (.markFrameReceived n f) s = .next (s1.recall p m.causes m.period false)) ∧
          (∀ r, m.notice = true → (s1.part p).rcl = some r → r.phase = .agreement →
            exec (.markFrameReceived n f) s = .next ((s1.takeMark p l k m).tryAgree p l m)) ∧
          exec (.recallNotice n f) s = .next (s1.recall p m.causes m.period false))))

/-- R265, R266: a recall of a running job stops its bells and begins a new attempt; R270: a cause that is met during the agreement
joins it. AGREEMENT_TIMEOUT and REBUILD_COMPLETE. Choices of the model in it, where the spec leaves a point open: log entries 36
to 40, 42, 43, 112, 113, 116, 138, 139. -/
def Obligations.Recalls : Prop :=
  (∀ (s : State) (p : Bool) (l : Lesson) (causes : BitVec 32) (per : BitVec 48) (halt : Bool), s.lesson p = some l →
    (s.running p = true → (s.part p).rcl = none →
      let u := s.recall p causes per halt
      u.running p = false ∧ u.attempt p = (s.attempt p + 1) % 256 ∧ (u.part p).rcl.isSome = true) ∧
    (s.running p = false → (s.part p).rcl = none →
      let x := s.part p
      let u := s.recall p causes per halt
      let away := s.regBit (.secPstat p) 29 || x.saving.isSome
      (x.fwStop = true ∨ away = true ∧ s.fwPaused = true →
        (∀ n, x.heldNote = some n → (u.part p).heldNote = some (n.1 ||| causes, n.2.1, n.2.2 || halt)) ∧
        (x.heldNote = none → (u.part p).heldNote = some (causes, per, halt)) ∧ (u.part p).rcl = none ∧ u.office = s.office) ∧
      (x.fwStop = false → away = true → s.fwPaused = false →
        u.attempt p = (s.attempt p + 1) % 256 ∧ (u.part p).rcl.isSome = true) ∧
      (x.fwStop = false → away = false → u = s)) ∧
    (∀ r, (s.part p).rcl = some r → r.phase ≠ .agreement →
      let u := s.recall p causes per halt
      (s.fwPaused = true → (u.part p).rcl = some r ∧ (u.part p).heldNote.isSome = true ∧ u.office = s.office) ∧
      (s.fwPaused = false → u.attempt p = (s.attempt p + 1) % 256 ∧ (u.part p).rcl.isSome = true)) ∧
    ∀ r, (s.part p).rcl = some r → r.phase = .agreement →
      let u := s.recall p causes per halt
      u.attempt p = s.attempt p ∧
      (u.part p).rcl = some { r with causes := r.causes ||| causes, halt := halt || r.halt } ∧ SameMem s u) ∧
  (∀ (s : State) (p : Bool),
    ((s.part p).rcl = none → exec (.agreementTimeout p) s = .next s ∧ exec (.rebuildComplete p) s = .next s) ∧
    ∀ r l, (s.part p).rcl = some r → s.lesson p = some l →
      (r.phase = .agreement → exec (.agreementTimeout p) s = .next (s.agreedShort p) ∧ exec (.rebuildComplete p) s = .next s ∧
        (s.regFld (.checkMirror p) 31 16 = 0 → (s.part p).flip = none → ∃ u, exec (.agreementTimeout p) s = .next u ∧
          u.regBit (.checkMark p) 29 = true ∧ (u.part p).rcl = none ∧ SameMem s u)) ∧
      (r.phase = .hold → exec (.agreementTimeout p) s = .next s ∧ exec (.rebuildComplete p) s = .next s) ∧
      (r.phase = .rebuild → exec (.agreementTimeout p) s = .next s ∧
        (s.regBit (.secPstat p) 29 = true → exec (.rebuildComplete p) s = .next s)) ∧
      (r.phase = .rebuild → s.regBit (.secPstat p) 29 = false →
        let s1 := s.restoreFrozen p l
        let waits := s1.copying p r.failed
        (waits = true → exec (.rebuildComplete p) s = .next s1) ∧
        (waits = false →
          (s1.stops p r = true → exec (.rebuildComplete p) s = .next (s1.jobEnds p)) ∧
          (s1.stops p r = false → r.halt = true → exec (.rebuildComplete p) s = .next (s1.haltAfter p)) ∧
          (s1.stops p r = false → r.halt = false → r.failed = true →
            exec (.rebuildComplete p) s = .next (s1.setPart p { s1.part p with rcl := some { r with phase := .hold } })) ∧
          (s1.stops p r = false → r.halt = false → r.failed = false →
            exec (.rebuildComplete p) s = .next (((s1.endRecall p).replay p l).finishFor 0x0402 p 0)))))

/-- FRAME_SLOT: a bound slot whose flits have reached the gate and whose queue has a credit sends one frame;
MIRROR_STREAM_COMPLETE and MIRROR_REFILL_COMPLETE. Choices of the model in it, where the spec leaves a point open: log entries 68,
71, 108, 116, 138. -/
def Obligations.FrameSlotsAndMirror : Prop :=
  ∀ (s : State) (p : Bool),
    (∀ n quantum slot : Nat, n < 20 → slot < 78 → s.portsOut = false → exec (.frameSlot n quantum slot) s = .next s) ∧
    (∀ (n quantum slot : Nat) (l : Lesson) (b : SlotBind) (q : QueueBind), n < 20 → slot < 78 → s.portPart n = some p →
      s.lesson p = some l → s.portsOut = true →
      (s.carries n = false ∨ (s.part p).further = true ∨ s.running p = false ∧ s.restoring p = false →
        exec (.frameSlot n quantum slot) s = .next (s.flushSlot n true)) ∧
      (s.carries n = true → (s.part p).further = false → s.running p = true → s.restoring p = false →
      (l.slots.find? fun b => !b.recv && b.slot == slot && b.quantum == quantum && b.period == (s.part p).idx
        && l.queues.any (fun q => q.idx == b.idx && s.bindPort p q == some n)) = some b →
      (l.queues.find? fun q => q.idx == b.idx) = some q → (∀ e ∈ (s.port n).late, e.q ≠ q.q) →
      let gate := Bank.get noFlits (s.port n).gate q.q
      let crs := Bank.get fullLink (s.port n).credits q.q
      let seq := Bank.get noSeq (s.port n).sendSeq q.q
      let pos := (s.part p).txPos
      ((q.q ≠ 191 ∨ q.far = true) →
        (b.flits ≤ gate.length → crs ≠ 0 → (s.port (s.txPort n)).switching = none → ∃ u g,
            exec (.frameSlot n quantum slot) s = .next u ∧
          Bank.get noFlits (u.port n).gate q.q = gate.drop b.flits ∧ Bank.get fullLink (u.port n).credits q.q = crs - 1 ∧
          (u.port n).late = (s.port n).late ∧
          .frame (s.txPort n) g ∈ u.out ∧ g.kind = 0 ∧ g.digest = s.lessonDigest p ∧ g.period = s.pnum p ∧
          g.attempt = BitVec.ofNat 8 (s.attempt p) ∧ g.seq = seq ∧
          g.payload = (payloadOf q.fmt ((gate.take b.flits).map (·.data))).1 ∧
          ((payloadOf q.fmt ((gate.take b.flits).map (·.data))).2 = true → (u.part p).causes.getLsbD 7 = true)) ∧
        (gate.length < b.flits ∨ crs = 0 → ∃ u, exec (.frameSlot n quantum slot) s = .next u ∧
          (u.port n).late = (s.port n).late ++ [⟨q.q, b.flits, s.pnum p, seq⟩] ∧ u.out = s.out)) ∧
      (q.q = 191 → q.far = false →
        (s.regBit (.checkMirror p) 15 = false → exec (.frameSlot n quantum slot) s = .next s) ∧
        (s.regBit (.checkMirror p) 15 = true → l.mirrorBytes ≤ pos → exec (.frameSlot n quantum slot) s =
          .next (s.setRegBit (.checkMirror p) 15 false)) ∧
        (s.regBit (.checkMirror p) 15 = true → pos < l.mirrorBytes → crs = 0 → ∃ u, exec (.frameSlot n quantum slot) s = .next u ∧
          (u.port n).late = (s.port n).late ++ [⟨191, 4, s.pnum p, seq⟩] ∧ u.out = s.out ∧ (u.part p).txPos = pos ∧ SameMem s u) ∧
        (s.regBit (.checkMirror p) 15 = true → pos < l.mirrorBytes → crs ≠ 0 → (s.port (s.txPort n)).switching = none →
          (s.readLines p (s.bankBase p + pos) 256).2.1 = [] → ∃ u g, exec (.frameSlot n quantum slot) s = .next u ∧
            (u.part p).txPos = pos + 256 ∧ .frame (s.txPort n) g ∈ u.out ∧ g.kind = 0 ∧ g.seq = seq ∧
            g.payload = padTo 256 ((s.readLines p (s.bankBase p + pos) 256).1.take (l.mirrorBytes - pos)) ∧
            (u.regBit (.checkMirror p) 15 = true ↔ pos + 256 < l.mirrorBytes))))) ∧
    (((s.part p).flip = none ∨ s.regBit (.checkMirror p) 14 = false) → exec (.mirrorStreamComplete p) s = .next s) ∧
    ((s.part p).flip ≠ none → s.regBit (.checkMirror p) 14 = true → ∃ u, exec (.mirrorStreamComplete p) s = .next u ∧
      (u.part p).inDone = true ∧ u.regBit (.checkMirror p) 14 = false ∧ SameMem s u) ∧
    ((s.part p).refill = false → exec (.mirrorRefillComplete p) s = .next s) ∧
    ((s.part p).refill = true →
      let r := s.copyPages p (s.bankOf p (s.mstep64 p)) (s.slotBase p (s.ownSlot p)) (s.regFld (.checkBanksize p) 20 0)
      (r.1 = true → exec (.mirrorRefillComplete p) s =
        .next (if s.cstep64 p = s.mstep64 p then r.2.recall p 2 (s.pnum p) false else r.2)) ∧
      (r.1 = false → ∃ v : State, exec (.mirrorRefillComplete p) s =
          .next ((v.namedPorts p).foldl (fun (acc : State) l => acc.drainPort l) v) ∧
        (v.part p).refill = false ∧ v.regBit (.checkMirror p) 13 = true ∧ v.stash = r.2.stash))

/-- TEST_TILE, TILE_TEST_DUE, TILE_TEST_COMPLETE and TEST_OVERDUE. SCRUB_LINE and STASH_SCRUB: corrected words and lines are clean
afterwards, and no byte is changed. Choices of the model in it, where the spec leaves a point open: log entries 57, 80, 125. -/
def Obligations.TileTestsAndScrub : Prop :=
  (∀ (k : Packet) (s : State) (n : Nat),
    let busy := (s.testing ++ s.moving).any fun x => x / 25 == n / 25
    (s.Runs (.testTile k) → pktArg k 8 1 ≤ 3 → pktArg k 9 1 ≤ 24 → pktArg k 10 1 ≤ 24 →
      let m := 625 * pktArg k 8 1 + 25 * pktArg k 9 1 + pktArg k 10 1
      exec (.testTile k) s = .next (((s.takePacket k).accept k none m).beginTest m)) ∧
    (n < 2500 →
      (s.regFld .checkTest 23 12 = 0 ∨ s.active n = false → exec (.tileTestDue n) s = .next s) ∧
      (s.regFld .checkTest 23 12 ≠ 0 → s.active n = true → exec (.tileTestDue n) s = .next (s.beginTest n)) ∧
      (s.testing.contains n = true ∨ s.moving.contains n = true → s.beginTest n = s) ∧
      (busy = false → s.active n = false → (s.beginTest n).testing = s.testing ++ [n] ∧ ((s.beginTest n).tile n).fenced = true) ∧
      (busy = false → s.active n = true → s.hasFree n = false → n ∈ (s.beginTest n).deferred ∧ (s.beginTest n).testing = s.testing) ∧
      (∀ p, busy = false → s.active n = true → s.hasFree n = true → s.tilePart n = some p →
        (s.lessonRuns p = true → (s.beginTest n).moving = s.moving ++ [n] ∧ (s.beginTest n).tiles = s.tiles) ∧
        (s.lessonRuns p = false → (s.beginTest n).testing = s.testing ++ [n] ∧ ((s.beginTest n).tile n).fenced = true ∧
          n ∈ (s.beginTest n).retained.exTiles)) ∧
      (s.testing.contains n = false → ∀ ok e v, exec (.tileTestComplete n ok e v) s = .next s) ∧
      (s.testing.contains n = true → (∀ x ∈ s.deferred, x / 25 ≠ n / 25) → ∀ ok e v, ∃ u : State,
        exec (.tileTestComplete n ok e v) s = .next u ∧ n ∉ u.testing ∧ (u.tile n).fenced = !ok ∧ SameMem s u ∧
        (∀ c ∈ s.cmds, c.opcode = 0x0801 → c.arg = n → ∀ d ∈ u.cmds, d.id ≠ c.id) ∧
        (ok = true → (u.tile n).spare = s.retained.exTiles.contains n ∧ u.retained = s.retained) ∧
        (ok = false → n ∈ u.retained.exTiles)) ∧
      (n ∉ s.deferred → ∀ h, exec (.testOverdue n h) s = .next s) ∧
      (n ∈ s.deferred → ∀ h, ∃ u : State, exec (.testOverdue n h) s = .next u ∧ u.regBit .checkTest 11 = true ∧ SameMem s u ∧
        u.deferred = s.deferred))) ∧
  (∀ (s : State),
    (∀ (t d h : Nat) (p : Bool), t < 2500 → d < 16384 → h < 65536 → s.tilePart t = some p → (s.tile t).stalled = false →
      (s.running p = true → (s.part p).inRecess = false → exec (.scrubLine t d h) s = .next s) ∧
      ((s.running p = false ∨ (s.part p).inRecess = true) → ∃ u, exec (.scrubLine t d h) s = .next u ∧ SameMem s u ∧
        ∀ i, i < 8 → Bank.get noErr (u.tile t).errs (errKey false (64 * d + 8 * i)) ≠ 1 ∧
          Bank.get noErr (u.tile t).errs (errKey true (64 * h + 8 * i)) ≠ 1)) ∧
    (∀ n, n < 0x60000000 →
      (s.lineErr n = 0 → exec (.stashScrub n) s = .next s) ∧
      (s.lineErr n = 1 → ∃ u, exec (.stashScrub n) s = .next u ∧ u.lineErr n = 0 ∧ SameMem s u ∧
        u.regFld .officeStashCe (8 * stackOf (64 * n) + 7) (8 * stackOf (64 * n)) =
          Nat.min 255 (s.regFld .officeStashCe (8 * stackOf (64 * n) + 7) (8 * stackOf (64 * n)) + 1))))

/-- Peers' pigeonhole messages, their replies, and a reply that does not come. R305, R308, R309: CLAIM, GO, DROP, TAKE and
PIGEONHOLE_TIMEOUT. Choices of the model in it, where the spec leaves a point open: log entries 76, 78, 138. -/
def Obligations.Pigeonholes : Prop :=
  (∀ (s : State) (n : Nat) (f : Frame) (tag : BitVec 16), n < 20 →
    let s1 := s.unhand n f
    let b := padTo 256 f.payload
    let g := f.queue.toNat - 8000
    let tg : BitVec 16 := BitVec.ofNat 16 (field b 2 2)
    (s.portsOut = false → exec (.pigeonholeMessageFrame ⟨false, n⟩ f) s = .next s ∧
      exec (.pigeonholeMessageFrame ⟨true, n⟩ f) s = .next s ∧ exec (.pigeonholeReplyFrame n f) s = .next s) ∧
    (s.portsOut = true → s1.carries n = false → exec (.pigeonholeMessageFrame ⟨false, n⟩ f) s = .next s1 ∧
      exec (.pigeonholeReplyFrame n f) s = .next s1) ∧
    (∀ o, s.portsOut = true → s1.carries n = true → s1.forwardTo n f = some o →
      exec (.pigeonholeMessageFrame ⟨false, n⟩ f) s = .next (s1.sendFrame o f) ∧
      exec (.pigeonholeReplyFrame n f) s = .next (s1.sendFrame o f)) ∧
    (s.portsOut = true → 8000 ≤ f.queue.toNat → f.queue.toNat < 8064 → field b 0 1 = 1 → s1.carries n = true →
      s1.forwardTo n f = none →
      ((s1.regBit (.pigeonOwn g) 31 = false ∨ s1.regBit (.pigeonOwn g) 23 = false) →
        exec (.pigeonholeMessageFrame ⟨false, n⟩ f) s = .next (s1.peerReply n g tg 7)) ∧
      (s1.regBit (.pigeonOwn g) 31 = true → s1.regBit (.pigeonOwn g) 23 = true → s1.pigeonClaimed g = true →
        exec (.pigeonholeMessageFrame ⟨false, n⟩ f) s = .next (s1.peerReply n g tg 6)) ∧
      (s1.regBit (.pigeonOwn g) 31 = true → s1.regBit (.pigeonOwn g) 23 = true → s1.pigeonClaimed g = false →
        ∃ v : State, exec (.pigeonholeMessageFrame ⟨false, n⟩ f) s = .next (v.pigeonSendNow g) ∧ v.regBit (.pigeonStat g) 30 = true ∧
          (∀ k, k < 16 → v.reg (.pigeonData k g) = BitVec.ofNat 32 (field b (8 + 4 * k) 4)) ∧
          v.reg (.pigeonFrom g) = BitVec.ofNat 32 (7 * 2 ^ 28 + f.seat.toNat * 2 ^ 16 + s1.regFld (.linkStat n) 8 0))) ∧
    (s.portsOut = true → 8000 ≤ f.queue.toNat → f.queue.toNat < 8064 → field b 4 1 ≠ 0 → field b 4 1 ≤ 16 →
      let o := s.txPort n
      (s.linkState o ≠ 3 → exec (.pigeonholeMessageFrame ⟨true, n⟩ f) s =
        .next { s with peerDone := s.peerDone ++ [(tg, 1)] }) ∧
      (s.linkState o = 3 → ∃ u, exec (.pigeonholeMessageFrame ⟨true, n⟩ f) s = .next u ∧ u.peerSent = s.peerSent ++ [tg] ∧
        (s.portPart o = none → (s.port o).switching = none → ∃ g, .frame o g ∈ u.out ∧ g.kind = 6 ∧
          g.queue = f.queue ∧ field (padTo 256 g.payload) 0 1 = 1 ∧ field (padTo 256 g.payload) 2 2 = field b 2 2))) ∧
    (s.portsOut = true → f.queue.toNat = 7938 → field b 0 1 = 2 → s1.carries n = true → s1.forwardTo n f = none → tg ∈ s.peerSent →
      ∃ u, exec (.pigeonholeReplyFrame n f) s = .next u ∧ u.bells = s.bells ∧ u.peerSent = s.peerSent.erase tg ∧
        u.peerDone = s.peerDone ++ [(tg, BitVec.ofNat 8 (field b 4 1))]) ∧
    (tag ∈ s.peerSent → exec (.peerReplyTimeout tag) s =
      .next { s with peerSent := s.peerSent.erase tag, peerDone := s.peerDone ++ [(tag, 1)] }) ∧
    (tag ∉ s.peerSent → exec (.peerReplyTimeout tag) s = .next s)) ∧
  (∀ (who : Issuer) (f n : Nat) (s : State), n < 64 → f < 6 →
    let mine := s.isClaimant who f n
    let busy : Host.Outcome State Fault Refusal := .next (s.setRegBit (.pigeonStat n) 27 true)
    (s.Reaches who (.pigeonSend n) true →
      (s.regBit (.pigeonOwn n) 31 = true → s.pigeonClaimed n = false → ∃ u : State, exec (.claim who f n) s = .next u ∧
        u.pigeonClaimed n = true ∧ u.isClaimant who f n = true ∧ u = { s with office := u.office } ∧
        ∀ a, a ≠ (Reg.pigeonStat n).addr → a ≠ (Reg.pigeonFrom n).addr → u.word a = s.word a) ∧
      (s.regBit (.pigeonOwn n) 31 = true → s.pigeonClaimed n = true → mine = false → exec (.claim who f n) s = busy) ∧
      (mine = false → exec (.go who f n) s = busy ∧ exec (.drop who f n) s = busy) ∧
      (mine = true → s.pigeonGo n = false →
        (s.receiverCause n = 0 → ∃ u : State, exec (.go who f n) s = .next u ∧ u.pigeonGo n = true ∧ u.doorbell (8000 + n) = true ∧
          s.out <+: u.out) ∧
        (s.receiverCause n ≠ 0 → s.receiverCause n < 8 → Bank.get noPeer s.peerMsg n = none → ∃ u : State,
          exec (.go who f n) s = .next u ∧ u.pigeonGo n = false ∧ u.pigeonClaimed n = false ∧ u.regBit (.pigeonStat n) 29 = true ∧
          u.regFld (.pigeonStat n) 26 24 = s.receiverCause n) ∧
        exec (.drop who f n) s = .next (s.setRegBit (.pigeonStat n) 30 false))) ∧
    (s.Reaches who (.pigeonTake n) true →
      (s.pigeonGo n = true → s.isReceiver who f n = true → ∃ u : State, exec (.take who f n) s = .next u ∧
        u.pigeonGo n = false ∧ u.pigeonClaimed n = false ∧ u.regBit (.pigeonStat n) 28 = true ∧ u.doorbell (8000 + n) = false ∧
        ∀ k, k < 16 → u.reg (.pigeonData k n) = s.reg (.pigeonData k n)) ∧
      (s.pigeonGo n = false ∨ s.isReceiver who f n = false → exec (.take who f n) s = .next s)) ∧
    (s.pigeonGo n = true ∨ s.pigeonClaimed n = true → ∃ u : State, exec (.pigeonholeTimeout n) s = .next u ∧
      u.pigeonGo n = false ∧ u.pigeonClaimed n = false ∧ u.regBit (.pigeonStat n) 29 = true ∧
      u.regFld (.pigeonStat n) 26 24 = if s.pigeonGo n then 4 else 5) ∧
    (s.pigeonGo n = false → s.pigeonClaimed n = false → exec (.pigeonholeTimeout n) s = .next s))

/-- BLOCK_RECEIVED, NAK and PROBE. LINK_SILENCE_TIMEOUT, LANE_FAILURE, LANE_CE_WINDOW, LANE_SWITCH_REQUEST and
LANE_SWITCH_COMPLETE. Choices of the model in it, where the spec leaves a point open: log entries 72, 109, 110, 136. -/
def Obligations.LinkLayer : Prop :=
  (∀ (s : State) (n lane : Nat) (ok : Bool) (b : Block), n < 20 →
    let y := s.port n
    let ctl := fun (e : BitVec 8) (w : BitVec 32) => Out.block n ⟨2, y.txSeq, y.mapgen, controlBody e w⟩
    ((s.linkState n = 0 ∨ y.switching ≠ none) → exec (.blockReceived n ⟨ok, lane⟩ b) s = .next s) ∧
    (s.portsOut = false → exec (.blockReceived n ⟨ok, lane⟩ b) s = .next s ∧
      ∀ q w, exec (.nak n q) s = .next s ∧ exec (.probe n w) s = .next s) ∧
    (s.portsOut = true → (s.linkState n ≠ 0 → y.switching = none → b.seq = y.rxTop →
      (b.type = 0 → y.rxTop = y.rxSeq → Bank.get (fun _ => none) y.reorder (y.rxSeq + 1).toNat = none →
        let r := cutFrames 11 (y.rxBytes ++ padTo 640 b.body)
        ∃ u, exec (.blockReceived n ⟨true, lane⟩ b) s = .next u ∧ (u.port n).rxSeq = y.rxSeq + 1 ∧ (u.port n).rxTop = y.rxTop + 1 ∧
          (u.port n).rxBytes = r.2 ∧ (u.port n).handed = y.handed ++ r.1.filter (fun f => f.kind != 3 && f.kind != 4) ∧
          u.out = s.out ∧ SameMem s u) ∧
      (b.type = 2 → ∃ u, exec (.blockReceived n ⟨true, lane⟩ b) s = .next u ∧
        (u.port n).control = y.control ++ controlEntries (padTo 640 b.body) ∧ (u.port n).rxTop = y.rxTop ∧ u.out = s.out ∧
            SameMem s u) ∧
      (b.type = 0 → Bank.get noFails y.fails y.rxTop.toNat < 7 → (∀ e ∈ y.bads, y.rxCount - e.1 < 64 → e.2 ≠ lane) →
        ∃ u, exec (.blockReceived n ⟨false, lane⟩ b) s = .next u ∧ ctl 1 (BitVec.ofNat 32 y.rxTop.toNat) ∈ u.out ∧
          u.regFld (.linkErr n) 31 16 = Nat.min 0xFFFF (s.regFld (.linkErr n) 31 16 + 1) ∧ (u.port n).rxTop = y.rxTop + 1 ∧
          (u.port n).rxSeq = y.rxSeq ∧ u.linkState n = s.linkState n) ∧
      (b.type = 0 → 7 ≤ Bank.get noFails y.fails y.rxTop.toNat → (∀ e ∈ y.bads, y.rxCount - e.1 < 64 → e.2 ≠ lane) →
        ∃ u, exec (.blockReceived n ⟨false, lane⟩ b) s = .next u ∧ u.linkState n = 4)) ∧
    (∀ (q : BitVec 12) (b : Block), (y.sent.find? fun b => b.seq == q) = some b → ∃ u, exec (.nak n q) s = .next u ∧
      (y.switching = none → .block n { b with type := 1, mapgen := y.mapgen } ∈ u.out) ∧
      (y.switching ≠ none → u.out = s.out ∧ (u.port n).txReplay = y.txReplay ++ [b]) ∧
      u.regFld (.linkErr n) 15 0 = Nat.min 0xFFFF (s.regFld (.linkErr n) 15 0 + 1)) ∧
    (∀ q : BitVec 12, (∀ b ∈ y.sent, b.seq ≠ q) →
      let s1 := s.unControl n 1 (BitVec.ofNat 32 q.toNat)
      (y.switching = none → 2048 ≤ (q - y.txSeq).toNat → exec (.nak n q) s = .next (s1.portLost n 0xFF 2)) ∧
      (y.switching ≠ none ∨ (q - y.txSeq).toNat < 2048 → exec (.nak n q) s = .next s1)) ∧
    ∀ w, ∃ u, exec (.probe n w) s = .next u ∧ SameMem s u ∧ (y.switching = none → ctl 3 w ∈ u.out) ∧
      (y.switching ≠ none → u.out = s.out ∧ (u.port n).txControl = y.txControl ++ [(3, w)]))) ∧
  (∀ (s : State) (n lane : Nat), n < 20 → s.portsOut = false → exec (.linkSilenceTimeout n) s = .next s ∧
    exec (.laneFailure n lane) s = .next s ∧ (∀ cs, exec (.laneCeWindow n cs) s = .next s) ∧
    exec (.laneSwitchRequest n lane) s = .next s ∧ exec (.laneSwitchComplete n) s = .next s) ∧
  (∀ (s : State) (n lane : Nat), n < 20 → s.portsOut = true →
    let y := s.port n
    (s.linkState n = 3 → y.switching = none → exec (.linkSilenceTimeout n) s = .next (s.portLost n 0xFF 3)) ∧
    ((s.linkState n ≠ 3 ∨ y.switching ≠ none) → exec (.linkSilenceTimeout n) s = .next s) ∧
    (lane ≠ s.spareLane n → s.laneSlot n lane ≠ none → y.switching = none → y.degraded = none →
      (s.hasSpare n = true → ∃ u, exec (.laneFailure n lane) s = .next u ∧ u.out = s.out ++ [.laneRequest n lane] ∧
        (u.port n).switching = some (lane, false)) ∧
      (s.hasSpare n = false → exec (.laneFailure n lane) s = .next (s.portLost n lane 4))) ∧
    (∀ cs : List Nat, cs.length = 5 → (∀ c ∈ cs, c ≤ s.regFld .linkLanethr 15 0) →
      exec (.laneCeWindow n cs) s = .next (s.setReg (.linkLanece n)
        (BitVec.ofNat 32 ((worst cs).1 * 65536 + Nat.min 0xFFFF (worst cs).2)))) ∧
    (∀ k, s.hasSpare n = true → y.switching = none → s.laneSlot n lane = some k → ∃ u, exec (.laneSwitchRequest n lane) s = .next u ∧
      u.out = s.out ++ [.laneAck n lane] ∧ u.regFld (.linkLanemap n) (3 * k + 5) (3 * k + 3) = s.spareLane n ∧
      u.spareLane n = 7 ∧ u.hasSpare n = false ∧ (u.port n).mapgen = y.mapgen + 1) ∧
    (y.switching = none → exec (.laneSwitchComplete n) s = .next s) ∧
    (y.switching = some (lane, true) → ∃ u, exec (.laneSwitchComplete n) s = .next u ∧ (u.port n).switching = none ∧
      s.out <+: u.out ∧ .block n ⟨2, y.txSeq, y.mapgen, controlBody 1 (BitVec.ofNat 32 y.rxSeq.toNat)⟩ ∈ u.out))

/-- R207 to R209: PORT_TRAINED, HELLO, ECHO, VERDICT, ROLL_CALL_TRAIN_TIMEOUT, RELAY_PROBE_COMPLETE on one port.
ROLL_CALL_COMPLETE: nothing while a port of the roll call has no outcome; then LINK_ROLL reports the ports, with its DONE bit.
Choices of the model in it, where the spec leaves a point open: log entries 73 to 75, 138. -/
def Obligations.RollCalls : Prop :=
  (∀ (s : State) (n : Nat), n < 20 → s.portsOut = false → (∀ lanes, exec (.portTrained n lanes) s = .next s) ∧
    (∀ f, exec (.hello n f) s = .next s ∧ exec (.verdict n f) s = .next s) ∧ (∀ rt ta, exec (.echo n rt ta) s = .next s) ∧
    exec (.rollCallTrainTimeout n) s = .next s ∧ ∀ m, exec (.relayProbeComplete n m) s = .next s) ∧
  (∀ (s : State) (n : Nat), n < 20 → s.portsOut = true →
    let y := s.port n
    let probe := Out.block n ⟨2, y.txSeq, y.mapgen, controlBody 2 (Config.stamp s.free)⟩
    (∀ lanes, laneCount lanes < 4 → ∃ u, exec (.portTrained n lanes) s = .next u ∧
        u.linkState n = (if (s.expected n).isSome then 0 else 5) ∧
      u.regFld (.linkStat n) 23 16 = (if (s.expected n).isSome then 2 else 1)) ∧
    (∀ lanes, 4 ≤ laneCount lanes → ∃ u, exec (.portTrained n lanes) s = .next u ∧ u.linkState n = 2 ∧
      u.reg (.linkLanemap n) = trainedMap (s.reg (.linkLanemap n)) lanes ∧ u.ownLeg n = 0 ∧
      (y.ownDelay = none → u.regFld (.linkDelay n) 24 16 = 0) ∧
      (s.portPart n = none → ∃ f, .frame n f ∈ u.out ∧ f.kind = 5 ∧ f.payload = s.identity n 1 0)) ∧
    (∀ f, s.linkState n = 2 → ∃ u, exec (.hello n f) s = .next u ∧ (u.port n).peer = some (peerOf (padTo 256 f.payload)) ∧
      (u.port n).probes = 0 ∧ (y.switching = none → probe ∈ u.out)) ∧
    (∀ f, s.linkState n ≠ 2 → exec (.hello n f) s = .next (s.unhand n f)) ∧
    (∀ rt ta q, s.linkState n = 2 → y.peer = some q → y.probes < 63 → ∃ u, exec (.echo n rt ta) s = .next u ∧
      (u.port n).probes = y.probes + 1 ∧ (y.switching = none → probe ∈ u.out) ∧
      u.ownLeg n = Nat.min 511 (Nat.max ((rt - ta + 1) / 2) (s.ownLeg n)) ∧
      (y.ownDelay = none → u.regFld (.linkDelay n) 24 16 = u.ownLeg n) ∧
      (y.ownDelay ≠ none → u.reg (.linkDelay n) = s.reg (.linkDelay n))) ∧
    (∀ f q, s.linkState n = 2 → y.peer = some q → y.verdictSent = true → s.judge n { q with verdict := none } = 0 →
      let v := field (padTo 256 f.payload) 72 1
      (v ≠ 0 → ∃ u, exec (.verdict n f) s = .next u ∧ u.linkState n = 4 ∧ u.regFld (.linkStat n) 23 16 = v) ∧
      (v = 0 → ∃ u, exec (.verdict n f) s = .next u ∧ u.linkState n = 3 ∧ u.regFld (.linkStat n) 23 16 = 0 ∧
        (y.ownDelay = none → u.regFld (.linkDelay n) 8 0 = contractLeg n - s.regFld (.linkDelay n) 24 16) ∧
        (y.ownDelay ≠ none → u.reg (.linkDelay n) = s.reg (.linkDelay n)))) ∧
    (s.linkState n = 1 → ∃ u, exec (.rollCallTrainTimeout n) s = .next u ∧
      u.linkState n = (if (s.expected n).isSome then 0 else 5)) ∧
    (s.linkState n ≠ 1 → exec (.rollCallTrainTimeout n) s = .next s) ∧
    ∀ m, s.regBit (.linkStat n) 26 = true →
      (420 < m → ∃ u, exec (.relayProbeComplete n m) s = .next u ∧ u.linkState n = 4 ∧ u.regFld (.linkStat n) 23 16 = 7) ∧
      (m ≤ 420 → ∃ u, exec (.relayProbeComplete n m) s = .next u ∧ u.linkState n = s.linkState n ∧
        u.regFld (.linkDelay n) 24 16 = m ∧ u.regFld (.linkDelay n) 8 0 = 420 - m)) ∧
  (∀ s : State,
    let ls := (List.range 20).filter (bit s.rollMask.toNat)
    ((∃ l ∈ ls, s.linkState l = 1 ∨ s.linkState l = 2) → exec .rollCallComplete s = .next s) ∧
    (s.portsOut = false → exec .rollCallComplete s = .next s) ∧
    (s.portsOut = true → (∀ l ∈ ls, s.linkState l ≠ 1 ∧ s.linkState l ≠ 2) → ∃ u, exec .rollCallComplete s = .next u ∧ u.rollMask = 0 ∧
      (s.rollCmd = none → u.reg .linkRoll = (s.settleFenced ls).rollWord ∧
        u.regBit .linkRoll 31 = true ∧
        (s.out ++ ls.flatMap (s.settleFenced ls).portReports) <+: u.out) ∧
      (s.regFld .testStat 31 28 = 7 → u.regFld .testStat 31 28 = 8 ∧ u.regBit .testStat 23 = true)))

/-- R294, R298, R344: a packet that the part does not take waits; a packet that fails a check ends with the check's status, and one of
a closed partition's host with no effect. R294, R295, R300, R304: taking a packet, its replies in the reply ring, and the end of a
long command. Choices of the model in it, where the spec leaves a point open: log entry 82. -/
def Obligations.CommandPackets : Prop :=
  (∀ (c : Instr) (k : Packet) (r : OpRow) (x : Bool) (s : State), packetRow c = some (k, r, x) →
    let t := s.takePacket k
    (s.takes k = false → exec c s = .next s) ∧
    (s.takes k = true →
      (k.opcode.toNat ≠ r.op → exec c s = .next (t.answer k 2 [])) ∧
      (k.opcode.toNat = r.op → k.plen.toNat ≠ r.len → exec c s = .next (t.answer k 3 [6, 0])) ∧
      (k.opcode.toNat = r.op → k.plen.toNat = r.len →
        (k.flags.toNat % 256 / 4 ≠ 0 → exec c s = .next (t.answer k 5 [2, 0])) ∧
        (k.flags.toNat < 4 →
          (∀ o, pktTail k r.len = some o → exec c s = .next (t.answer k 5 (toLE 2 o))) ∧
          (pktTail k r.len = none → (if k.issuer = .mgmt then r.mgmt else r.host) = false → exec c s = .next (t.answer k 6 [])) ∧
          (pktTail k r.len = none → (if k.issuer = .mgmt then r.mgmt else r.host) = true → x = false →
            ∀ h, pktHost k = some h → s.openTo h = false →
              ∃ st res, exec c s = .next (t.answer k st res) ∧ 4 ≤ st ∧ st ≤ 7))))) ∧
  (∀ (s : State) (k : Packet) (st : Nat) (res : Bytes),
    let seq := k.seq.toNat
    let op := k.opcode.toNat
    (∀ h, pktHost k = some h → k.ring < 256 →
      let w := s.reg (.cmdChead h k.ring)
      let next := fun i n : Nat => if i + 1 = n then 0 else (i + 1) % 4096
      (s.takePacket k).doorbell (512 * b2n h + k.ring) = false ∧
      (s.takePacket k).regFld (.cmdChead h k.ring) 11 0 = next (fld w 11 0) (ringSize (s.regFld (.cmdRctl h k.ring) 29 26)) ∧
      (s.hostUp h = true →
        let n := ringSize (s.regFld (.cmdRctl h k.ring) 25 22)
        let at_ := (s.reg (.cmdRbaseHi h k.ring)).toNat * 2 ^ 32 + (s.reg (.cmdRbaseLo h k.ring)).toNat + 32 * fld w 27 16
        let lap := fun u : State => u.regFld (.cmdChead h k.ring) 27 16 = next (fld w 27 16) n ∧
          u.regFld (.cmdChead h k.ring) 11 0 = fld w 11 0 ∧
          u.regBit (.cmdChead h k.ring) 31 = if fld w 27 16 + 1 = n then !w.toNat.testBit 31 else w.toNat.testBit 31
        let u := s.answer k st res
        u.out = s.out ++ [.hostWrite h at_ (replyBytes st seq op (w.toNat.testBit 31) true res)] ++
          (if k.flags.toNat.testBit 0 ∧ s.erasing h = false then [.vector h (s.regFld (.cmdRctl h k.ring) 21 14)] else []) ∧
        lap u ∧ SameMem s u ∧ u.cmds = s.cmds ∧
        (∀ (p : Option Bool) (arg : Nat),
          let v := s.accept k p arg
          v.out = s.out ++ [.hostWrite h at_ (replyBytes 1 seq op (w.toNat.testBit 31) false [])] ∧ lap v ∧ SameMem s v ∧
          v.cmds = s.cmds ++ [⟨s.nextCmd, k.issuer, k.ring, k.opcode, k.seq, k.flags.toNat.testBit 0, p, arg⟩]))) ∧
    (pktHost k = none → s.takePacket k = s.setDoorbell 8064 false ∧
        s.answer k st res = s.emit (.reply k.issuer k.ring ((if k.ring = 0 then [1] else [0x42, 0x56, 0x32, 0x4D, 2, 0, 0, 0]) ++
          replyBytes st seq op true true res))) ∧
    ∀ (id : Nat) (c : Outstanding), s.cmd id = some c → (s.finish id st res).cmds = s.cmds.filter (fun d => d.id != id) ∧
      SameMem s (s.finish id st res) ∧ s.out <+: (s.finish id st res).out)

/-- IDENTIFY, PART_STATE, TEST_RESULTS, FW_STATUS, EDITION_STATUS, READ_SENSORS, POWER_LIMIT and DEBUG_CHALLENGE: their results.
READ_RING and REPORT_CARD: what is written to the host, and the result. Choices of the model in it, where the spec leaves a point
open: log entries 84, 85, 145. -/
def Obligations.StatusCommands : Prop :=
  (∀ (k : Packet) (s : State),
    let t := s.takePacket k
    let p := pktOwn k
    let w := s.reg .fwStat
    let e := s.reg (.checkEdwave p)
    (s.Runs (.identify k) → exec (.identify k) s = .next (t.answer k 0 (toLE 16 s.fuses.serial.toNat
      ++ [if s.fuses.gradeB then 0x42 else 0x41] ++ toLE 1 (b2n s.fuses.stepB1) ++ toLE 1 (b2n s.fuses.twin) ++ toLE 1 s.seat
      ++ toLE 2 s.room))) ∧
    (s.Runs (.partState k) → exec (.partState k) s = .next (t.answer k 0 (toLE 4 (s.reg (.bellStat p)).toNat
      ++ toLE 4 (s.reg (.checkMark p)).toNat ++ toLE 4 (s.reg (.checkCstepLo p)).toNat))) ∧
    (s.Runs (.testResults k) → exec (.testResults k) s = .next (t.answer k 0 (toLE 4 (s.reg .testStat).toNat
      ++ toLE 4 (s.reg .testDawn).toNat ++ toLE 4 (s.reg .testDusk).toNat ++ toLE 4 (s.reg .testItem).toNat ++ toLE 2 s.dawnMs))) ∧
    (s.Runs (.fwStatus k) → exec (.fwStatus k) s = .next (t.answer k 0 (toLE 1 (b2n s.runSlot) ++ toLE 1 (fld w 29 29)
      ++ toLE 1 (fld w 31 30) ++ toLE 1 (fld w 27 24) ++ cutAt (padTo 24 (s.slot s.runSlot)) 20 4
      ++ cutAt (padTo 24 (s.slot !s.runSlot)) 20 4 ++ toLE 1 (s.slotState !s.runSlot) ++ toLE 1 s.fuses.svnPri
      ++ toLE 1 s.fuses.svnMon ++ toLE 2 (fld w 15 0)))) ∧
    (s.Runs (.editionStatus k) → exec (.editionStatus k) s = .next (t.answer k 0 (toLE 4 (s.reg (.checkEdptr p)).toNat
      ++ toLE 4 (if fld e 30 30 = 1 then ((s.part p).stagedEd.getD 0).toNat else 0)
      ++ toLE 1 (fld e 30 30 + 2 * fld e 31 31 + 4 * b2n (s.part p).released + 8 * fld e 29 29) ++ [0] ++ toLE 2 (fld e 15 0)
      ++ toLE 8 (s.reg64 (.checkEdstepLo p) (.checkEdstepHi p)).toNat))) ∧
    (s.Runs (.readSensors k) → exec (.readSensors k) s = .next (t.answer k 0 (match pktHost k with
      | some h =>
        let x := s.part h
        if s.erasing h then toLE 2 x.frozenPow ++ toLE 2 x.frozenTemp else toLE 2 x.telePow ++ toLE 2 x.teleTemp
      | none =>
        let pow := fun h : Bool => if s.erasing h then (s.part h).frozenPow else s.regFld (.powerPart h) 15 0
        toLE 2 (pow false + pow true) ++ toLE 2 (s.regFld .powerTherm 9 0)))) ∧
    (s.Runs (.powerLimit k) →
      let n := pktArg k 8 2
      (600 ≤ n → n ≤ 2200 → exec (.powerLimit k) s = .next ((t.setRegFld .powerLimit 15 0 n).answer k 0 [])) ∧
      (n < 600 ∨ 2200 < n → exec (.powerLimit k) s = .next (t.answer k 4 [8, 0]))) ∧
    (s.Runs (.debugChallenge k) →
      let n : BitVec 128 := (Config.nonce s.free).truncate 128
      ∃ v : State, exec (.debugChallenge k) s = .next (v.answer k 0 (toLE 16 n.toNat ++ toLE 4 (s.regFld .secDebug 15 0))) ∧
        v.nonce = some n ∧ v.half = none ∧ v.office = t.office)) ∧
  (∀ (k : Packet) (s : State),
    let t := s.takePacket k
    let n := pktArg k 8 1
    let first := pktArg k 12 4
    let host := (pktHost k).isSome
    (s.Runs (.readRing k) → pktSet k 9 12 = none → pktSet k 20 24 = none → n ≤ 6 → ¬ (host = true ∧ 5 ≤ n) →
      first < (if n = 6 then 16384 else (s.ringOf (pktOwn k) n).2) → 1 ≤ pktArg k 16 4 → pktArg k 16 4 ≤ 65536 →
      pktArg k 24 8 % 64 = 0 →
      let a := t.accept k (pktHost k) 0
      let v := s.ringView host (pktOwn k) n
      let es := v.read first (pktArg k 16 4)
      let alone := s.pins.fenced && !host && n == 1
      (s.hostUp (pktPort k) = true ∨ alone = true → ∃ u : State,
        exec (.readRing k) s = .next (u.finish s.nextCmd 0 (toLE 4 es.length ++ toLE 4 ((first + es.length) % v.cap) ++ toLE 4 v.lost)) ∧
        u.out = a.out ++ (if es.isEmpty then []
          else [if alone then .mgmtRecords es.flatten else .hostWrite (pktPort k) (pktArg k 24 8) es.flatten]) ∧ SameMem s u) ∧
      (s.hostUp (pktPort k) = false → alone = false → exec (.readRing k) s = .next (a.finish s.nextCmd 0x000A []))) ∧
    (s.Runs (.reportCard k) → pktArg k 8 8 % 64 = 0 →
      let a := t.accept k (pktHost k) 0
      let nonce := toLE 32 (Config.nonce s.free).toNat
      let card := a.measBody 0 (blocksOf (pktHost k)) nonce
      let req := [0x12, 0xE0, 1, 0xFF] ++ (k.params.drop 8).take 32 ++ [0]
      let r := card ++ padTo 96 (Config.cardSig (s.free + 1) (req ++ card))
      (s.hostUp (pktPort k) = true → ∃ u : State, exec (.reportCard k) s = .next (u.finish s.nextCmd 0 (toLE 4 r.length)) ∧
        u.out = a.out ++ [.hostWrite (pktPort k) (pktArg k 8 8) r] ∧ SameMem s u) ∧
      (s.hostUp (pktPort k) = false → exec (.reportCard k) s = .next (a.finish s.nextCmd 0x000A []))))

/-- RESET_PARTITION, CLEAR_RETAINED, ASSIGN_PARTITIONS, ERASER_PASS and ERASER_PASS_COMPLETE. Choices of the model in it, where
the spec leaves a point open: log entries 58, 59, 143. -/
def Obligations.PartitionManagement : Prop :=
  ∀ (k : Packet) (s : State) (p : Bool),
    let t := s.takePacket k
    let fields := s.partFields p
    let quiet := fun v : State => v.lesson p = none ∧ v.running p = false ∧ (v.part p).rcl = none ∧
      (∀ c, c < 512 → chanPart c = p → v.chState c ≠ 1 ∧ v.chState c ≠ 3 ∧ v.regBit (.dmaChctl c) 31 = false) ∧
      (∀ a, inFields fields a = true → v.word a = resetWord a) ∧ (∀ n, n < 2500 → bit fields (n / 625) = false → v.tile n = s.tile n)
    (s.Runs (.resetPartition k) → pktPart k = some p → s.erasing p = false → ∃ v : State,
      exec (.resetPartition k) s = .next (v.finish s.nextCmd 0 []) ∧ quiet v ∧ v.regBit (.secPstat p) 29 = false ∧
        v.regBit (.secPstat p) 28 = (s.regBit (.secPstat p) 28 && !(s.part p).fenceSwept) ∧ v.regFld .testStat 27 25 = 3) ∧
    (s.Runs (.clearRetained k) → s.running false = false → s.running true = false →
      exec (.clearRetained k) s = .next (((t.accept k none 0).setRegBit .testRetain 31 true).finish s.nextCmd 0 [])) ∧
    (s.Runs (.assignPartitions k) →
      let a := pktArg k 8 1
      let b := pktArg k 9 1
      a < 16 → b < 16 → (∀ f, f < 4 → ¬ (bit a f = true ∧ bit b f = true)) → s.anyLesson = false → s.erasing false = false →
      s.erasing true = false → s.mayAssign false (s.partFields false) a = true → s.mayAssign true (s.partFields true) b = true →
      ∃ v : State, exec (.assignPartitions k) s = .next (v.answer k 0 []) ∧ v.partFields false = a ∧ v.partFields true = b ∧
        (∀ f, f < 4 → bit a f = true → bit (s.partFields false) f = false → v.part0.closed = true) ∧
        (∀ f, f < 4 → bit b f = true → bit (s.partFields true) f = false → v.part1.closed = true) ∧ v.tiles = s.tiles) ∧
    (s.Runs (.eraserPass k) → pktPart k = some p → s.erasing p = false → ∃ u : State, exec (.eraserPass k) s = .next u ∧
      quiet u ∧ u.erasing p = true ∧ u.regBit (.secPstat p) 27 = true ∧ u.swept p = s.swept p ∧
      ∃ c, (u.part p).scope = some c ∧ c.fields.toNat = fields) ∧
    (s.erasing p = false → ∀ bad, exec (.eraserPassComplete p bad) s = .next s) ∧
    (s.erasing p = true →
      let c := ((s.part p).scope).getD (s.scopeOf p)
      (∃ u : State, exec (.eraserPassComplete p none) s = .next u ∧
        (∀ n sh a, bit c.fields.toNat (n / 625) = true → u.memAt n sh a = 0) ∧
        (∀ a, span (65536 * c.base) (65536 * c.count) a ∨ span (pageTable p) 0x01000000 a ∨
          (∃ f, f < 4 ∧ bit c.fields.toNat f = true ∧ span (saveSlot f) 0xF0000000 a) → Bank.byte u.stash a = 0) ∧
        (∀ n sh a, bit c.fields.toNat (n / 625) = false → u.memAt n sh a = s.memAt n sh a) ∧
        u.swept p = true ∧ u.erasing p = false ∧ u.regBit (.secPstat p) 27 = false ∧ (u.part p).closed = false) ∧
      ∀ bad, ∃ u : State, exec (.eraserPassComplete p (some bad)) s = .next u ∧ u.erasing p = false ∧
        u.regBit (.secPstat p) 28 = true ∧ u.swept p = s.swept p)

/-- LOAD_CAMPUS_PLAN, ROLL_CALL, SUBSTITUTE and SHUTDOWN. Choices of the model in it, where the spec leaves a point open: log
entries 44, 59, 75, 113, 134, 138. -/
def Obligations.CampusAndSeats : Prop :=
  ∀ (k : Packet) (s : State),
    let t := s.takePacket k
    (s.Runs (.loadCampusPlan k) → pktArg k 8 8 % 64 = 0 → pktArg k 16 4 ≤ 147520 → s.anyLesson = false → ∀ b, k.data = some b →
      let plan := b.take (pktArg k 16 4)
      (plan.length = pktArg k 16 4 → planOk plan = true → ∃ v : State,
        exec (.loadCampusPlan k) s = .next (v.finish s.nextCmd 0 []) ∧ v.retained = { s.retained with newPlan := plan }) ∧
      (plan.length ≠ pktArg k 16 4 ∨ planOk plan = false →
        exec (.loadCampusPlan k) s = .next ((t.accept k none 0).finish s.nextCmd 0x000A []))) ∧
    (s.Runs (.rollCall k) → pktArg k 8 4 < 2 ^ 20 → s.rollMask ≠ 0 ∨ s.rollCmd ≠ none ∨ s.portsOut = false →
      exec (.rollCall k) s = .next (t.answer k 7 [])) ∧
    (s.Runs (.rollCall k) → pktArg k 8 4 < 2 ^ 20 → s.rollMask = 0 → s.rollCmd = none → s.portsOut = true →
      ∃ u : State, exec (.rollCall k) s = .next u ∧ u.rollMask.toNat = pktArg k 8 4 ∧ u.rollCmd = some s.nextCmd ∧
        u.regBit .linkRoll 31 = false ∧
        ∀ l, l < 20 → u.linkState l = (if bit (pktArg k 8 4) l then 1 else s.linkState l) ∧
          (bit (pktArg k 8 4) l = true → (u.port l).peer = none)) ∧
    (s.Runs (.substitute k) → ∀ (p : Bool) (d : Bytes) (q : Nat),
      let n := pktArg k 8 1
      let image := (s.part p).image
      n ≤ 15 → (s.seat = substituteOf n ∨ (16 ≤ s.seat ∧ s.seat < 18 ∧ s.rooms = 1)) → s.standbyPart = some p → (s.part p).subst = [] →
      (∀ o, ∀ e ∈ (s.part o).subst, e.2 ≠ s.seat) → s.farTaken image = false → s.recalling p = false → k.data = some d →
          s.logicalPart n (field image 16 4) ((field image 10 2).testBit 1) = some q →
      ∃ v : State, exec (.substitute k) s = .next (v.finish s.nextCmd 0 []) ∧ v.lesson p = some (lessonOf image q false) ∧
        (n, s.seat) ∈ (v.part p).subst ∧ (v.part p).scalars = (takeTold d).2.2.1 ∧ v.rebuilding p = true ∧
            v.cstep64 p = BitVec.ofNat 64 (field d 0 8) ∧
        v.mstep64 p = BitVec.ofNat 64 (field d 0 8) ∧
        ((lessonOf image q false).mirrorBytes ≠ 0 → (v.part p).healPos = some 0)) ∧
    (s.Runs (.shutdown k) → s.running false = false → s.running true = false →
      exec (.shutdown k) s = .next ((t.accept k none 0).setRegFld .testStat 31 28 9))

/-- LESSON_LOAD and its end, LESSON_START, LESSON_HALT, LESSON_UNLOAD and SET_SCALAR. RESHARD: entries of an accepted table whose
source and destination lie in this part's shelf memory move; and its end. Choices of the model in it, where the spec leaves a
point open: log entries 45, 48, 49, 52 to 54, 133, 134. -/
def Obligations.LessonAndReshard : Prop :=
  (∀ (k : Packet) (s : State) (p : Bool),
    let t := s.takePacket k
    let q := pktOwn k
    let x := s.part q
    let idle := s.lessonRuns q = false ∧ s.recalling q = false
    (s.Runs (.lessonLoad k) → pktArg k 24 1 < 2 → pktArg k 8 8 % 64 = 0 → idle → x.loading = none → ∀ b, k.data = some b →
      exec (.lessonLoad k) s = .next ((t.accept k (some q) 0).setPart q
        { x with loading := some (b.take (pktArg k 16 8), bit (pktArg k 24 1) 0, s.nextCmd) })) ∧
    ((s.part p).loading = none → exec (.lessonLoadComplete p) s = .next s) ∧
    (∀ b standby id, (s.part p).loading = some (b, standby, id) →
      let s1 := s.setPart p { s.part p with loading := none }
      (∀ r, s.lessonBad p b standby = some r → exec (.lessonLoadComplete p) s = .next ((s1.resumeChans p).finish id 9 (rejectBytes r))) ∧
      (s.lessonBad p b standby = none → (s.pauseChans p).chansRun p = true → exec (.lessonLoadComplete p) s = .next (s.pauseChans p)) ∧
      (s.lessonBad p b standby = none → (s.pauseChans p).chansRun p = false → ∃ v : State,
        exec (.lessonLoadComplete p) s = .next ((v.resumeChans p).finish id 0 (toLE 2 0 ++ cutAt b 32 4)) ∧ v.swept p = false ∧
        (v.part p).loading = none ∧
        (standby = true → v.lesson p = none ∧ (v.part p).image = b) ∧
        (standby = false →
          let l := lessonOf b ((s.logicalPart s.seat (field b 16 4) ((field b 10 2).testBit 1)).getD 0) false
          v.lesson p = some l ∧
          ∀ n c, n < 16 → l.classes[n]? = some c → v.reg (.bellPeriod p n) = BitVec.ofNat 32 c.1 ∧
            v.reg (.bellRecess p n) = BitVec.ofNat 32 c.2.1 ∧ v.reg (.bellWork p n) = BitVec.ofNat 32 c.2.2))) ∧
    (s.Runs (.lessonStart k) → ∀ l, x.lesson = some l → idle → x.saved = none → s.chanUses q [2, 3] = false → x.failedSets = [] →
      x.reshard ≠ some (digest32 l.digest, false) →
      (s.regFld (.checkMirror q) 31 16 ≤ 1 ∨ s.regFld (.checkMstage q) 20 0 ≠ 0) → s.padBad q l.cols l.me = none → x.preReq = none →
      s.fw.act = none →
      let n := BitVec.ofNat 64 (pktArg k 8 8)
      ∃ v : State, exec (.lessonStart k) s = .next ((v.drainPorts q).answer k 0 []) ∧ v.running q = true ∧ (v.part q).idx = 0 ∧
        v.step64 q = n + 1 ∧ v.cstep64 q = n ∧ v.mstep64 q = n ∧ v.pnum q = 0 ∧ v.attempt q = 0) ∧
    (s.Runs (.lessonHalt k) →
      (∀ h, (pktHost k = some h ∨ pktHost k = none) → (s.lessonRuns h = true ∨ s.recalling h = true) →
        ∃ u : State, exec (.lessonHalt k) s = .next u ∧ (u.part h).haltReq = true ∧ SameMem s u ∧
            u.office = (t.accept k none 0).office) ∧
      ((∀ h, (pktHost k = some h ∨ pktHost k = none) → s.lessonRuns h = false ∧ s.recalling h = false) →
        exec (.lessonHalt k) s = .next ((t.accept k (pktHost k) 0).finish s.nextCmd 0 []))) ∧
    (s.Runs (.lessonUnload k) → idle → s.chanUses q [1, 2, 3] = false → ∃ v : State,
      exec (.lessonUnload k) s = .next (v.answer k 0 []) ∧ v.lesson q = none ∧ (v.part q).image = [] ∧
        (∀ a, span (pageTable q) 0x01000000 a → Bank.byte v.stash a = 0) ∧ ∀ n sh a, v.memAt n sh a = s.memAt n sh a) ∧
    (s.Runs (.setScalar k) → pktSet k 9 12 = none →
      let n := BitVec.ofNat 64 (pktArg k 16 8)
      let slot := pktArg k 8 1
      slot ≤ 63 → s.step64 q < n → s.recalling q = false → ∃ v : State, exec (.setScalar k) s = .next (v.answer k 0 []) ∧
        (slot, n, BitVec.ofNat 32 (pktArg k 12 4)) ∈ (v.part q).scalars ∧
        (∀ e ∈ (v.part q).scalars, e.1 = slot → e.2.1 = n → e.2.2 = BitVec.ofNat 32 (pktArg k 12 4)) ∧
        ∀ e : Nat × BitVec 64 × Word, ¬ (e.1 = slot ∧ e.2.1 = n) → (e ∈ (v.part q).scalars ↔ e ∈ x.scalars))) ∧
  (∀ (k : Packet) (s : State) (p : Bool) (l : Lesson),
    (s.Runs (.reshard k) → pktOwn k = p → pktArg k 8 8 % 64 = 0 → pktArg k 16 4 % 32 = 0 → s.lesson p = some l →
      s.lessonRuns p = false → s.recalling p = false → s.cmdOf 0x0205 (some p) = none →
      digest32 l.digest = BitVec.ofNat 32 (pktArg k 20 4) → ∀ b, k.data = some b → pktArg k 16 4 ≤ b.length →
      let es := (entries 32 (b.take (pktArg k 16 4))).map permuteOf
      s.tableOk p l es = true → ∃ u : State, exec (.reshard k) s = .next u ∧
        (u.part p).reshard = some (digest32 l.digest, false) ∧ (∃ c, u.cmdOf 0x0205 (some p) = some c) ∧
        ∀ e ∈ es, e.part = l.me → e.src = 0 → e.dst = 0 → ∀ t t', s.physTile l.cols e.sRow e.sCol = some t →
          s.physTile l.cols e.dRow e.dCol = some t' → ∀ j, j < e.len → u.shelfAt t' (e.dAddr + j) = s.shelfAt t (e.sAddr + j)) ∧
    (s.cmdOf 0x0205 (some p) = none → ∀ ok as, exec (.reshardComplete p ok as) s = .next s) ∧
    ∀ c, s.cmdOf 0x0205 (some p) = some c → s.lesson p = some l →
      (∀ ok, (ok = false ∨ (s.namedPorts p).all s.portUp = false) →
        ∀ as, exec (.reshardComplete p ok as) s = .next ((s.setPart p { s.part p with shardIn := [] }).finish c.id 0x000A [])) ∧
      ((s.namedPorts p).all s.portUp = true → ∀ as, (s.part p).shardDone as = false → exec (.reshardComplete p true as) s = .next s) ∧
      ((s.namedPorts p).all s.portUp = true → (s.part p).shardIn = [] → exec (.reshardComplete p true []) s =
        .next ((s.setPart p { s.part p with reshard := some (digest32 l.digest, true), shardIn := [] }).finish c.id 0 [])) ∧
      ∀ (a : Arrival) t, (s.namedPorts p).all s.portUp = true → (s.part p).shardDone [a] = true → a.mem = 0 →
          s.physTile l.cols a.row a.col = some t → s.tilePart t = some p →
        a.addr + a.data.length ≤ 0x400000 → ∃ u : State, exec (.reshardComplete p true [a]) s = .next u ∧
          ∀ x, u.shelfAt t x = if a.addr ≤ x ∧ x < a.addr + a.data.length then a.data.getD (x - a.addr) 0 else s.shelfAt t x)

/-- WEIGHT_LOAD, the reads that answer it, its end, EDITION_SWITCH, and the copies of a wave. STORAGE_CONNECTION_RECORD and
STORAGE_CONNECTION_FAILURE. Choices of the model in it, where the spec leaves a point open: log entries 55, 56, 99, 107, 133. -/
def Obligations.WeightLoadsAndStorage : Prop :=
  (∀ (k : Packet) (s : State) (p : Bool) (l : Lesson),
    let x := s.part p
    let t := s.takePacket k
    x.lesson = some l →
    (s.Runs (.weightLoad k) → pktOwn k = p → pktSet k 21 24 = none → pktArg k 8 8 % 64 = 0 →
      let stage := pktArg k 20 1 == 1
      pktArg k 20 1 ≤ 1 → (stage = true → pktArg k 24 8 % 65536 = 0 ∧ x.stagedEd = none ∧ x.wave = none) → x.load = none →
      (stage = false → s.running p = false ∧ s.rebuilding p = false ∧ x.saving = none ∧ s.regBit (.secPstat p) 29 = false) → ∀ d,
          k.data = some d →
      let b := d.take (pktArg k 16 4)
      b.length = pktArg k 16 4 → s.manifestOk p l b = true →
      (∀ e ∈ manifestEnts b, s.regBit (.dmaLdconn e.conn) 31 = true) →
      (∀ e ∈ manifestSets b, s.regBit (.dmaLdconn e.conn) 31 = true) →
      ∃ (u : State) (w : WLoad), exec (.weightLoad k) s = .next u ∧ (u.part p).load = some w ∧ w.ents = manifestEnts b ∧
        w.roots = (manifestSets b).map (·.root) ∧ w.nodes = (manifestSets b).map (fun e => (e.node, e.conn)) ∧ w.stage = stage ∧
            w.cmd = s.nextCmd ∧ w.leaves = [] ∧ w.bytes = 0 ∧
        u.regBit .dmaLdstat 31 = true ∧ u.out = (t.accept k (some p) 0).out ++ w.ents.flatMap (entReads l w) ++
          (if entsDone l w = w.ents.length then nodeReads l w else []) ∧ SameMem s u) ∧
    (∀ w e te, x.load = some w →
      let f := fun i => leafAt (l.shape e) e i
      (∀ i n data, w.ents[i]? = some e → e.conn < 16 → l.tensor e.tensor = some te → n ∈ entLeaves l w e →
        (data.length = leafBytes te (l.shape e) e (f n) → ∃ u : State, exec (.rdmaReadResponse p i n data) s = .next u ∧
          u.stash = (s.takeLeaf p l w te i n e data).1.stash ∧ u.tiles = (s.takeLeaf p l w te i n e data).1.tiles ∧
          ((e.conv = false ∨ 5 ≤ e.lr) →
            u.stash = (s.placeLeaf p l w te e (f n) data).stash ∧ u.tiles = (s.placeLeaf p l w te e (f n) data).tiles) ∧
          ∃ w', (u.part p).load = some w' ∧ w'.bytes = w.bytes + data.length ∧ (i, n, leafHash data) ∈ w'.leaves ∧
            ∀ y ∈ w'.leaves, y.1 = i → y.2.1 = n → y.2.2 = leafHash data) ∧
        (data.length ≠ leafBytes te (l.shape e) e (f n) → ∃ u : State, exec (.rdmaReadResponse p i n data) s = .next u ∧
          (u.part p).load = none ∧ u.regFld (.dmaLdconn e.conn) 15 0 = Nat.min 0xFFFF (s.regFld (.dmaLdconn e.conn) 15 0 + 1)))) ∧
    (∀ w nodes, x.load = some w → entsDone l w = w.ents.length →
      let right := fun i => setRoot l w i (nodes.getD i []) = w.roots.getD i []
      ((∀ i, i < w.roots.length → right i) → s.badSidecar p l w = none → ∃ v : State,
        exec (.weightLoadComplete p nodes) s = .next (v.finish w.cmd 0 (loadResults l w 0xFFFFFFFF 0 false)) ∧
        (v.part p).load = none ∧ (∀ i, i < w.roots.length → (setKey w i, w.roots.getD i []) ∈ (v.part p).roots) ∧
        (w.stage = true → (v.part p).stagedEd = some (s.reg (.checkEdptr p) + 1) ∧ v.regBit (.checkEdwave p) 30 = true)) ∧
      ∀ i, i < w.roots.length → i < 64 → ¬ right i → (∀ j, j < i → right j) → ∃ (v : State) (n : Nat),
        exec (.weightLoadComplete p nodes) s = .next (v.finish w.cmd 0x000A (loadResults l w n i false)) ∧
        (v.part p).load = none ∧ (∀ j, j < w.roots.length → right j → (setKey w j, w.roots.getD j []) ∈ (v.part p).roots) ∧
        (∀ r ∈ (v.part p).roots, r ∈ x.roots ∨ ∃ j, j < w.roots.length ∧ right j ∧ r = (setKey w j, w.roots.getD j [])) ∧
        (w.stage = false → setKey w i ∈ (v.part p).failedSets) ∧
        v.regBit .dmaLdstat 30 = true ∧ v.regFld .dmaLdstat 29 24 = i) ∧
    (s.Runs (.editionSwitch k) → pktOwn k = p → BitVec.ofNat 32 (pktArg k 8 4) = s.reg (.checkEdptr p) + 1 →
      s.regBit (.checkEdwave p) 30 = true → x.wave = none → ∃ v : State,
      exec (.editionSwitch k) s = .next (v.answer k 0 (toLE 8 (s.step64 p + 1).toNat)) ∧
      v.reg64 (.checkEdstepLo p) (.checkEdstepHi p) = s.step64 p + 1 ∧ v.reg (.checkEdptr p) = s.reg (.checkEdptr p) ∧
      v.regFld (.checkEdwave p) 31 30 = 2 ∧ ∃ w, (v.part p).wave = some w ∧ w.s = s.step64 p + 1 ∧ w.left = s.waveRegions l) ∧
    ∀ w tile n, x.wave = some w → (tile, n) ∈ w.opened → s.regBit (.secPstat p) 29 = false → tile < 2500 → n < 64 →
      exec (.waveRegionCopyComplete p tile n false) s = .next (s.setRegBit (.checkEdwave p) 29 true) ∧
      let r := s.readImages p l ((s.regionCopies p l tile n).map (·.2)).eraseDups
      (r.1 ≠ [] → exec (.waveRegionCopyComplete p tile n true) s = .next (r.2.readAgain p l r.1)) ∧
      (r.1 = [] → ∃ v : State, (exec (.waveRegionCopyComplete p tile n true) s = .next v ∨
          exec (.waveRegionCopyComplete p tile n true) s = .next (v.waveOpen p)) ∧
        v.edition tile n = s.edition tile n + 1 ∧ v.regionOpen tile n = false ∧ v.stash = (r.2.copyRegion p l tile n).stash ∧
        ∀ m sh a, v.memAt m sh a = (r.2.copyRegion p l tile n).memAt m sh a)) ∧
  (∀ (s : State) (b : Bytes),
    let n := field b 0 1
    let port := field b 2 1
    let reply := fun st : Nat => Out.datagram ([0x42, 0x56, 0x32, 0x4D, 4, 0, 0, 0] ++ toLE 1 n ++ toLE 1 st ++ List.replicate 6 0)
    (s.pins.mgmt = false ∨ b.length ≠ 64 → exec (.storageConnectionRecord b) s = .next s) ∧
    (s.pins.mgmt = true → b.length = 64 →
      (16 ≤ n ∨ 2 ≤ field b 1 1 ∨ 2 ≤ port ∨ 2 ≤ field b 3 1 → exec (.storageConnectionRecord b) s = .next (s.emit (reply 1))) ∧
      (n < 16 → field b 1 1 < 2 → port < 2 → field b 7 1 = 0 → field b 11 1 = 0 → zeroAt b 40 24 = true →
        (field b 3 1 < 2 → s.connBusy n = true → exec (.storageConnectionRecord b) s = .next (s.emit (reply 2))) ∧
        (field b 3 1 = 1 → s.connBusy n = false → s.regBit .secPortown (20 + port) = decide (field b 1 1 = 1) →
          s.erasing (decide (field b 1 1 = 1)) = false → ∃ u : State, exec (.storageConnectionRecord b) s = .next u ∧
          u.out = s.out ++ [reply 0] ∧ Bank.get (fun _ => []) u.retained.conns n = b ∧
          u.reg (.dmaLdconn n) = BitVec.ofNat 32 (2 ^ 31 + 2 ^ 30 * port + 2 ^ 29 * field b 1 1)) ∧
        (field b 3 1 = 0 → s.connBusy n = false → ∃ u : State, exec (.storageConnectionRecord b) s = .next u ∧
          u.out = s.out ++ [reply 0] ∧ Bank.get (fun _ => []) u.retained.conns n = [] ∧ u.reg (.dmaLdconn n) = 0))) ∧
    ∀ c, c < 16 →
      let p := s.regBit (.dmaLdconn c) 29
      let again := (s.part p).fix.any fun w => w.want.any fun y => (w.ents[y.1]?).any fun e => e.staged && e.conn == c
      ∃ u : State, exec (.storageConnectionFailure c) s = .next u ∧ u.regBit (.dmaLdconn c) 31 = false ∧
        (∀ w, (s.part p).load = some w → (s.lesson p).isSome = true → w.uses c = true → (u.part p).load = none) ∧
        u.regBit (.checkEdwave p) 29 = (s.regBit (.checkEdwave p) 29 || again) ∧
        u.tiles = s.tiles ∧ u.stash = s.stash)

/-- RECALL and RESUME by management; PREEMPT, its save, RESUME_PARTITION and its restore. Choices of the model in it, where the
spec leaves a point open: log entries 39, 42, 60, 61. -/
def Obligations.StepControl : Prop :=
  ∀ (k : Packet) (s : State) (p : Bool),
    let t := s.takePacket k
    (s.Runs (.mgmtRecall k) → pktArg k 8 1 < 2 →
      let job := fun q => (s.lesson q).isSome && (s.lessonRuns q || s.recalling q)
      let halt := bit (pktArg k 8 1) 0
      (job p = true → job (!p) = false → exec (.mgmtRecall k) s =
        .next ((t.accept k none (2 ^ b2n p)).recall p (2 ^ 12) (s.pnum p) halt)) ∧
      (job false = true → job true = true → ∃ v : State, v = (t.accept k none 3).recall false (2 ^ 12) (s.pnum false) halt ∧
        exec (.mgmtRecall k) s = .next (v.recall true (2 ^ 12) (v.pnum true) halt)) ∧
      (job false = false → job true = false → exec (.mgmtRecall k) s = .next (t.answer k 7 []))) ∧
    (s.Runs (.resume k) →
      (∀ l, s.holding p = true → s.holding (!p) = false → s.lesson p = some l →
        let streams := !(s.part p).restores.isEmpty && !s.unanswered p
        (streams = true → exec (.resume k) s = .next (t.answer k 7 [])) ∧
        (streams = false → s.substituted p = true →
          exec (.resume k) s = .next ((((t.endRecall p).replay p l).finishFor 0x0402 p 0).answer k 0 [])) ∧
        (streams = false → s.substituted p = false → exec (.resume k) s = .next ((t.jobEnds p).answer k 0 []))) ∧
      (s.holding false = false → s.holding true = false → exec (.resume k) s = .next (t.answer k 7 []))) ∧
    (s.Runs (.preempt k) → pktPart k = some p → s.regFld (.secPstat p) 30 28 = 0 → (s.part p).preReq = none →
      (s.part p).saving = none → s.slotPermanent p = false → s.recalling p = false →
      (s.erasing (!p) = false →
        exec (.preempt k) s = .next ((t.accept k (some p) 0).setPart p { s.part p with preReq := some s.nextCmd })) ∧
      (s.erasing (!p) = true → exec (.preempt k) s = .next (t.answer k 7 []))) ∧
    ((s.part p).saving = none → exec (.preemptSaveComplete p) s = .next s) ∧
    (∀ id, (s.part p).saving = some id →
      (s.chansRun p = true ∨ s.waveCopies p = true → exec (.preemptSaveComplete p) s = .next s) ∧
      (s.chansRun p = false → s.waveCopies p = false →
        let r := s.readMarked p
        exec (.preemptSaveComplete p) s = .next ((((r.writeSlots p).setPart p { r.part p with
          saving := none, saved := some (r.savedOf p) }).setRegBit (.secPstat p) 29 true).finish id 0 []) ∧
        ((∀ n ∈ s.partTiles p, (s.tile n).errs = []) → r = s))) ∧
    (s.Runs (.resumePartition k) → pktPart k = some p →
      (s.regBit (.secPstat p) 29 = true → s.cmdOf 0x0405 (some p) = none →
        exec (.resumePartition k) s = .next (t.accept k (some p) 0)) ∧
      (s.regBit (.secPstat p) 29 = false → exec (.resumePartition k) s = .next (t.answer k 7 []))) ∧
    (s.cmdOf 0x0405 (some p) = none → ∀ bad, exec (.partitionRestoreComplete p bad) s = .next s) ∧
    ∀ c v l, s.cmdOf 0x0405 (some p) = some c → (s.part p).saved = some v → s.lesson p = some l →
      (∀ n f, f < 4 → bit (s.partFields p) f = true → span (saveSlot f) 0xF0000000 (64 * n) → ∃ w : State,
        exec (.partitionRestoreComplete p (some n)) s = .next ((w.fencePartition p).finish c.id 0x000A []) ∧
        (w.fencePartition p).regBit (.secPstat p) 28 = true ∧ (w.fencePartition p).running p = false ∧ SameMem s w) ∧
      let r := s.readSlots p
      (r.1 = true → exec (.partitionRestoreComplete p none) s = .next ((r.2.fencePartition p).finish c.id 0x000A [])) ∧
      (r.1 = false → ∃ u : State, exec (.partitionRestoreComplete p none) s = .next ((u.goOn p l).finish c.id 0 []) ∧
        u.regBit (.secPstat p) 29 = false ∧ (u.part p).saved = none ∧ u.stash = s.stash ∧
        ∀ n x, (n, x) ∈ v.tiles → (∀ y, (n, y) ∈ v.tiles → y = x) → u.tile n = s.withImages n x)

/-- FW_WRITE and its end, FW_ACTIVATE, FW_ACTIVATE_WITHDRAW, FW_PAUSE_COMPLETE, FW_CONFIRM, TRIAL_TIMEOUT and WATCHDOG_LAPSE.
Choices of the model in it, where the spec leaves a point open: log entries 62 to 64, 144, 147. -/
def Obligations.FirmwareUpdate : Prop :=
  ∀ (k : Packet) (s : State),
    let t := s.takePacket k
    let other := !s.runSlot
    let phase := fun v : State => v.regFld .fwStat 31 30
    let up := fun (v : State) (slot : Bool) => v.runSlot = slot ∧ v.regFld .fwMonstat 11 0 = 1 ∧ v.regFld .testStat 27 25 = 4 ∧
      v.fwPaused = true
    let runs := fun v : State => up v other ∧ phase v = 3 ∧ v.regFld .fwStat 15 0 = 60
    let falls := fun (v : State) (slot : Bool) => up v s.prefSlot ∧ phase v = 2 ∧ v.regFld .fwStat 15 0 = 0 ∧
      v.slotState slot = 2 ∧ v.regBit .fwStat 28 = true ∧ v.fw.trialCmd = none
    (s.Runs (.fwWrite k) → pktArg k 20 1 = 0 → pktArg k 21 1 ≤ 1 → pktArg k 22 1 ≤ 15 → (pktArg k 21 1 = 0 → pktArg k 22 1 = 0) →
      pktArg k 23 1 = 0 → pktArg k 8 8 % 64 = 0 → s.fwBusy = false → ∀ d, k.data = some d → pktArg k 16 4 ≤ d.length →
      pktArg k 16 4 ≤ 16777216 → ∃ u : State, exec (.fwWrite k) s = .next u ∧
        u.fw = { s.fw with writing := some (s.nextCmd, d.take (pktArg k 16 4)) } ∧ u.slotState other = 0 ∧ phase u = 1) ∧
    (∀ id b, s.fw.writing = some (id, b) →
      let n := s.bundleOutcome b
      (∃ v : State, exec (.fwWriteComplete true) s = .next (v.finish id (if n = 0 then 0 else if n = 1 then 12 else 10)
          (toLE 4 b.length ++ toLE 1 n)) ∧
        v.slot other = b ∧ v.slot s.runSlot = s.slot s.runSlot ∧ v.slotState other = (if n = 0 then 1 else 0) ∧
        v.regFld .fwStat 27 24 = n ∧ phase v = 0 ∧ v.fw.writing = none ∧ v.fuses = s.fuses) ∧
      ∃ v : State, exec (.fwWriteComplete false) s = .next (v.finish id 10 (toLE 4 b.length ++ toLE 1 6)) ∧ v.slot other = b ∧
        v.slotState other = s.slotState other ∧ v.regFld .fwStat 27 24 = 6 ∧ phase v = 0 ∧ v.fw.writing = none) ∧
    (s.Runs (.fwActivate k) →
      (s.slotState other = 1 → s.fwBusy = false → s.recalling false = false → s.recalling true = false →
        ∃ u : State, exec (.fwActivate k) s = .next u ∧
          (s.running false = true ∨ s.running true = true → phase u = 2 ∧ ∃ a, u.fw.act = some a ∧ a.cmd = some s.nextCmd ∧
            a.wait0 = s.running false ∧ a.wait1 = s.running true ∧ a.fallback = false ∧ a.started = false ∧
            a.step0 = (if pktArg k 8 8 = 0 then s.step64 false + 1 else BitVec.ofNat 64 (pktArg k 8 8)) ∧
            a.step1 = (if pktArg k 16 8 = 0 then s.step64 true + 1 else BitVec.ofNat 64 (pktArg k 16 8))) ∧
          (s.running false = false → s.running true = false →
            (s.bundleOutcome (s.slot other) = 0 → runs u ∧ u.fw.trialCmd = some s.nextCmd) ∧
            (s.bundleOutcome (s.slot other) ≠ 0 → falls u other))) ∧
      (s.slotState other ≠ 1 → exec (.fwActivate k) s = .next (t.answer k 7 []))) ∧
    (s.fw.act = none → exec .fwActivateWithdraw s = .next s ∧ exec .fwPauseComplete s = .next s) ∧
    (∀ a, s.fw.act = some a →
      (a.fallback = false → a.started = false → ∃ v : State,
        exec .fwActivateWithdraw s = .next (((v.restartPart false false).restartPart true false).endAct a.cmd 8) ∧
        v.fw = { s.fw with act := none } ∧ phase v = 0 ∧ v.runSlot = s.runSlot) ∧
      (a.fallback = true ∨ a.started = true → exec .fwActivateWithdraw s = .next s) ∧
      (∀ p stop, a.started = false → (if p then a.wait0 else a.wait1) = false →
        let u := s.fwArrive p stop
        (a.fallback = true → falls u s.runSlot) ∧
        (a.fallback = false → s.bundleOutcome (s.slot other) = 0 → runs u ∧ u.fw.trialCmd = a.cmd ∧ u.fw.before = s.upMask ∧
          u.fw.due0 = (a.stopped0 || (!p && stop)) ∧ u.fw.due1 = (a.stopped1 || (p && stop))) ∧
        (a.fallback = false → s.bundleOutcome (s.slot other) ≠ 0 → falls u other)) ∧
      (a.started = false ∨ s.regFld .fwMonstat 11 0 ≠ 0xAAA → exec .fwPauseComplete s = .next s) ∧
      (a.started = true → s.regFld .fwMonstat 11 0 = 0xAAA → ∃ v : State,
        exec .fwPauseComplete s = .next ((v.restartPart false true).restartPart true true) ∧ v.fw = { s.fw with act := none } ∧
        v.runSlot = s.runSlot ∧ (phase s = 3 → phase v = 3) ∧ (phase s ≠ 3 → phase v = b2n s.fw.writing.isSome) ∧
        ∀ id, a.cmd = some id → v.cmd id = none)) ∧
    (s.mayConfirm = false → exec .fwConfirm s = .next s) ∧
    (s.mayConfirm = true → ∃ u : State, exec .fwConfirm s = .next u ∧ u.prefSlot = s.runSlot ∧ phase u = 0 ∧ u.fw.trialCmd = none ∧
      u.fuses = { s.fuses with
        svnPri := Nat.min 64 (Nat.max s.fuses.svnPri (field (s.slot s.runSlot) 12 1))
        svnMon := Nat.min 64 (Nat.max s.fuses.svnMon (field (s.slot s.runSlot) 13 1)) }) ∧
    (phase s ≠ 3 → exec .trialTimeout s = .next s) ∧
    (phase s = 3 → ∃ (u : State) (a : Activation), exec .trialTimeout s = .next u ∧ u.fw.act = some a ∧ a.fallback = true ∧
      a.cmd = s.fw.trialCmd ∧ phase u = 2 ∧ u.regFld .fwStat 15 0 = 0 ∧
      (s.fw.act ≠ none ∨ s.running false = false ∧ s.running true = false → falls u s.runSlot) ∧
      (s.fw.act = none → s.running false = true ∨ s.running true = true → a.started = false ∧ u.runSlot = s.runSlot)) ∧
    ∀ pc n, ∃ (u : State) (b : Activation), exec (.watchdogLapse pc n) s = .next u ∧ u.fw.act = some b ∧ b.started = true ∧
      u.runSlot = s.prefSlot ∧ u.regFld .fwMonstat 11 0 = 1 ∧ u.regFld .testStat 27 25 = 4 ∧
      (phase s = 3 → falls u s.runSlot ∧ b.fallback = true ∧ b.cmd = s.fw.trialCmd) ∧
      (phase s ≠ 3 → s.fw.act = none → b.fallback = false ∧ b.cmd = none) ∧
      ∀ a, phase s ≠ 3 → s.fw.act = some a →
        (a.fallback = true → a.started = false → falls u s.runSlot ∧ b.cmd = a.cmd) ∧ (a.started = true → b = a) ∧
        (a.fallback = false → a.started = false → b.fallback = false ∧ b.cmd = none ∧ ∀ id, a.cmd = some id → u.cmd id = none)

/-- COMMAND_TIMEOUT, PERST_ASSERT and PERST_DEASSERT. Choices of the model in it, where the spec leaves a point open: log entries 96,
97. -/
def Obligations.CommandsThatEnd : Prop :=
  ∀ (s : State),
    (∀ id, s.cmd id = none → exec (.commandTimeout id) s = .next s) ∧
    (∀ id c, s.cmd id = some c →
      (c.opcode.toNat ∈ [0x0110, 0x0111, 0x0114, 0x0116, 0x0205, 0x0402, 0x0405, 0x0501, 0x0601, 0x0603, 0x0604] →
        exec (.commandTimeout id) s = .next (s.finish c.id 8 [])) ∧
      (c.opcode.toNat = 0x0201 → ∀ p, c.part = some p →
        exec (.commandTimeout id) s = .next (((s.setPart p { s.part p with loading := none }).resumeChans p).finish c.id 8 [])) ∧
      (c.opcode.toNat = 0x0404 → ∀ p, c.part = some p →
        ((s.part p).preReq = some c.id →
          exec (.commandTimeout id) s = .next ((s.setPart p { s.part p with preReq := none }).finish c.id 8 [])) ∧
        ((s.part p).preReq ≠ some c.id → exec (.commandTimeout id) s = .next (s.finish c.id 8 []))) ∧
      (c.opcode.toNat = 0x0117 → ∃ u : State, exec (.commandTimeout id) s = .next u ∧
        u.phase = 0 ∧ u.cmds = [] ∧ u.pins.mgmt = false)) ∧
    (∀ h, ∃ u : State, exec (.perstAssert h) s = .next u ∧ u.hostUp h = false ∧
      (∀ c ∈ u.cmds, c.issuer ≠ if h then Issuer.hostB else Issuer.hostA) ∧
      (∀ a, inCmd h a = true → u.word a = resetWord a) ∧ (∀ r, r < 512 → u.doorbell (512 * b2n h + r) = false)) ∧
    ∀ h, ∃ u : State, exec (.perstDeassert h) s = .next u ∧ (if h then u.pins.perstB else u.pins.perstA) = false ∧
      (s.pins.fenced = false → 6 ≤ s.phase → s.phase ≤ 9 → ¬ (s.phase = 6 ∧ s.erasing h = true) → u.hostUp h = true) ∧
      (s.pins.fenced = true ∨ s.phase < 6 → u.hostUp h = s.hostUp h) ∧ u.office = s.office ∧ u.cmds = s.cmds

/-- The SPDM requests of R357: an issuer whose port is in reset gets nothing, a request of another version an error, and the others
their responses. DEBUG_UNLOCK and OWNER_KEY_BURN. Choices of the model in it, where the spec leaves a point open: log entries 86,
88. -/
def Obligations.AttestationAndDebug : Prop :=
  (∀ (who : Issuer) (b : Bytes) (s : State),
    let ops : List (Instr × Nat × Nat × Nat) := [(.getVersion who b, 0x84, 4, 0x10), (.getCapabilities who b, 0xE1, 4, 0x12),
      (.negotiateAlgorithms who b, 0xE3, 16, 0x12), (.getDigests who b, 0x81, 4, 0x12), (.getCertificate who b, 0x82, 8, 0x12),
      (.challenge who b, 0x83, 36, 0x12), (.getMeasurements who b, 0xE0, 4, 0x12)]
    let chain := Config.certChain s.fuses.serial (s.measurement 1) (s.measurement 2)
    (∀ o ∈ ops,
      (s.spdmTakes who = false → exec o.1 s = .next s) ∧
      (s.spdmTakes who = true → field b 1 1 = o.2.1 → o.2.2.1 ≤ b.length → field b 0 1 ≠ o.2.2.2 →
        exec o.1 s = .next (s.emit (.spdm who 0x7F [0x12, 0x7F, 0x41, 0])))) ∧
    (s.spdmTakes who = true → field b 1 1 = 0x84 → 4 ≤ b.length → field b 0 1 = 0x10 →
      exec (.getVersion who b) s = .next (s.emit (.spdm who 4 [0x10, 4, 0, 0, 0, 1, 0, 0x12]))) ∧
    (s.spdmTakes who = true → field b 0 1 = 0x12 →
      (field b 1 1 = 0xE1 → 4 ≤ b.length → exec (.getCapabilities who b) s =
        .next (s.emit (.spdm who 0x61 ([0x12, 0x61, 0, 0] ++ padTo 16 Config.spdmCaps)))) ∧
      (field b 1 1 = 0xE3 → 16 ≤ b.length → ∃ r : Bytes, exec (.negotiateAlgorithms who b) s = .next (s.emit (.spdm who 0x63 r)) ∧
        field r 12 4 = (if bit (field b 8 4) 7 then 0x80 else 0) ∧ field r 16 4 = (if bit (field b 12 4) 1 then 2 else 0)) ∧
      (field b 1 1 = 0x81 → 4 ≤ b.length → exec (.getDigests who b) s =
        .next (s.emit (.spdm who 1 ([0x12, 1, 0, 1] ++ sha384 chain)))) ∧
      (field b 1 1 = 0x82 → 8 ≤ b.length →
        let o := field b 4 2
        let n := Nat.min (field b 6 2) (chain.length - o)
        (field b 2 1 % 16 = 0 → o < chain.length → exec (.getCertificate who b) s = .next (s.emit (.spdm who 2 ([0x12, 2, 0, 0]
          ++ toLE 2 n ++ toLE 2 (chain.length - o - n) ++ (chain.drop o).take n)))) ∧
        (field b 2 1 % 16 ≠ 0 ∨ chain.length ≤ o →
          exec (.getCertificate who b) s = .next (s.emit (.spdm who 0x7F [0x12, 0x7F, 1, 0])))) ∧
      (field b 1 1 = 0x83 → 36 ≤ b.length → field b 2 1 % 16 = 0 →
        let sum := if field b 3 1 = 0 then [] else sha384 ((blocksOf (hostOf who)).flatMap s.measBlock)
        let r := [0x12, 3, 0, 1] ++ sha384 chain ++ toLE 32 (Config.nonce s.free).toNat ++ sum ++ [0, 0]
        ∃ u : State, exec (.challenge who b) s = .next u ∧ u.free = s.free + 2 ∧
          u.out = s.out ++ [.spdm who 3 (r ++ padTo 96 (Config.cardSig (s.free + 1) (b ++ r)))]) ∧
      (field b 1 1 = 0xE0 → 4 ≤ b.length → (field b 3 1 = 0 ∨ field b 3 1 = 0xFF ∨ field b 3 1 ∈ blocksOf (hostOf who)) →
        let all := blocksOf (hostOf who)
        let op := field b 3 1
        let r := s.measBody (if op = 0 then all.length else 0) (if op = 0 then [] else if op = 0xFF then all else [op])
          (toLE 32 (Config.nonce s.free).toNat)
        ∃ u : State, exec (.getMeasurements who b) s = .next u ∧
          u.out = s.out ++ [.spdm who 0x60 (if bit (field b 2 1) 0 then r ++ padTo 96 (Config.cardSig (s.free + 1) (b ++ r)) else r)]))) ∧
  (∀ (k : Packet) (s : State),
    let t := s.takePacket k
    let a := t.accept k none 0
    let scope := pktArg k 8 1
    let half := (k.params.drop 8).take 48
    (s.Runs (.debugUnlock k) → scope < 8 → pktSet k 10 16 = none →
      (pktArg k 9 1 = 0 → exec (.debugUnlock k) s =
        .next (({ a with half := some (BitVec.ofNat 8 scope, half) } : State).finish s.nextCmd 0 [])) ∧
      (pktArg k 9 1 = 1 → ∀ n sc r, s.nonce = some n → s.half = some (sc, r) →
        (sc.toNat = scope → s.tokenOk n scope (r ++ half) = true → ∃ v : State,
          exec (.debugUnlock k) s = .next (v.finish s.nextCmd 0 []) ∧ v.regBit .secDebug 30 = true ∧ v.nonce = none ∧
          v.retained.armScope = BitVec.ofNat 3 scope ∧ v.regFld .secDebug 15 0 = Nat.min 65535 (s.regFld .secDebug 15 0 + 1)) ∧
        (sc.toNat ≠ scope ∨ s.tokenOk n scope (r ++ half) = false → exec (.debugUnlock k) s =
          .next (({ a with nonce := none, half := none } : State).finish s.nextCmd 0x000C [])))) ∧
    (s.Runs (.ownerKeyBurn k) →
      (s.regBit .secDebug 31 = true → s.regBit .secDebug 25 = true → s.fuses.owner = none → exec (.ownerKeyBurn k) s =
        .next (({ a with fuses := { s.fuses with owner := some (k.params.take 48) } } : State).finish s.nextCmd 0 [1])) ∧
      (s.regBit .secDebug 31 = false ∨ s.regBit .secDebug 25 = false ∨ s.fuses.owner.isSome = true →
        exec (.ownerKeyBurn k) s = .next (t.answer k 7 []))))

/-- R15 to R18, R415, R416, R418: what becomes of a register write. R142, R166, R344, R360: a BELL set that is refused, SEC_COMMIT
and TILE_COMMIT. Choices of the model in it, where the spec leaves a point open: log entries 24, 100, 101, 129. -/
def Obligations.RegisterWrites : Prop :=
  ∀ (who : Issuer) (v : Word) (e : BitVec 4) (s : State),
    (∀ a, s.served who = false → exec (.registerWrite who a v e) s = .next s) ∧
    (∀ a, s.served who = true →
      let foreign := s.foreign who a true
      let busy := match windowAt a with
        | some n => s.winBusy n
        | none => false
      (foreign = true ∨ busy = true ∨ e ≠ 15 → ∃ u : State, exec (.registerWrite who a v e) s = .next u ∧
        u = { s with office := u.office } ∧ (∀ x, x ≠ Reg.officeAccerr.addr → x ≠ Reg.officeAccaddr.addr → u.word x = s.word x) ∧
        u.reg .officeAccaddr = BitVec.ofNat 32 a ∧
        u.regFld .officeAccerr 15 0 = Nat.min 0xFFFF (s.regFld .officeAccerr 15 0 + 1) ∧
        u.regFld .officeAccerr 28 26 = issuerCode who ∧
        (foreign = true → u.regBit .officeAccerr 31 = true) ∧ (e ≠ 15 → u.regBit .officeAccerr 30 = true) ∧
        (busy = true → u.regBit .officeAccerr 29 = true)) ∧
      (foreign = false → busy = false → e = 15 →
        (regAt a = none → exec (.registerWrite who a v e) s = .next s) ∧
        ∀ r, regAt a = some r → exec (.registerWrite who a v e) s = .next (s.writeReg who 0 r v))) ∧
    (∀ r, r.info.busy = false → commitOf r = none →
      let u := s.writeCodes who r v
      u.reg r = ((s.reg r &&& ~~~r.info.rw) ||| (v &&& r.info.rw)) &&& ~~~(v &&& r.info.w1c) ∧
      (∀ a, a ≠ r.addr → u.word a = s.word a) ∧ (r.info.st = 0 → u = { s with office := u.office })) ∧
    (∀ (r c : Reg), r.info.st ≠ 0 → commitOf r = some c → r.info.busy = false →
      ∃ w : Word, Bank.get noStage (s.writeCodes who r v).staged r.addr = some w ∧ w &&& r.info.st = v &&& r.info.st ∧
        (r.info.rw = 0 → r.info.w1c = 0 → (s.writeCodes who r v).office = (s.setReg r (s.reg r)).office)) ∧
    (∀ r : Reg, r ∈ [Reg.bellCommit false, .bellCommit true, .watchCommit false, .watchCommit true, .linkCommit, .pigeonCommit] →
      s.Reaches who r true → windowAt r.addr = none →
      (v.toNat.testBit 0 = true → exec (.commitWrite who r.addr v) s = .next ((s.applyCommit r).setReg r 0)) ∧
      (v.toNat.testBit 0 = false → exec (.commitWrite who r.addr v) s = .next (s.setReg r (v &&& 2)))) ∧
    -- the sets behind three of the commit registers: accepted whole, or refused whole
    (∀ p, s.Reaches who (.bellCommit p) true → v.toNat.testBit 0 = true →
      let lo := (Reg.bellPeriod p 0).addr
      let hi := (Reg.bellWork p 0).addr
      s.stagedIn lo hi ≠ [] → ∃ u : State, exec (.commitWrite who (Reg.bellCommit p).addr v) s = .next u ∧ u.stagedIn lo hi = [] ∧
        u.tiles = s.tiles ∧
        (s.bellSetOk p = true → ∀ n, n < 16 → u.reg (.bellPeriod p n) = s.applied (Reg.bellPeriod p n).addr ∧
          u.reg (.bellRecess p n) = s.applied (Reg.bellRecess p n).addr) ∧
        (s.bellSetOk p = false → u.regBit (.bellStat p) 28 = true ∧ ∀ n, n < 16 →
          u.reg (.bellPeriod p n) = s.reg (.bellPeriod p n) ∧ u.reg (.bellRecess p n) = s.reg (.bellRecess p n))) ∧
    (s.Reaches who .secCommit true →
      let rs : List Reg := [.secPortown, .secPagebase false, .secPagebase true, .secPagecnt false, .secPagecnt true]
      (who ≠ .mgmt → exec (.commitWrite who Reg.secCommit.addr v) s = .next s) ∧
      (who = .mgmt → v.toNat.testBit 0 = false →
        exec (.commitWrite who Reg.secCommit.addr v) s = .next (s.setReg .secCommit (v &&& 2))) ∧
      (who = .mgmt → v.toNat.testBit 0 = true → s.stagedIn 0x90000 0xA0000 ≠ [] → ∃ u : State,
        exec (.commitWrite who Reg.secCommit.addr v) s = .next u ∧ u.stagedIn 0x90000 0xA0000 = [] ∧ u.reg .secCommit = 0 ∧
        (s.secOk = true → (∀ r ∈ rs, u.reg r = s.applied r.addr) ∧ u.part0.closed = (s.part0.closed || (s.secMoves false).1) ∧
          u.part1.closed = (s.part1.closed || (s.secMoves true).1)) ∧
        (s.secOk = false → (∀ r ∈ rs, u.reg r = s.reg r) ∧ u.regBit .secPartmap 31 = true ∧ u.part0 = s.part0 ∧ u.part1 = s.part1))) ∧
    (∀ n, n < 2500 → s.Reaches who (.tileCommit n) true →
      let lo := 0x100000 + 0x1000 * n
      let x := s.tile n
      let rs : List Reg := [.tileAplan n, .tileAspillb n, .tileAspills n]
      (v.toNat.testBit 0 = false →
        exec (.commitWrite who (Reg.tileCommit n).addr v) s = .next (s.setReg (.tileCommit n) (v &&& 2))) ∧
      (v.toNat.testBit 0 = true → s.stagedIn lo (lo + 0x1000) = [] →
        exec (.commitWrite who (Reg.tileCommit n).addr v) s = .next (s.setReg (.tileCommit n) 0)) ∧
      (v.toNat.testBit 0 = true → s.stagedIn lo (lo + 0x1000) ≠ [] → ∃ u : State,
        exec (.commitWrite who (Reg.tileCommit n).addr v) s = .next u ∧ (∀ r ∈ rs, u.reg r = s.applied r.addr) ∧
        u.stagedIn lo (lo + 0x1000) = [] ∧ u.reg (.tileCommit n) = 0 ∧ SameMem s u ∧
        (x.dir = [] → u.tiles = s.tiles) ∧
        (x.dir ≠ [] → (u.tile n).dir = [] ∧ (u.tile n).planPtr = 0 ∧ (u.tile n).spillPtr = 0 ∧
          (u.tile n).causes.getLsbD 3 = true))) ∧
    (s.Reaches who .powerLimit true →
      (600 ≤ fld v 15 0 → fld v 15 0 ≤ 2200 →
        exec (.powerLimitWrite who Reg.powerLimit.addr v) s = .next (s.setRegFld .powerLimit 15 0 (fld v 15 0))) ∧
      (fld v 15 0 < 600 ∨ 2200 < fld v 15 0 → exec (.powerLimitWrite who Reg.powerLimit.addr v) s = .next s)) ∧
    ∀ n, n < 2500 → s.Reaches who (.tileMxinj n) true →
      ((s.tile n).fenced = true → v.toNat.testBit 0 = true → exec (.inject who n v) s =
        .next (s.setTile n { s.tile n with arr := { (s.tile n).arr with inject := true } })) ∧
      ((s.tile n).fenced = false ∨ v.toNat.testBit 0 = false → exec (.inject who n v) s = .next s)

/-- R295, R303, R304, R311: CMD_DOORBELL, CMD_CTAIL, CMD_RHEAD and CMD_RCTL. R233, R414, R416 to R418: register reads, and the
messages of management. Choices of the model in it, where the spec leaves a point open: log entries 77, 82, 100, 101, 142, 146. -/
def Obligations.CommandRingsAndReads : Prop :=
  (∀ (who : Issuer) (h : Bool) (r : Nat) (v : Word) (s : State), r < 256 →
    let q := fld v 12 0
    (s.Reaches who (.cmdDoorbell h) true →
      (ownsQueue who q = true → (q < 1024 ∨ 1536 ≤ q) → s.ringEmpty q = false →
        exec (.cmdDoorbell who h v) s = .next (s.setDoorbell q true)) ∧
      (∀ g n, ownsQueue who q = true → q = 512 * b2n g + n → n < 256 → s.regBit (.cmdRctl g n) 31 = true →
        s.regFld (.cmdChead g n) 11 0 = s.regFld (.cmdCtail g n) 11 0 % ringSize (s.regFld (.cmdRctl g n) 29 26) →
        exec (.cmdDoorbell who h v) s = .next (s.setDoorbell q false)) ∧
      (ownsQueue who q = true → 1024 ≤ q → q < 1536 →
        exec (.cmdDoorbell who h v) s = .next ((s.setDoorbell q true).tryStart (q - 1024))) ∧
      (ownsQueue who q = false → exec (.cmdDoorbell who h v) s = .next (s.setRegBit (.cmdStat h) 31 true))) ∧
    (s.Reaches who (.cmdCtail h r) true →
      let none' := s.regBit (.cmdRctl h r) 31 &&
        s.regFld (.cmdChead h r) 11 0 == fld v 11 0 % ringSize (s.regFld (.cmdRctl h r) 29 26)
      exec (.cmdCtail who h r v) s = .next ((s.setReg (.cmdCtail h r) (v &&& 0xFFF)).setDoorbell (512 * b2n h + r) (!none'))) ∧
    (s.Reaches who (.cmdRhead h r) true →
      let n := ringSize (s.regFld (.cmdRctl h r) 25 22)
      let read := (fld v 11 0 % n + n - s.regFld (.cmdRhead h r) 11 0 % n) % n
      let k := ringKey h r
      exec (.cmdRhead who h r v) s = .next ({ s with replies := Bank.set noReplies s.replies k (Bank.get noReplies s.replies k - read)
        }.setReg (.cmdRhead h r) (v &&& 0xFFF))) ∧
    (s.Reaches who (.cmdRctl h r) true →
      let en := s.regBit (.cmdRctl h r) 31
      let sent := s.owed (if h then .hostB else .hostA) r
      ∃ u : State, exec (.cmdRctl who h r v) s = .next u ∧ u.bells = s.bells ∧
        u.regFld (.cmdRctl h r) 21 14 = fld v 21 14 ∧
        u.regFld (.cmdRctl h r) 29 22 = (if en then s.regFld (.cmdRctl h r) 29 22 else fld v 29 22) ∧
        (v.toNat.testBit 31 = true → u.regBit (.cmdRctl h r) 31 = true ∧
          u.reg (.cmdChead h r) = if en then s.reg (.cmdChead h r) else 0x80000000) ∧
        (v.toNat.testBit 31 = false → u.reg (.cmdChead h r) = s.reg (.cmdChead h r) ∧
          (en = true → u.regBit (.cmdRctl h r) 31 = decide (sent ≠ 0) ∧ u.regBit (.cmdRctl h r) 30 = decide (sent ≠ 0))))) ∧
  (∀ (rd : Reader) (s : State) (a : Nat),
    let who := rd.who
    let lo := rd.enables.toNat % 16
    let hi4 := rd.enables.toNat / 16
    let plain := fun (r : Reg) => s.Reaches who r false ∧ highOf r = none ∧ isHigh r = false ∧ r ≠ .dmaStat
    (∀ c : Instr, c = .latchedLowWordRead rd a ∨ c = .registerReadAccerr rd a →
      (s.served who = false →
        (∀ h, hostOf who = some h → s.hostUp h = true → exec c s = .next (s.emit (.unsupported h a))) ∧
        ((∀ h, hostOf who = some h → s.hostUp h = false) → exec c s = .next s)) ∧
      (s.served who = true → lo ≠ 0 → hi4 = 0 →
        (s.foreign who a false = true → ∃ u : State, exec c s = .next u ∧
          u.out = s.out ++ [.value who a 0] ∧ u.regBit .officeAccerr 31 = true ∧ u.reg .officeAccaddr = BitVec.ofNat 32 a ∧
          u.regFld .officeAccerr 28 26 = issuerCode who ∧
          ∀ x, x ≠ Reg.officeAccerr.addr → x ≠ Reg.officeAccaddr.addr → u.word x = s.word x) ∧
        (s.foreign who a false = false → windowAt a = none → regAt a = none → exec c s = .next (s.emit (.value who a 0))) ∧
        (s.Reaches who .dmaStat false → a = Reg.dmaStat.addr →
          exec c s = .next (s.draw.emit (.value who a (s.view who .dmaStat &&& byteMask lo))) ∧
          fld (s.view who .dmaStat) 15 0 = ((List.range 512).filter fun k => s.chState k == 1).length) ∧
        ∀ r, plain r → a = r.addr → exec c s = .next (s.emit (.value who a (s.view who r &&& byteMask lo)))) ∧
      (lo = 0 → hi4 ≠ 0 → ∀ r, plain r → a + 4 = r.addr →
        exec c s = .next (s.emit (.value who (a + 4) (s.view who r &&& byteMask hi4)))) ∧
      (lo ≠ 0 → hi4 ≠ 0 → ∀ r r', plain r → plain r' → a = r.addr → a + 4 = r'.addr →
        exec c s = .next ((s.emit (.value who a (s.view who r &&& byteMask lo))).emit
          (.value who (a + 4) (s.view who r' &&& byteMask hi4))))) ∧
    (∀ r hi, highOf r = some hi → s.Reaches who r false → s.Reaches who hi false →
      (lo ≠ 0 → hi4 = 0 → ∃ u : State, exec (.latchedLowWordRead rd r.addr) s = .next u ∧
        u.out = s.out ++ [.value who r.addr (s.view who r &&& byteMask lo)] ∧ u.office = s.office ∧
        (∀ w, ((u.setReg hi w).readWord who rd.field hi.addr).1 = s.view who hi) ∧
        ∀ f, who = .monitor → f < 6 → rd.field < 6 → f ≠ rd.field →
          (u.readWord .monitor f hi.addr).1 = (s.readWord .monitor f hi.addr).1) ∧
      (rd.enables = 255 → r.addr + 4 = hi.addr → ∃ u : State, exec (.latchedLowWordRead rd r.addr) s = .next u ∧
        u.out = s.out ++ [.value who r.addr (s.view who r), .value who hi.addr (s.view who hi)] ∧ u.office = s.office)) ∧
    ∀ b : Bytes, field b 0 1 = 0x10 → s.pins.mgmt = true →
      let n := field b 2 1
      let base := field b 4 4
      let head := fun st : Nat => [(0x10 : Byte)] ++ toLE 1 st ++ toLE 1 n ++ [0] ++ toLE 4 base
      (∀ c : Instr, c = .mgmtRegisterRead b ∨ c = .mgmtRegisterWrite b → mgmtStatus b ≠ 0 →
        exec c s = .next (s.emit (.mctp (head (mgmtStatus b))))) ∧
      (mgmtStatus b = 0 → field b 1 1 = 1 → ∃ (u : State) (ws : List Word), exec (.mgmtRegisterRead b) s = .next u ∧
        ws.length = n ∧ u.out = s.out ++ [.mctp (head 0 ++ ws.flatMap fun w => toLE 4 w.toNat)] ∧
        ∀ i, i < n → (∀ t, windowAt (base + 4 * i) = some t → s.winBusy t = false) →
          (regAt (base + 4 * i) = none → ws[i]? = some 0) ∧
          ∀ r, regAt (base + 4 * i) = some r → isHigh r = false → r ≠ .officeAccerr → r ≠ .officeAccaddr →
            r ≠ .dmaStat →
            ws[i]? = some (s.view .mgmt r)) ∧
      (mgmtStatus b = 0 → field b 1 1 = 2 → ∃ u : State, exec (.mgmtRegisterWrite b) s = .next (u.emit (.mctp (head 0))) ∧
        (n = 1 → u = s.access .mgmt 0 base (BitVec.ofNat 32 (field b 8 4)) 15)))

/-- The commands on a DMA channel that move no data: DMA_CHSTART, HALT, DMA_DESCRIPTOR_COMPLETE and DMA_HOST_TIMEOUT. DMA_COPY,
DMA_FILL, DMA_COMPARE and DMA_FENCE of a descriptor fetched from host memory, among tile, stash and host memory, in one line group
or more. Choices of the model in it,
where the spec leaves a point open: log entry 79. -/
def Obligations.DmaEngine : Prop :=
  (∀ (who : Issuer) (c : Nat) (v : Word) (s : State), c < 512 →
    let st := s.chState c
    let x := s.chan c
    let pend := fun u : State => u.regBit (.dmaChstat c) 27
    let starts := (st = 0 ∨ st = 2 ∨ st = 4) ∧ s.regBit (.dmaChctl c) 31 = true ∧ s.doorbell (1024 + c) = true ∧ s.chanHeld c = false
    (s.Reaches who (.dmaChstartHi c) true →
      (pend s = true → exec (.dmaChstart who c v) s = .next (s.setRegBit (.dmaChstat c) 26 true)) ∧
      (pend s = false → ∃ u : State, exec (.dmaChstart who c v) s = .next u ∧ u.reg (.dmaChstartHi c) = v ∧
        (u.chan c).next = decide (who = .mgmt) ∧ SameMem s u ∧
        (starts → (u.chan c).mgmt = decide (who = .mgmt) ∧ u.chState c = 1 ∧ pend u = false ∧ u.doorbell (1024 + c) = false ∧
            (u.chan c).cur = none ∧
          u.reg (.dmaChcurHi c) = v ∧ u.reg (.dmaChcurLo c) = s.reg (.dmaChstartLo c)) ∧
        (¬ starts → (u.chan c).mgmt = x.mgmt ∧ u.chState c = st ∧ pend u = true ∧ u.doorbell (1024 + c) = s.doorbell (1024 + c)))) ∧
    (s.Reaches who (.dmaChctl c) true → pend s = false → ∃ u : State, exec (.halt who c) s = .next u ∧ SameMem s u ∧
      u.reg (.dmaChctl c) = s.reg (.dmaChctl c) ∧
      (st = 1 → x.cur = none → x.paused = false → u.chState c = if s.regBit (.dmaChctl c) 31 then 4 else 0) ∧
      (st = 1 → x.cur.isSome = true → (u.chan c).halt = true ∧ u.chState c = 1 ∧ (u.chan c).cur = x.cur) ∧
      (st = 3 → (u.chan c).halt = true ∧ u.chState c = 3) ∧
      (st ≠ 1 → st ≠ 3 → u.chState c = st)) ∧
    (x.cur = none ∨ x.done = false ∨ st ≠ 1 → exec (.dmaDescriptorComplete c) s = .next s) ∧
    (∀ d, x.cur = some d → x.done = true → st = 1 → x.paused = false → x.off = false → x.halt = false → ∃ u : State,
      exec (.dmaDescriptorComplete c) s = .next u ∧ SameMem s u ∧
      (u.reg (.dmaChtag c) = if d.flags.toNat.testBit 0 then d.tag else s.reg (.dmaChtag c)) ∧
      u.regFld (.dmaChstat c) 15 0 = (s.regFld (.dmaChstat c) 15 0 + 1) % 65536 ∧ (u.chan c).cur = none ∧
      (d.next ≠ 0 → u.chcur c = d.next.toNat ∧ u.chState c = 1) ∧ (d.next = 0 → pend s = false → u.chState c = 0)) ∧
    (st ≠ 1 ∨ x.done = true → exec (.dmaHostTimeout c) s = .next s) ∧
    (st = 1 → x.done = false → pend s = false →
      (∀ d, x.cur = some d → ∃ u : State, exec (.dmaHostTimeout c) s = .next u ∧ u.chState c = 2 ∧
        u.regFld (.dmaChstat c) 23 16 = 8 ∧ u.reg (.dmaChoff c) = BitVec.ofNat 32 (x.moved / 64 * 64) ∧ u.chcur c = s.chcur c) ∧
      (x.cur = none → s.regBit (.dmaChctl c) 29 = true → exec (.dmaHostTimeout c) s = .next s) ∧
      (x.cur = none → s.regBit (.dmaChctl c) 29 = false → ∃ u : State, exec (.dmaHostTimeout c) s = .next u ∧ u.chState c = 2 ∧
        u.regFld (.dmaChstat c) 23 16 = 9 ∧ u.chcur c = s.chcur c))) ∧
  (∀ (c : Nat) (e : DmaEnv) (d : Descriptor) (s : State), c < 512 → e.desc = some d → s.chState c = 1 → (s.chan c).cur = none →
    s.regBit (.dmaChctl c) 29 = false → s.hostUp (s.chanHost c) = true → s.chcur c % 64 = 0 →
    let ops : List (Instr × Nat) := [(.dmaCopy c e, 0), (.dmaFill c e, 1), (.dmaCompare c e, 2), (.dmaFence c e, 3)]
    let x := s.chan c
    let p := chanPart c
    let n := d.length.toNat
    let tileSp := fun sp : BitVec 8 => sp = 2 ∨ sp = 3
    let at_ := fun a : BitVec 64 => bits a.toNat 21 0
    let sh := decide (d.dstsp = 3)
    let ssh := decide (d.srcsp = 3)
    let done := fun (u : State) (k : Nat) => u.chan c = { x with cur := some d, done := true, moved := k } ∧ u.office = s.office
    (∀ o ∈ ops, dOp d < 4 → dOp d ≠ o.2 → exec o.1 s = .next s) ∧
    (∀ o ∈ ops, ∀ f, dOp d = o.2 → s.dmaCheck p d = some f → f.1 ≠ 4 → s.regBit (.dmaChstat c) 27 = false →
      ∃ u : State, exec o.1 s = .next u ∧ SameMem s u ∧ u.chState c = 2 ∧ u.regFld (.dmaChstat c) 23 16 = f.1 ∧
        u.chcur c = s.chcur c) ∧
    (s.dmaCheck p d = none →
      (dOp d = 3 → exec (.dmaFence c e) s = .next (s.setChan c { x with cur := some d, done := true, moved := 0 })) ∧
      (d.count = 1 → tileSp d.dstsp → ∀ t, s.dmaTile p d.dst.toNat = some t →
        (dOp d = 1 → ∃ u : State, exec (.dmaFill c e) s = .next u ∧ done u n ∧ SameMemBut t sh (span (at_ d.dst) n) s u ∧
          ∀ j, j < n → u.memAt t sh (at_ d.dst + j) = (fillLine d).getD (j % 64) 0) ∧
        (tileSp d.srcsp → ∀ ts, s.dmaTile p d.src.toNat = some ts → (s.tile ts).errs = [] →
          (dOp d = 0 → ∃ u : State, exec (.dmaCopy c e) s = .next u ∧ done u n ∧ SameMemBut t sh (span (at_ d.dst) n) s u ∧
            ∀ j, j < n → u.memAt t sh (at_ d.dst + j) = s.memAt ts ssh (at_ d.src + j)) ∧
          (dOp d = 2 → dFillCmp d = false → (s.tile t).errs = [] →
            ((∀ j, j < n → s.memAt t sh (at_ d.dst + j) = s.memAt ts ssh (at_ d.src + j)) →
              ∃ u : State, exec (.dmaCompare c e) s = .next u ∧ done u n ∧ SameMem s u) ∧
            ((∃ j, j < n ∧ s.memAt t sh (at_ d.dst + j) ≠ s.memAt ts ssh (at_ d.src + j)) →
              s.regBit (.dmaChstat c) 27 = false → ∃ u : State, exec (.dmaCompare c e) s = .next u ∧ SameMem s u ∧
                u.chState c = 2 ∧ u.regFld (.dmaChstat c) 23 16 = 6))))) ∧
    -- host and stash memory, FILLCMP, and more than one group of lines
    (s.dmaCheck p d = none → dLinkOnly d = false →
      let h := s.chanHost c
      let total := n * d.count.toNat
      let moved := fun (u : State) (k : Nat) => u.chan c = { x with cur := some d, done := true, moved := k }
      let tilesSame := fun u : State => ∀ m sh a, u.memAt m sh a = s.memAt m sh a
      let at1 := fun (sp : BitVec 8) (a : Nat) => -- the line at a tile address
        (s.dmaTile p a).elim [] fun m => (List.range 64).map fun j => s.memAt m (decide (sp = 3)) (bits a 21 0 + j)
      let stashLine := fun a : Nat => (s.translate p a false).elim [] fun y => Bank.bytes s.stash y 64
      let clean := fun a : Nat => s.lineErr (tableLine p a) = 0 ∧ ∀ y, s.translate p a false = some y → s.lineErr (y / 64) = 0
      let puts := fun (o : Instr) (line : Nat → Nat → Bytes) => ∃ u : State, exec o s = .next u ∧ moved u total ∧ SameMem s u ∧
        u.out = s.out ++ (dLines d).zipIdx.map fun y => .hostWrite h y.1.2.2 (line y.1.2.1 y.2)
      let stores := fun (o : Instr) (byte : Nat → Nat → Byte) => ∃ u : State, exec o s = .next u ∧ moved u n ∧ tilesSame u ∧
        (∀ k y j, k < n / 64 → s.translate p (d.dst.toNat + 64 * k) true = some y → j < 64 → Bank.byte u.stash (y + j) = byte k j) ∧
        ∀ a, (∀ k y, k < n / 64 → s.translate p (d.dst.toNat + 64 * k) true = some y → ¬ span y 64 a) →
          Bank.byte u.stash a = Bank.byte s.stash a
      (d.dstsp = 0 →
        (dOp d = 1 → puts (.dmaFill c e) fun _ _ => fillLine d) ∧
        (dOp d = 0 → tileSp d.srcsp → (∀ y ∈ dLines d, ∀ m, s.dmaTile p y.2.1 = some m → (s.tile m).errs = []) →
          puts (.dmaCopy c e) fun a _ => at1 d.srcsp a) ∧
        (dOp d = 0 → d.srcsp = 1 → (∀ y ∈ dLines d, clean y.2.1) → puts (.dmaCopy c e) fun a _ => stashLine a) ∧
        (dOp d = 0 → d.srcsp = 0 → e.hostOk = none → total ≤ e.host.length →
          puts (.dmaCopy c e) fun _ k => (e.host.drop (64 * k)).take 64)) ∧
      (d.dstsp = 1 → d.count = 1 →
        (dOp d = 1 → stores (.dmaFill c e) fun _ j => (fillLine d).getD j 0) ∧
        (dOp d = 0 → d.srcsp = 0 → e.hostOk = none → n ≤ e.host.length →
          (∀ i k, i < n / 64 → k < n / 64 →
            s.translate p (d.dst.toNat + 64 * i) true = s.translate p (d.dst.toNat + 64 * k) true → i = k) →
          stores (.dmaCopy c e) fun k j => e.host.getD (64 * k + j) 0)) ∧
      (d.count = 1 → tileSp d.dstsp → ∀ t, s.dmaTile p d.dst.toNat = some t →
        (dOp d = 0 → d.srcsp = 0 → e.hostOk = none → n ≤ e.host.length → ∃ u : State, exec (.dmaCopy c e) s = .next u ∧ done u n ∧
          SameMemBut t sh (span (at_ d.dst) n) s u ∧ ∀ j, j < n → u.memAt t sh (at_ d.dst + j) = e.host.getD j 0) ∧
        (dOp d = 0 → d.srcsp = 0 → e.hostOk = none → e.host.length < n → ∃ u : State, exec (.dmaCopy c e) s = .next u ∧
          u.chan c = { x with cur := some d, done := false, moved := e.host.length / 64 * 64 }) ∧
        (dOp d = 0 → d.srcsp = 1 → (∀ k, k < n / 64 → clean (d.src.toNat + 64 * k)) → ∃ u : State,
          exec (.dmaCopy c e) s = .next u ∧ done u n ∧ SameMemBut t sh (span (at_ d.dst) n) s u ∧
          ∀ k j, k < n / 64 → j < 64 → u.memAt t sh (at_ d.dst + 64 * k + j) = (stashLine (d.src.toNat + 64 * k)).getD j 0) ∧
        (dOp d = 2 → (s.tile t).errs = [] → dFillCmp d = true ∨ d.srcsp = 0 ∧ e.hostOk = none ∧ n ≤ e.host.length →
          let want := fun j : Nat => if dFillCmp d then (fillLine d).getD (j % 64) 0 else e.host.getD j 0
          ((∀ j, j < n → s.memAt t sh (at_ d.dst + j) = want j) →
            ∃ u : State, exec (.dmaCompare c e) s = .next u ∧ done u n ∧ SameMem s u) ∧
          ((∃ j, j < n ∧ s.memAt t sh (at_ d.dst + j) ≠ want j) → s.regBit (.dmaChstat c) 27 = false →
            ∃ u : State, exec (.dmaCompare c e) s = .next u ∧ SameMem s u ∧ u.chState c = 2 ∧
              u.regFld (.dmaChstat c) 23 16 = 6))) ∧
      (∀ t, tileSp d.dstsp → (∀ i, i < d.count.toNat → s.dmaTile p (dDst d i) = some t) →
        let toA := fun i => bits (dDst d i) 21 0
        let groups := fun a => ∃ i, i < d.count.toNat ∧ span (toA i) n a
        (dOp d = 1 → ∃ u : State, exec (.dmaFill c e) s = .next u ∧ done u total ∧ SameMemBut t sh groups s u ∧
          ∀ i j, i < d.count.toNat → j < n → u.memAt t sh (toA i + j) = (fillLine d).getD (j % 64) 0) ∧
        (∀ ts, dOp d = 0 → tileSp d.srcsp → (∀ i, i < d.count.toNat → s.dmaTile p (dSrc d i) = some ts) → (s.tile ts).errs = [] →
          ts ≠ t ∨ sh ≠ ssh → (∀ i k, i < k → k < d.count.toNat → toA i + n ≤ toA k ∨ toA k + n ≤ toA i) →
          ∃ u : State, exec (.dmaCopy c e) s = .next u ∧ done u total ∧ SameMemBut t sh groups s u ∧
            ∀ i j, i < d.count.toNat → j < n → u.memAt t sh (toA i + j) = s.memAt ts ssh (bits (dSrc d i) 21 0 + j)))))

/-- The clock, sensor and supply events: PTP_SYNC, PPS, REFCLK_LOSS, SENSOR_REPORT, POWER_INPUT_WINDOW, HOST_TELEMETRY_WINDOW,
INPUT_UNDERVOLTAGE and POWER_STAGE_FAULT. Choices of the model in it, where the spec leaves a point open: log entries 85, 98. -/
def Obligations.ClocksSensorsSupply : Prop :=
  ∀ (s : State),
    (∀ w, exec (.ptpSync w) s = .next { s with wall := w }) ∧
    (s.wall = 0 → exec .pps s = .next s) ∧
    (s.wall ≠ 0 → ∃ w : BitVec 64, exec .pps s = .next { s with wall := w } ∧ bits w.toNat 29 0 = 0 ∧
      bits w.toNat 63 30 = (bits s.wall.toNat 63 30 + (if 500000000 ≤ bits s.wall.toNat 29 0 then 1 else 0)) % 2 ^ 34) ∧
    (∃ u : State, exec .refclkLoss s = .next u ∧ u.pins.refclk = false ∧ u.pins.fenced = true ∧ u.pins.pgoodN = s.pins.pgoodN ∧
      (s.pins.fenced = true ∨ (∀ p, s.lesson p = none) → SameMem s u) ∧ (s.pins.fenced = false → u.phase = 10 ∧
          u.pins.alertHeld = true ∧
        (∀ p, u.running p = false ∧ u.hostUp p = false) ∧ ∀ l, l < 20 → u.linkState l = 0 ∨ 4 ≤ u.linkState l)) ∧
    (∀ place i r, (place < 4 ∧ i < 4) ∨ (place = 4 ∧ i = 0) ∨ (place = 5 ∧ i < 8) →
      ∃ u : State, exec (.sensorReport place i r) s = .next u ∧
        (r < 420 ∨ s.pins.fenced = true ∨ (∀ p, s.lesson p = none) → SameMem s u) ∧
        (∀ k, Bank.get noReading u.sensors k = if k = 4 * place + i then r else Bank.get noReading s.sensors k) ∧
        u.regFld .powerTherm 9 0 = u.hottest (List.range 17) % 1024 ∧
        (r < 420 → u.pins = s.pins ∧ u.regBit .powerStat 26 = s.regBit .powerStat 26) ∧
        (420 ≤ r → u.pins.fenced = true ∧ u.regBit .powerStat 26 = true)) ∧
    (∀ place i r, ¬ ((place < 4 ∧ i < 4) ∨ (place = 4 ∧ i = 0) ∨ (place = 5 ∧ i < 8)) →
      exec (.sensorReport place i r) s = .fault .noSuchUnit) ∧
    (∀ vin pin, vin < 65536 → pin < 65536 → ∃ u : State, exec (.powerInputWindow vin pin) s = .next u ∧
      u = { s with office := u.office } ∧ u.regFld .powerInput 31 16 = vin ∧ u.regFld .powerInput 15 0 = pin ∧
      ∀ a, a ≠ Reg.powerInput.addr → u.word a = s.word a) ∧
    (∀ p0 p1, ∃ u : State, exec (.hostTelemetryWindow p0 p1) s = .next u ∧
      (u.part false).telePow = p0 / 25 * 25 ∧ (u.part true).telePow = p1 / 25 * 25 ∧ (∀ p, (u.part p).peak = 0 ∧
        (u.part p).teleTemp = Nat.max (s.part p).peak (s.hottest (s.partSensors p)) / 20 * 20) ∧
      u = { s with part0 := u.part false, part1 := u.part true }) ∧
    exec .inputUndervoltage s = .next (s.setRegBit .powerStat 27 true) ∧
    ∀ k, k < 8 → ∀ volts amps,
      (s.regBit .powerStat k = true → exec (.powerStageFault k volts amps) s = .next s) ∧
      (s.regBit .powerStat k = false → ∃ u : State, exec (.powerStageFault k volts amps) s = .next u ∧
        u.regBit .powerStat k = true ∧
        (6 ≤ s.regFld .powerStat 31 28 ∨ s.pins.fenced = true ∨ (∀ p, s.lesson p = none) → SameMem s u) ∧
        (s.regFld .powerStat 31 28 ≠ 0 → u.regFld .powerStat 31 28 = s.regFld .powerStat 31 28 - 1) ∧
        (6 ≤ s.regFld .powerStat 31 28 → u.pins = s.pins) ∧ (s.regFld .powerStat 31 28 < 6 → u.pins.fenced = true))

/-- POWER_ON, RAIL_FAULT, INPUT_FAULT, PIN_RESET, RESET_RELEASE, INTERNAL_RESET_RELEASE and RAILS_IN_REGULATION: what a start keeps,
and where it goes. Choices of the model in it, where the spec leaves a point open: log entries 89, 94, 95. -/
def Obligations.Starts : Prop :=
  ∀ (s : State),
    let trial := s.regFld .fwStat 31 30 = 3 ∨ ∃ a, s.fw.act = some a ∧ a.fallback = true ∧ a.started = false
    -- what a reset keeps
    let kept := fun u : State =>
      (∀ r : Reg, regAt r.addr = some r → r ≠ .testStat → r ≠ .officeStrap → r ≠ .secDebug → (∀ b, r ≠ .fwSlot b) →
        u.reg r = (s.reg r &&& r.info.ret) ||| (r.info.reset &&& ~~~r.info.ret)) ∧
      (∀ t sh a, u.memAt t sh a = 0) ∧ (∀ a, Bank.byte u.stash a = 0) ∧ u.cmds = [] ∧ u.tiles = [] ∧
      (∀ p, u.lesson p = none ∧ (u.part p).scope = (s.part p).scope) ∧ u.fuses = s.fuses ∧
      (∀ b, u.slot b = s.slot b) ∧ (¬ trial → ∀ b, u.reg (.fwSlot b) = s.reg (.fwSlot b) &&& (Reg.fwSlot b).info.ret |||
        ((Reg.fwSlot b).info.reset &&& ~~~(Reg.fwSlot b).info.ret)) ∧ (trial → u.slotState s.runSlot = 2) ∧
      u.pins.fenced = false ∧ u.pins.mgmt = false ∧ (∀ p, u.hostUp p = false) ∧ u.regBit .secDebug 31 = false ∧
      u.regFld .secDebug 15 0 = s.regFld .secDebug 15 0 ∧ u.retained.locs = s.retained.locs ∧ u.retained.faults = s.retained.faults ∧
      u.pending = s.pending ∧ u.out = s.out
    let valid := fun (seat : BitVec 5) (mode : BitVec 2) => seat.toNat ≤ 17 ∧ (mode = 0 ∨ mode = 2)
    let strapped := fun (u : State) (seat : BitVec 5) (mode : BitVec 2) =>
      u.regFld .officeStrap 4 0 = seat.toNat ∧ u.regFld .officeStrap 6 5 = mode.toNat ∧
      (u.regBit .officeStrap 31 = true ↔ valid seat mode) ∧ u.pins.seat = seat ∧ u.pins.testmode = mode
    let begun := fun (u : State) (kind phase : Nat) => kept u ∧ u.phase = phase ∧ u.regFld .testStat 27 25 = kind ∧
      u.regFld .testStat 15 0 = Nat.min 65535 (s.regFld .testStat 15 0 + 1) ∧ u.regBit .secDebug 30 = false ∧
      u.pins.armed = if s.regBit .secDebug 30 then some s.retained.armScope else none
    (∀ c ∈ [Instr.powerOn, .railFault], ∃ u : State, exec c s = .next u ∧ begun u 0 1 ∧ strapped u s.pins.seat s.pins.testmode ∧
      u.pins.pgoodN = true ∧ u.pins.resetN = s.pins.resetN ∧ u.pins.early = s.pins.resetN ∧ u.pins.alertHeld = false) ∧
    (∃ u : State, exec .inputFault s = .next u ∧ kept u ∧ u.pins.pgoodN = true ∧ u.pins.inputOk = false) ∧
    (∀ seat mode, ∃ u : State, exec (.pinReset seat mode) s = .next u ∧ strapped u seat mode ∧ u.pins.resetN = false ∧
      (s.pins.pgoodN = true ∨ s.phase = 1 ∨ (s.phase = 0 ∧ s.pins.resetN = false ∧ s.regFld .testStat 27 25 = 1) →
        (∀ a, a ≠ Reg.officeStrap.addr → u.word a = s.word a) ∧ SameMem s u) ∧
      (s.pins.pgoodN = false → s.phase ≠ 1 → ¬ (s.phase = 0 ∧ s.pins.resetN = false ∧ s.regFld .testStat 27 25 = 1) →
        begun u 1 0)) ∧
    (∀ a b early,
      (s.pins.resetN = true → exec (.resetRelease a b early) s = .next s) ∧
      (s.pins.resetN = false →
        let s1 : State := { s with pins := { s.pins with resetN := true } }
        (2 ≤ s.phase ∨ s.pins.fenced = true → exec (.resetRelease a b early) s = .next s1) ∧
        (s.phase < 2 → s.pins.fenced = false → (s.pins.pgoodN = true ∨ early = true) → exec (.resetRelease a b early) s =
          .next { s1 with pins := { s1.pins with early := true, copyA := a, copyB := b } }) ∧
        (s.phase < 2 → s.pins.fenced = false → s.pins.pgoodN = false → early = false →
          exec (.resetRelease a b early) s = .next (s1.boot a b)))) ∧
    ((s.pins.early = false ∨ s.pins.pgoodN = true ∨ s.pins.resetN = false ∨ 2 ≤ s.phase ∨ s.pins.fenced = true →
        exec .internalResetRelease s = .next s) ∧
      (s.pins.early = true → s.pins.pgoodN = false → s.pins.resetN = true → s.phase < 2 → s.pins.fenced = false →
        exec .internalResetRelease s = .next (s.boot s.pins.copyA s.pins.copyB))) ∧
    (∀ a b, s.pins.fenced = false → s.regFld .testDawn 1 0 ≠ 0 →
      let u := s.boot a b
      let f := s.loadFuses
      u.pins.early = false ∧ u.pins.copyA = a ∧ u.pins.copyB = b ∧ ((∀ p, s.lesson p = none) → SameMem s u) ∧
      (s.regBit .officeStrap 31 = false → u.pins.alertHeld = true ∧ u.pins.mgmt = true ∧ u.phase = 0 ∧
        u.regFld .testItem 23 0 = s.regFld .officeStrap 6 0) ∧
      (s.regBit .officeStrap 31 = true → f.principalOk s.prefSlot = true →
        (u.phase = 3 ∧ u.runSlot = s.prefSlot ∧ u.pins = { s.pins with early := false, copyA := a, copyB := b } ∧
          (∀ r ∈ [Reg.testRetain, .testDusk, .secDebug], u.reg r = s.reg r) ∧ u.retained = s.retained ∧
          (∀ n, n < 4 → u.reg (.officeSerial n) = BitVec.ofNat 32 (s.fuses.serial.toNat / 2 ^ (32 * n))) ∧
          u.regFld .secBoot 7 0 = s.fuses.svnPri % 256 ∧ u.regBit .secBoot 30 = s.fuses.owner.isSome)) ∧
      (s.regBit .officeStrap 31 = true → f.principalOk s.prefSlot = false → f.principalOk (!s.prefSlot) = true →
        u.phase = 3 ∧ u.runSlot = (!s.prefSlot) ∧ u.regBit .secBoot 29 = true ∧ u.pins.fenced = false) ∧
      (s.regBit .officeStrap 31 = true → f.principalOk false = false → f.principalOk true = false →
        u.pins.fenced = true ∧ u.pins.mgmt = true ∧ u.phase = 10)) ∧
    (s.phase ≠ 1 ∨ s.pins.pgoodN = false → ∀ bad, exec (.railsInRegulation bad) s = .next s) ∧
    (s.phase = 1 → s.pins.pgoodN = true → s.pins.fenced = false → ∀ bad, ∃ u : State,
      exec (.railsInRegulation bad) s = .next u ∧ u.pins.pgoodN = false ∧ ((∀ p, s.lesson p = none) → SameMem s u) ∧
      (bad = 0 → (∀ k, k < 8 → s.stagePermanent k = false) → s.regFld .powerStat 31 28 = 8 →
        u.regFld .testDawn 1 0 = 1 ∧ u.pins.fenced = false))

/-- The rest of the start sequence and the dusk test: MONITOR_READY, MONITOR_READY_TIMEOUT, DAWN_TEST_COMPLETE and
DUSK_TEST_COMPLETE. Choices of the model in it, where the spec leaves a point open: log entries 91 to 94, 117, 144. -/
def Obligations.StartSequence : Prop :=
  ∀ (s : State),
    let good := s.bundleOutcome (s.slot s.runSlot) = 0
    let other := s.regBit .secBoot 29 = false ∧ s.principalOk (!s.runSlot) = true
    -- the other slot begins: F0 loads first
    let turned := fun v : State => v.runSlot = (!s.runSlot) ∧ v.regBit .secBoot 29 = true ∧ v.phase = s.phase ∧
      v.regFld .fwMonstat 11 0 = 1
    let fenced := fun v : State => v.pins.fenced = true ∧ v.pins.mgmt = true ∧ v.phase = 10
    (∀ m, m < 6 →
      (s.monState m ≠ 1 → exec (.monitorReady m) s = .next s ∧ exec (.monitorReadyTimeout m) s = .next s) ∧
      (¬ good → exec (.monitorReady m) s = .next s) ∧
      (s.monState m = 1 → ∃ u v : State, exec (.monitorReady m) s = .next u ∧ exec (.monitorReadyTimeout m) s = .next v ∧
        (m < 5 ∨ (∀ p, s.lesson p = none) → SameMem s u ∧ SameMem s v) ∧
        -- the next monitor's turn
        (m < 5 → (good → u.monState m = 2 ∧ u.monState (m + 1) = 1 ∧ ∀ a, a ≠ Reg.fwMonstat.addr → u.word a = s.word a) ∧
          v.monState m = 3 ∧ v.monState (m + 1) = 1 ∧ v.phase = s.phase ∧ ∀ j, j < 6 → j ≠ m → j ≠ m + 1 →
            (good → u.monState j = s.monState j) ∧ v.monState j = s.monState j) ∧
        -- the sixth ends the load of the image
        (m = 5 → good → (∀ j, j < 5 → s.monState j = 2) → u.monState 5 = 2 ∧ (s.phase = 5 → u.phase = 6 ∨ u.phase = 7) ∧
          (s.phase ≠ 5 → ∀ a, a ≠ Reg.fwMonstat.addr → u.word a = s.word a)) ∧
        ∀ w, (w = v ∨ (w = u ∧ good ∧ ∃ j, j < 5 ∧ s.monState j ≠ 2)) → m = 5 →
          (s.fw.act = none → s.phase = 5 → (other → turned w) ∧ (¬ other → s.pins.fenced = false → fenced w)) ∧
          (s.fw.act = none → s.phase ≠ 5 → w.phase = s.phase ∧ w.runSlot = s.runSlot ∧ w.pins = s.pins) ∧
          ∀ a, s.fw.act = some a →
            (s.regFld .fwStat 31 30 = 3 → w.runSlot = s.prefSlot ∧ w.slotState s.runSlot = 2 ∧ w.regBit .fwStat 28 = true ∧
              w.regFld .fwStat 31 30 = 2 ∧ w.regFld .fwMonstat 11 0 = 1 ∧ w.regFld .testStat 27 25 = 4 ∧
              ∃ f, w.fw.act = some f ∧ f.fallback = true ∧ f.started = true ∧ f.cmd = s.fw.trialCmd) ∧
            (s.regFld .fwStat 31 30 ≠ 3 → a.fallback = false → other → turned w ∧ w.regFld .testStat 27 25 = 4 ∧
              w.fw.act = some a) ∧
            (s.regFld .fwStat 31 30 ≠ 3 → a.fallback = true ∨ ¬ other → s.pins.fenced = false → fenced w))) ∧
    (∀ os unit ls ts ms,
      (s.phase = 3 →
        ((∀ i, i < 7 → outcomeAt os i ≠ 3) → ∃ u : State, exec (.dawnTestComplete os unit ls ts ms) s = .next u ∧ u.phase = 5 ∧
          u.pins = { s.pins with mgmt := true, armed := u.pins.armed } ∧ u.dawnMs = ms ∧
          u.regFld .testDawn 3 2 = Nat.max (outcomeAt os 0) (outcomeAt os 1) ∧
          u.regFld .testDawn 5 4 = outcomeAt os 2 ∧ (∀ k, k < 4 → u.regFld .testDawn (2 * k + 7) (2 * k + 6) = outcomeAt os (3 + k)) ∧
          u.regFld .fwMonstat 11 0 = 1 ∧
          -- retained state, the seat and the dusk record are taken
          (let clear := s.regBit .testRetain 31 = true ∨ s.pins.testmode = 2
           let whole := s.pins.copyA = true ∨ s.pins.copyB = true
           let w := s.reg .testDusk
           u.reg .testDusk = 0 ∧ u.regFld .testRetain 4 0 = s.seat ∧ (clear → u.regBit .testStat 21 = true) ∧
           (¬ whole → u.regBit .testRetain 30 = true) ∧
           (clear ∨ ¬ whole → u.pins.armed = none ∧ u.retained.locs = [] ∧ u.retained.exTiles = [] ∧ u.regBit .testRetain 31 = false ∧
             u.regBit .testStat 24 = true) ∧
           (¬ clear → whole → u.pins.armed = s.pins.armed ∧ u.retained.locs = s.retained.locs ∧
             (∀ scope, s.pins.armed = some scope → u.regBit .secDebug 31 = true ∧ u.regFld .secDebug 27 24 = scope.toNat) ∧
             (s.regFld .testRetain 4 0 ≠ s.seat → u.regBit .testStat 20 = true) ∧
             (u.regBit .testStat 24 = false ↔ fld w 31 30 = 3 ∧
               ∀ i, i < 4 → fld w (2 * i + 1) (2 * i) = 1 ∨ fld w (2 * i + 1) (2 * i) = 2)))) ∧
        ((∃ i, i < 7 ∧ outcomeAt os i = 3) → s.pins.fenced = false → ∃ u : State,
          exec (.dawnTestComplete os unit ls ts ms) s = .next u ∧ u.pins.fenced = true ∧ u.regBit .testStat 22 = true ∧ u.phase = 10 ∧
          u.pins.mgmt = decide (outcomeAt os 2 ≠ 3))) ∧
      (s.phase = 6 → s.regBit .testStat 24 = true → s.regFld .testDawn 15 14 = 0 → s.erasing false = false → s.erasing true = false →
        (∀ i, i < 4 → outcomeAt os i ≠ 3) → outcomeAt os 0 ≠ 0 → ∃ u : State,
        exec (.dawnTestComplete os unit ls ts ms) s = .next u ∧ u.phase = 7 ∧ u.pins.storage0 = true ∧ u.pins.storage1 = true ∧
          ∀ k, k < 4 → u.regFld .testDawn (2 * k + 15) (2 * k + 14) = outcomeAt os k) ∧
      (s.phase ≠ 3 → s.phase ≠ 6 → exec (.dawnTestComplete os unit ls ts ms) s = .next s)) ∧
    ∀ os unit ls ts,
      (s.phase ≠ 9 → exec (.duskTestComplete os unit ls ts) s = .next s) ∧
      (s.phase = 9 → ∃ u : State, exec (.duskTestComplete os unit ls ts) s = .next u ∧ u.phase = 0 ∧ u.cmds = [] ∧
        u.regFld .testStat 27 25 = 2 ∧ u.pins.mgmt = false ∧ (∀ p, u.hostUp p = false) ∧
        ((∀ i, i < 4 → outcomeAt os i ≠ 3) ∨ s.pins.fenced = true ∨ (∀ p, s.lesson p = none) → SameMem s u) ∧
        (s.regBit .testRetain 31 = false → u.regBit .testDusk 31 = true ∧ u.regBit .testDusk 30 = true ∧
          ∀ i, i < 4 → u.regFld .testDusk (2 * i + 1) (2 * i) = outcomeAt os i) ∧
        (s.regBit .testRetain 31 = true → u.reg .testDusk = s.reg .testDusk &&& Reg.testDusk.info.ret))

/-- R15, R16, R373, R378: the state right after reset: every register at its Reset entry (the entries that are not 0 are written out,
the others read 0), the memories at 0, no command waiting. The state meets the invariants. Choices of the model in it, where the
spec leaves a point open: log entries 5 to 8. -/
def Obligations.ResetState : Prop :=
  (∀ r : Reg, regAt r.addr = some r → State.reset.reg r = r.info.reset ∧ State.reset.reg r =
    match r with
    | .officeId => 0x0B020000
    | .cmdRctl _ _ => 0x11000000
    | .cmdChead _ _ => 0x80000000
    | .pigeonFrom _ => 0xF0000000
    | .pigeonTimeout => 1000
    | .bellMargin _ => 0x00FFFFFF
    | .bellHoldmax _ => 0x0003B9AC
    | .linkStat _ => 0x00003E00
    | .linkLanemap _ => 0x00003444
    | .linkLanethr => 2048
    | .watchStat _ => 0x0000FFFF
    | .watchZerothr _ => 0x000F3E58
    | .watchZerorun _ => 0x80000040
    | .checkRecall _ => 0x00080000
    | .checkMirror _ => 0x00010400
    | .checkTest => 0x180A8000
    | .powerStat => 0x80000000
    | .powerLimit => 0x08980898
    | .powerTherm => 0x5A000000
    | .testItem => 0xFF000000
    | _ => 0) ∧
  (∀ t sh a, State.reset.memAt t sh a = 0) ∧ (∀ a, Bank.byte State.reset.stash a = 0) ∧ State.reset.pending = [] ∧
  State.reset.cmds = [] ∧ State.reset.fuses.legal = true ∧ State.reset.memWf ∧ State.reset.tiles = []

/-- Which commands complete: a well-formed command other than STALL_RESUME faults nowhere, and one that is no tile instruction always
has a next state. -/
def Obligations.WellFormedCommandsComplete : Prop :=
  ∀ (c : Instr) (s : State), c.wf = true → (∀ t b, c ≠ .stallResume t b) →
    (∀ f, exec c s ≠ .fault f) ∧ (issueOf c = none → ∃ u : State, exec c s = .next u)

/-- R72, R97, R99, R132, R217, R241: the word of every tile instruction decodes to it, and a word that decodes is the word of what it
decodes to; the run over a cross-read block has MX.RUN's word (R83). -/
def Obligations.TileWordsRoundTrip : Prop :=
  (∀ i a pipe w, encodeWord i = some (a, pipe, w) → pipe < 3 ∧ w < 2 ^ 64 ∧ wordInstr a pipe w = some i) ∧
  (∀ i a pipe w, pipe < 3 → w < 2 ^ 64 → wordInstr a pipe w = some i → encodeWord i = some (a, pipe, w)) ∧
  ∀ i a, issueOf i = some a → (∀ f, i ≠ .crossReadRun a f) → ∃ pipe w, encodeWord i = some (a, pipe, w)

/-- What every step keeps: the anti-rollback counters never fall and stay within their fuses, a burnt owner key and what manufacture
wrote stay, and the queue only loses its front. -/
def Obligations.FusesAndQueueKept : Prop :=
  ∀ s t : State, step s = .next t → s.fuses.legal = true →
    t.fuses.legal = true ∧ Fuses.Later s.fuses t.fuses ∧ t.pending = s.pending.tail
end

