-- ==== Sys2Proof/Laws/Bank.lean ====
section
/-! SUPPORT. Sparse stores: a read after a write, and the canonical form. -/

set_option Elab.async false

namespace Sys2Proof.Machine

variable {α : Type}

theorem Bank.get_drop_same (d : Nat → α) (m : Bank α) (k : Nat) : Bank.get d (Bank.drop m k) k = d k := by
  induction m with
  | nil => rfl
  | cons e m ih =>
    by_cases h : e.1 = k
    · simpa [Bank.drop, h] using ih
    · have h' : k ≠ e.1 := fun x => h x.symm
      simpa [Bank.drop, h, Bank.get, h'] using ih

theorem Bank.get_drop_ne (d : Nat → α) (m : Bank α) {j k : Nat} (h : j ≠ k) : Bank.get d (Bank.drop m k) j = Bank.get d m j := by
  induction m with
  | nil => rfl
  | cons e m ih =>
    by_cases hk : e.1 = k
    · have hj : j ≠ e.1 := by omega
      simpa [Bank.drop, hk, Bank.get, hj, h] using ih
    · by_cases hj : j = e.1
      · simp [Bank.drop, hk, Bank.get, hj]
      · simpa [Bank.drop, hk, Bank.get, hj] using ih

theorem Bank.get_put_ne (d : Nat → α) (m : Bank α) {j k : Nat} (v : α) (h : j ≠ k) :
    Bank.get d (Bank.put m k v) j = Bank.get d m j := by
  induction m with
  | nil => simp [Bank.put, Bank.get, h]
  | cons e m ih =>
    by_cases hk : k < e.1
    · simp [Bank.put, hk, Bank.get, h]
    · simp [Bank.put, hk, Bank.get, ih]

theorem Bank.get_put_drop (d : Nat → α) (m : Bank α) (k : Nat) (v : α) : Bank.get d (Bank.put (Bank.drop m k) k v) k = v := by
  induction m with
  | nil => simp [Bank.drop, Bank.put, Bank.get]
  | cons e m ih =>
    by_cases h : e.1 = k
    · simpa [Bank.drop, h] using ih
    · have h' : k ≠ e.1 := fun x => h x.symm
      by_cases hk : k < e.1
      · simp [Bank.drop, h, Bank.put, hk, Bank.get]
      · simpa [Bank.drop, h, Bank.put, hk, Bank.get, h'] using ih

/-- A read after a write at the same key gives the value written. -/
@[simp] theorem Bank.get_set_same [DecidableEq α] (d : Nat → α) (m : Bank α) (k : Nat) (v : α) :
    Bank.get d (Bank.set d m k v) k = v := by
  unfold Bank.set
  split
  · next h => rw [Bank.get_drop_same, h]
  · exact Bank.get_put_drop d m k v

/-- A write leaves every other key alone. -/
theorem Bank.get_set_ne [DecidableEq α] (d : Nat → α) (m : Bank α) {j k : Nat} (v : α) (h : j ≠ k) :
    Bank.get d (Bank.set d m k v) j = Bank.get d m j := by
  unfold Bank.set
  split
  · exact Bank.get_drop_ne d m h
  · rw [Bank.get_put_ne d _ v h, Bank.get_drop_ne d m h]

theorem Bank.get_set [DecidableEq α] (d : Nat → α) (m : Bank α) (j k : Nat) (v : α) :
    Bank.get d (Bank.set d m k v) j = if j = k then v else Bank.get d m j := by
  split
  · next h => rw [h, Bank.get_set_same]
  · next h => exact Bank.get_set_ne d m v h

/-! ### The canonical form -/

theorem Bank.wf_nil [DecidableEq α] (d : Nat → α) : Bank.wf d ([] : Bank α) := by simp [Bank.wf]

theorem Bank.wf_filter [DecidableEq α] {d : Nat → α} {m : Bank α} (h : Bank.wf d m) (p : Nat × α → Bool) :
    Bank.wf d (m.filter p) :=
  ⟨h.1.filter p, fun e he => h.2 e (List.mem_filter.1 he).1⟩

theorem Bank.mem_put {m : Bank α} {k : Nat} {v : α} {e : Nat × α} (h : e ∈ Bank.put m k v) : e = (k, v) ∨ e ∈ m := by
  induction m with
  | nil => simpa [Bank.put] using h
  | cons x m ih =>
    by_cases hk : k < x.1
    · simpa [Bank.put, hk] using h
    · rcases (by simpa [Bank.put, hk] using h : e = x ∨ e ∈ Bank.put m k v) with h1 | h1
      · exact .inr (by simp [h1])
      · rcases ih h1 with h2 | h2
        · exact .inl h2
        · exact .inr (by simp [h2])

theorem Bank.pairwise_put {m : Bank α} {k : Nat} {v : α} (h : m.Pairwise fun x y => x.1 < y.1) (hk : ∀ e ∈ m, e.1 ≠ k) :
    (Bank.put m k v).Pairwise fun x y => x.1 < y.1 := by
  induction m with
  | nil => simp [Bank.put]
  | cons x m ih =>
    rw [List.pairwise_cons] at h
    have hx : x.1 ≠ k := hk x (by simp)
    by_cases hlt : k < x.1
    · simp only [Bank.put, hlt, if_true, List.pairwise_cons]
      refine ⟨fun y hy => ?_, h.1, h.2⟩
      rcases List.mem_cons.1 hy with h1 | h1
      · simpa [h1] using hlt
      · exact Nat.lt_trans hlt (h.1 y h1)
    · simp only [Bank.put, hlt, if_false, List.pairwise_cons]
      refine ⟨fun y hy => ?_, ih h.2 fun e he => hk e (by simp [he])⟩
      rcases Bank.mem_put hy with h1 | h1
      · subst h1; show x.1 < k; omega
      · exact h.1 y h1

/-- A write keeps the canonical form. -/
theorem Bank.wf_set [DecidableEq α] {d : Nat → α} {m : Bank α} (h : Bank.wf d m) (k : Nat) (v : α) :
    Bank.wf d (Bank.set d m k v) := by
  have hd : Bank.wf d (Bank.drop m k) := Bank.wf_filter h _
  unfold Bank.set
  split
  · exact hd
  · next hv =>
    refine ⟨Bank.pairwise_put hd.1 fun e he => ?_, fun e he => ?_⟩
    · have := (List.mem_filter.1 he).2
      simpa using this
    · rcases Bank.mem_put he with h1 | h1
      · subst h1; exact hv
      · exact hd.2 e h1

theorem Bank.wf_setAll [DecidableEq α] {d : Nat → α} (es : List (Nat × α)) {m : Bank α} (h : Bank.wf d m) :
    Bank.wf d (Bank.setAll d m es) := by
  induction es generalizing m with
  | nil => exact h
  | cons e es ih => exact ih (Bank.wf_set h e.1 e.2)

theorem Bank.wf_clear [DecidableEq α] {d : Nat → α} {m : Bank α} (h : Bank.wf d m) (lo hi : Nat) : Bank.wf d (Bank.clear m lo hi) :=
  Bank.wf_filter h _

theorem Bank.wf_copy [DecidableEq α] {d : Nat → α} {m : Bank α} (h : Bank.wf d m) (src : Bank α) (lo dst n : Nat) :
    Bank.wf d (Bank.copy d m src lo dst n) := Bank.wf_setAll _ (Bank.wf_clear h _ _)

theorem Bank.wf_putBytes {m : Bank Byte} (h : Bank.wf zeroByte m) (a : Nat) (b : Bytes) : Bank.wf zeroByte (Bank.putBytes m a b) := by
  induction b generalizing m a with
  | nil => exact h
  | cons x b ih => exact ih (Bank.wf_set h a x) (a + 1)

/-! ### Byte strings -/

/-- A byte outside the bytes written reads as before. -/
theorem Bank.byte_putBytes_out (m : Bank Byte) (a : Nat) (b : Bytes) {j : Nat} (h : j < a ∨ a + b.length ≤ j) :
    Bank.byte (Bank.putBytes m a b) j = Bank.byte m j := by
  induction b generalizing m a with
  | nil => rfl
  | cons x b ih =>
    simp only [List.length_cons] at h
    rw [Bank.putBytes, ih _ (a + 1) (by omega)]
    exact Bank.get_set_ne _ _ _ (by omega)

/-- A byte written reads as written. -/
theorem Bank.byte_putBytes_in (m : Bank Byte) (a : Nat) (b : Bytes) {i : Nat} (h : i < b.length) :
    Bank.byte (Bank.putBytes m a b) (a + i) = b[i] := by
  induction b generalizing m a i with
  | nil => simp at h
  | cons x b ih =>
    cases i with
    | zero =>
      rw [Bank.putBytes, Bank.byte_putBytes_out _ _ _ (by omega)]
      exact Bank.get_set_same _ _ _ _
    | succ i =>
      simp only [List.length_cons] at h
      have := ih (Bank.set zeroByte m a x) (a + 1) (i := i) (by omega)
      simpa [Bank.putBytes, Nat.add_assoc, Nat.add_comm 1 i] using this

/-- A byte outside a cleared range reads as before; one inside reads as unlisted. -/
theorem Bank.get_clear (d : Nat → α) (m : Bank α) (lo hi k : Nat) :
    Bank.get d (Bank.clear m lo hi) k = if lo ≤ k ∧ k < hi then d k else Bank.get d m k := by
  induction m with
  | nil => simp [Bank.clear, Bank.get]
  | cons e m ih =>
    by_cases hr : lo ≤ e.1 ∧ e.1 < hi
    · have h1 : Bank.clear (e :: m) lo hi = Bank.clear m lo hi := by simp [Bank.clear, hr]
      rw [h1, ih]
      by_cases hk : k = e.1
      · simp [hk, hr]
      · simp [Bank.get, hk]
    · have h1 : Bank.clear (e :: m) lo hi = e :: Bank.clear m lo hi := by
        rw [Bank.clear, List.filter_cons_of_pos (by simp; omega)]; rfl
      rw [h1]
      by_cases hk : k = e.1
      · simp [Bank.get, hk, hr]
      · simp [Bank.get, hk, ih]

end Sys2Proof.Machine
end

