-- ==== Sys2Proof/Laws/Kept.lean ====
section
/-! SUPPORT. What no operation changes but those of the fuses: the fuses and the queue of waiting commands, with the forms that say
so of
a unit's action, a command's own part and an outcome. -/

set_option Elab.async false

namespace Sys2Proof.Machine

/-- The fuses and the waiting commands. -/
def State.kept (s : State) : Fuses × List Instr := (s.fuses, s.pending)

@[simp] theorem State.kept_eta (s : State) : (s.fuses, s.pending) = s.kept := (rfl)

/-- A record's fuses and queue. -/
@[simp] theorem State.kept_mk {x0 : Fuses} {x1 : Pins} {x2 : Bank Word} {x3 : Bank (Option Word)}
    {x4 : Bank (BitVec 2)} {x5 : Bank (BitVec 33)} {x6 : Retained} {x7 : Bank Tile} {x8 : Bank Byte}
    {x9 : Bank (BitVec 2)} {x10 : List (Nat × Nat × Flit)} {x11 : Bank Nat} {x12 : Part} {x13 : Part}
    {x14 : Bank Port} {x15 : BitVec 20} {x16 : Option Nat} {x17 : Bank Channel} {x18 : Bank Bool}
    {x19 : List Outstanding} {x20 : Bank Nat} {x21 : Nat} {x22 : Bank (Option (Nat × BitVec 16))}
    {x23 : List (BitVec 16)} {x24 : List (BitVec 16 × Byte)} {x25 : BitVec 9} {x26 : Ring} {x27 : Firmware}
    {x28 : Option (BitVec 128)} {x29 : Option (Byte × Bytes)} {x30 : Bank Nat} {x31 : Option Nat} {x32 : Option Nat}
    {x33 : List Nat} {x34 : Nat} {x35 : List Nat} {x36 : List Nat} {x37 : List Nat} {x38 : BitVec 64} {x39 : Nat}
    {x40 : List Out} {x41 : List Instr} :
    (State.mk x0 x1 x2 x3 x4 x5 x6 x7 x8 x9 x10 x11 x12 x13 x14 x15 x16 x17 x18 x19 x20 x21 x22 x23 x24 x25 x26 x27
    x28 x29 x30 x31 x32 x33 x34 x35 x36 x37 x38 x39 x40 x41).kept = (x0, x41) := (rfl)

/-- An outcome whose next state holds the given fuses and queue. -/
def Keeps (k : Fuses × List Instr) (o : Host.Outcome State Fault Refusal) : Prop :=
  match o with
  | .next t => t.kept = k
  | _ => True

/-- A unit's action whose state holds the given fuses and queue. -/
def Act.Keeps (r : Act) (k : Fuses × List Instr) : Prop :=
  match r with
  | .done t => t.kept = k
  | .wait t _ => t.kept = k
  | .refuse _ => True

@[simp] theorem keeps_next (k : Fuses × List Instr) (t : State) : Machine.Keeps k (.next t) ↔ t.kept = k := Iff.rfl
@[simp] theorem keeps_fault (k : Fuses × List Instr) (f : Fault) : Machine.Keeps k (.fault f) := trivial
@[simp] theorem keeps_refused (k : Fuses × List Instr) (f : Refusal) : Machine.Keeps k (.refused f) := trivial
@[simp] theorem act_done (k : Fuses × List Instr) (t : State) : (Act.done t).Keeps k ↔ t.kept = k := Iff.rfl
@[simp] theorem act_wait (k : Fuses × List Instr) (t : State) (w : Wait) : (Act.wait t w).Keeps k ↔ t.kept = k := Iff.rfl
@[simp] theorem act_refuse (k : Fuses × List Instr) (r : Refusal) : (Act.refuse r).Keeps k := trivial

/-- A fold of a change that leaves fuses and queue alone leaves them alone. -/
@[simp] theorem foldl_kept {α : Type} (f : State → α → State) (l : List α) (s : State) (h : ∀ a x, (f a x).kept = a.kept) :
    (l.foldl f s).kept = s.kept := by
  induction l generalizing s with
  | nil => rfl
  | cons x l ih => rw [List.foldl_cons, ih, h]

/-- The same for a fold that carries the state in its second component. -/
@[simp] theorem foldl_kept_snd {α β : Type} (f : β × State → α → β × State) (l : List α) (s : β × State)
    (h : ∀ a x, (f a x).2.kept = a.2.kept) : (l.foldl f s).2.kept = s.2.kept := by
  induction l generalizing s with
  | nil => rfl
  | cons x l ih => rw [List.foldl_cons, ih, h]

/-- The same for a fold that carries the state in its first component. -/
@[simp] theorem foldl_kept_fst {α β : Type} (f : State × β → α → State × β) (l : List α) (s : State × β)
    (h : ∀ a x, (f a x).1.kept = a.1.kept) : (l.foldl f s).1.kept = s.1.kept := by
  induction l generalizing s with
  | nil => rfl
  | cons x l ih => rw [List.foldl_cons, ih, h]

/-- The same for a fold that carries the state in its third component. -/
@[simp] theorem foldl_kept_third {α β γ : Type} (f : β × γ × State → α → β × γ × State) (l : List α) (s : β × γ × State)
    (h : ∀ a x, (f a x).2.2.kept = a.2.2.kept) : (l.foldl f s).2.2.kept = s.2.2.kept := by
  induction l generalizing s with
  | nil => rfl
  | cons x l ih => rw [List.foldl_cons, ih, h]

@[simp] theorem kept_ite (c : Prop) [Decidable c] (a b : State) : (if c then a else b).kept = if c then a.kept else b.kept := by
  split <;> rfl

@[simp] theorem kept_ite_snd {α : Type} (c : Prop) [Decidable c] (a b : α × State) :
    (if c then a else b).2.kept = if c then a.2.kept else b.2.kept := by
  split <;> rfl

@[simp] theorem kept_ite_fst {α : Type} (c : Prop) [Decidable c] (a b : State × α) :
    (if c then a else b).1.kept = if c then a.1.kept else b.1.kept := by
  split <;> rfl

/-- What an option of a state holds. -/
def Held (k : Fuses × List Instr) (o : Option State) : Prop := ∀ t, o = some t → t.kept = k

@[simp] theorem held_none (k : Fuses × List Instr) : Held k none := by intro t h; cases h
@[simp] theorem held_some (k : Fuses × List Instr) (t : State) : Held k (some t) ↔ t.kept = k :=
  ⟨fun h => h t rfl, fun h _ e => by cases e; exact h⟩

end Sys2Proof.Machine
end

