-- ==== Sys2Proof/Laws/KeptRegs.lean ====
section
/-! SUPPORT. The operations of Machine/Regs.lean leave the fuses and the queue alone. -/

set_option Elab.async false

namespace Sys2Proof.Machine

@[simp] theorem State.setWord_kept (s : State) (a : Nat) (w : Word) :
    (State.setWord s a w).kept = s.kept := by
  unfold State.setWord; simp

@[simp] theorem State.setReg_kept (s : State) (r : Reg) (w : Word) :
    (State.setReg s r w).kept = s.kept := by
  unfold State.setReg; simp

@[simp] theorem State.setRegFld_kept (s : State) (r : Reg) (hi : Nat) (lo : Nat) (v : Nat) :
    (State.setRegFld s r hi lo v).kept = s.kept := by
  unfold State.setRegFld; simp

@[simp] theorem State.setRegBit_kept (s : State) (r : Reg) (n : Nat) (b : Bool) :
    (State.setRegBit s r n b).kept = s.kept := by
  unfold State.setRegBit; simp

@[simp] theorem State.setReg64_kept (s : State) (lo : Reg) (hi : Reg) (v : BitVec 64) :
    (State.setReg64 s lo hi v).kept = s.kept := by
  unfold State.setReg64; simp

@[simp] theorem State.setStep64_kept (s : State) (p : Bool) (v : BitVec 64) :
    (State.setStep64 s p v).kept = s.kept := by
  unfold State.setStep64; simp

@[simp] theorem State.setCstep64_kept (s : State) (p : Bool) (v : BitVec 64) :
    (State.setCstep64 s p v).kept = s.kept := by
  unfold State.setCstep64; simp

@[simp] theorem State.setMstep64_kept (s : State) (p : Bool) (v : BitVec 64) :
    (State.setMstep64 s p v).kept = s.kept := by
  unfold State.setMstep64; simp

end Sys2Proof.Machine
end

