-- ==== Sys2Proof/Laws/KeptOps.lean ====
section
/-! SUPPORT. The operations of Machine/Ops.lean leave the fuses and the queue alone. -/

set_option Elab.async false

namespace Sys2Proof.Machine

@[simp] theorem State.setTile_kept (s : State) (t : Nat) (x : Tile) :
    (State.setTile s t x).kept = s.kept := by
  unfold State.setTile; simp

@[simp] theorem State.setPart_kept (s : State) (p : Bool) (x : Part) :
    (State.setPart s p x).kept = s.kept := by
  unfold State.setPart; simp

@[simp] theorem State.setPort_kept (s : State) (l : Nat) (x : Port) :
    (State.setPort s l x).kept = s.kept := by
  unfold State.setPort; simp

@[simp] theorem State.setChan_kept (s : State) (c : Nat) (x : Channel) :
    (State.setChan s c x).kept = s.kept := by
  unfold State.setChan; simp

@[simp] theorem State.emit_kept (s : State) (o : Out) :
    (State.emit s o).kept = s.kept := by
  unfold State.emit; simp

@[simp] theorem State.draw_kept (s : State) :
    (State.draw s).kept = s.kept := by
  unfold State.draw; simp

@[simp] theorem State.mapTiles_kept (s : State) (ts : List Nat) (f : Tile → Tile) :
    (State.mapTiles s ts f).kept = s.kept := by
  unfold State.mapTiles; simp

@[simp] theorem State.setPnum_kept (s : State) (p : Bool) (n : BitVec 48) :
    (State.setPnum s p n).kept = s.kept := by
  unfold State.setPnum; simp

@[simp] theorem State.logErr_kept (s : State) (e : ErrEv) :
    (State.logErr s e).kept = s.kept := by
  unfold State.logErr; simp

@[simp] theorem State.fenceRec_kept (s : State) (p : Option Bool) (kind : Nat) (unit : Bytes) (scope : Nat) (causes : Nat) :
    (State.fenceRec s p kind unit scope causes).kept = s.kept := by
  unfold State.fenceRec; simp

@[simp] theorem State.fenceTile_kept (s : State) (t : Nat) :
    (State.fenceTile s t).kept = s.kept := by
  unfold State.fenceTile; simp

@[simp] theorem State.tileErr_kept (s : State) (c : Ctx) (code : Nat) (cls : Nat) (loc : Nat) (syn : Bytes) :
    (State.tileErr s c code cls loc syn).kept = s.kept := by
  unfold State.tileErr; simp

@[simp] theorem State.markTile_kept (s : State) (t : Nat) (cause : Nat) :
    (State.markTile s t cause).kept = s.kept := by
  unfold State.markTile; simp

@[simp] theorem State.markPart_kept (s : State) (p : Bool) (cause : Nat) :
    (State.markPart s p cause).kept = s.kept := by
  unfold State.markPart; simp

@[simp] theorem State.count_kept (s : State) (p : Bool) (w : Nat) (ks : List Tick) :
    (State.count s p w ks).kept = s.kept := by
  unfold State.count; split <;> simp

@[simp] theorem State.countTile_kept (s : State) (t : Nat) (w : Nat) (ks : List Tick) :
    (State.countTile s t w ks).kept = s.kept := by
  unfold State.countTile; split <;> simp

end Sys2Proof.Machine
end

