-- ==== Sys2Proof/Laws/KeptMem.lean ====
section
/-! SUPPORT. The operations of Machine/Mem.lean leave the fuses and the queue alone. -/

set_option Elab.async false

namespace Sys2Proof.Machine

@[simp] theorem State.rangeFault_kept (s : State) (c : Ctx) (shelf : Bool) (addr : Nat) :
    (State.rangeFault s c shelf addr).kept = s.kept := by
  unfold State.rangeFault; simp

@[simp] theorem State.wordRead_kept (s : State) (c : Ctx) (shelf : Bool) (addr : Nat) (bad : Bool) :
    (State.wordRead s c shelf addr bad).kept = s.kept := by
  unfold State.wordRead; simp

@[simp] theorem State.rangeCheck_kept (s : State) (c : Ctx) (shelf : Bool) (accs : List (Nat × Nat)) :
    (State.rangeCheck s c shelf accs).kept = s.kept := by
  unfold State.rangeCheck; split <;> simp

@[simp] theorem State.readCore_kept (s : State) (c : Ctx) (shelf : Bool) (addr : Nat) (n : Nat) :
    (State.readCore s c shelf addr n).2.kept = s.kept := by
  unfold State.readCore; simp

@[simp] theorem State.readMem_kept (s : State) (c : Ctx) (shelf : Bool) (addr : Nat) (n : Nat) :
    (State.readMem s c shelf addr n).2.kept = s.kept := by
  unfold State.readMem; simp

@[simp] theorem State.cleanWord_kept (s : State) (t : Nat) (k : Nat) :
    (State.cleanWord s t k).kept = s.kept := by
  unfold State.cleanWord; simp

@[simp] theorem State.coverWord_kept (s : State) (c : Ctx) (shelf : Bool) (w : Nat) (whole : Bool) :
    (State.coverWord s c shelf w whole).kept = s.kept := by
  unfold State.coverWord; simp

@[simp] theorem State.coverWords_kept (s : State) (c : Ctx) (shelf : Bool) (addr : Nat) (n : Nat) :
    (State.coverWords s c shelf addr n).kept = s.kept := by
  unfold State.coverWords; simp

@[simp] theorem State.coverHalves_kept (s : State) (t : Nat) (shelf : Bool) (hs : List Nat) :
    (State.coverHalves s t shelf hs).kept = s.kept := by
  unfold State.coverHalves; simp

@[simp] theorem State.putMem_kept (s : State) (t : Nat) (shelf : Bool) (addr : Nat) (b : Bytes) :
    (State.putMem s t shelf addr b).kept = s.kept := by
  unfold State.putMem; simp

@[simp] theorem State.writeCore_kept (s : State) (c : Ctx) (shelf : Bool) (addr : Nat) (b : Bytes) :
    (State.writeCore s c shelf addr b).kept = s.kept := by
  unfold State.writeCore; simp

@[simp] theorem State.writeMem_kept (s : State) (c : Ctx) (shelf : Bool) (addr : Nat) (b : Bytes) :
    (State.writeMem s c shelf addr b).kept = s.kept := by
  unfold State.writeMem; simp

@[simp] theorem State.writeSegs_kept (s : State) (c : Ctx) (segs : List (Nat × Bytes)) :
    (State.writeSegs s c segs).kept = s.kept := by
  unfold State.writeSegs; simp

@[simp] theorem State.readSegs_kept (s : State) (c : Ctx) (segs : List (Nat × Nat)) :
    (State.readSegs s c segs).2.kept = s.kept := by
  unfold State.readSegs; simp

@[simp] theorem State.poison_kept (s : State) (t : Nat) (shelf : Bool) (addr : Nat) (n : Nat) :
    (State.poison s t shelf addr n).kept = s.kept := by
  unfold State.poison; simp

@[simp] theorem State.editionFault_kept (s : State) (c : Ctx) (region : Nat) (slot : Nat) :
    (State.editionFault s c region slot).kept = s.kept := by
  unfold State.editionFault; simp

@[simp] theorem State.closedFault_kept (s : State) (c : Ctx) (addr n : Nat) :
    (State.closedFault s c addr n).kept = s.kept := by
  unfold State.closedFault
  split
  · rfl
  · exact foldl_kept _ _ _ fun _ _ => State.editionFault_kept _ _ _ _

@[simp] theorem State.writeShelf_kept (s : State) (c : Ctx) (addr : Nat) (b : Bytes) :
    (State.writeShelf s c addr b).kept = s.kept := by
  unfold State.writeShelf; simp

@[simp] theorem State.writeLocal_kept (s : State) (c : Ctx) (shelf : Bool) (addr : Nat) (b : Bytes) :
    (State.writeLocal s c shelf addr b).kept = s.kept := by
  unfold State.writeLocal; simp

@[simp] theorem State.stashRec_kept (s : State) (code : Nat) (cls : Nat) (line : Nat) (p : Option Bool) :
    (State.stashRec s code cls line p).kept = s.kept := by
  unfold State.stashRec; simp

@[simp] theorem State.stashLine_kept (s : State) (line : Nat) (p : Option Bool) :
    (State.stashLine s line p).2.kept = s.kept := by
  unfold State.stashLine; simp

@[simp] theorem State.walk_kept (s : State) (p : Bool) (as : List Nat) : (State.walk s p as).kept = s.kept := by
  unfold State.walk; simp

@[simp] theorem State.readStash_kept (s : State) (phys : Nat) (lines : Nat) (p : Option Bool) :
    (State.readStash s phys lines p).2.2.kept = s.kept := by
  unfold State.readStash; simp

@[simp] theorem State.readLines_kept (s : State) (p : Bool) (a : Nat) (n : Nat) :
    (State.readLines s p a n).2.2.kept = s.kept := by
  unfold State.readLines
  refine (foldl_kept_third _ _ _ fun acc i => ?_).trans (State.walk_kept _ _ _)
  dsimp only
  split <;> simp

@[simp] theorem State.writeStash_kept (s : State) (phys : Nat) (b : Bytes) :
    (State.writeStash s phys b).kept = s.kept := by
  unfold State.writeStash; simp

end Sys2Proof.Machine
end

