-- ==== Sys2Proof/Laws/KeptSend.lean ====
section
/-! SUPPORT. The operations of Machine/Send.lean leave the fuses and the queue alone. -/

set_option Elab.async false

namespace Sys2Proof.Machine

@[simp] theorem State.sendMarker_kept (s : State) (l : Nat) :
    (State.sendMarker s l).kept = s.kept := by
  unfold State.sendMarker; simp

@[simp] theorem State.putBlock_kept (s : State) (l : Nat) (b : Block) :
    (State.putBlock s l b).kept = s.kept := by
  unfold State.putBlock; simp

@[simp] theorem State.flushSlot_kept (s : State) (l : Nat) (slot : Bool) :
    (State.flushSlot s l slot).kept = s.kept := by
  unfold State.flushSlot; simp

@[simp] theorem State.flushPort_kept (s : State) (l : Nat) :
    (State.flushPort s l).kept = s.kept := by
  unfold State.flushPort; simp

@[simp] theorem State.sendOn_kept (s : State) (l : Nat) (f : Frame) :
    (State.sendOn s l f).kept = s.kept := by
  unfold State.sendOn; simp

@[simp] theorem State.sendFrame_kept (s : State) (port : Nat) (f : Frame) :
    (State.sendFrame s port f).kept = s.kept := by
  unfold State.sendFrame; simp

@[simp] theorem State.sendControl_kept (s : State) (l : Nat) (type : Byte) (arg : BitVec 32) :
    (State.sendControl s l type arg).kept = s.kept := by
  unfold State.sendControl; simp

@[simp] theorem State.sendProbe_kept (s : State) (l : Nat) :
    (State.sendProbe s l).kept = s.kept := by
  unfold State.sendProbe; simp

@[simp] theorem State.sendReplay_kept (s : State) (l : Nat) (b : Block) :
    (State.sendReplay s l b).kept = s.kept := by
  unfold State.sendReplay; simp

@[simp] theorem State.linkCredit_kept (s : State) (p : Bool) (port : Nat) (q : Nat) :
    (State.linkCredit s p port q).kept = s.kept := by
  unfold State.linkCredit; simp

@[simp] theorem State.sendData_kept (s : State) (p : Bool) (port : Nat) (q : QueueBind) (period : BitVec 48) (seq : BitVec 16) (b : Bytes) :
    (State.sendData s p port q period seq b).kept = s.kept := by
  unfold State.sendData; simp

@[simp] theorem State.takeSeq_kept (s : State) (port : Nat) (q : QueueBind) :
    (State.takeSeq s port q).2.kept = s.kept := by
  unfold State.takeSeq; simp

@[simp] theorem State.leave_kept (s : State) (p : Bool) (port : Nat) (q : QueueBind) (b : Bytes) :
    (State.leave s p port q b).kept = s.kept := by
  unfold State.leave; simp

@[simp] theorem State.packFault_kept (s : State) (p : Bool) (port : Nat) (q : QueueBind) (period : BitVec 48) (seq : BitVec 16) :
    (State.packFault s p port q period seq).kept = s.kept := by
  unfold State.packFault; simp

@[simp] theorem State.slotGo_kept (s : State) (p : Bool) (port : Nat) (q : QueueBind) (e : LateFrame) :
    (State.slotGo s p port q e).kept = s.kept := by
  unfold State.slotGo; simp

@[simp] theorem State.lateGo_kept (s : State) (p : Bool) (port : Nat) (q : QueueBind) (n : Nat) :
    (State.lateGo s p port q n).kept = s.kept := by
  induction n generalizing s with
  | zero => rfl
  | succ n ih =>
    unfold State.lateGo
    dsimp only
    split
    · rfl
    · split
      · rfl
      · rw [ih]; simp

@[simp] theorem State.lateOut_kept (s : State) (p : Bool) (port : Nat) (q : QueueBind) :
    (State.lateOut s p port q).kept = s.kept := by
  unfold State.lateOut; simp

@[simp] theorem State.sendSlot_kept (s : State) (p : Bool) (port : Nat) (q : QueueBind) (n : Nat) :
    (State.sendSlot s p port q n).kept = s.kept := by
  unfold State.sendSlot; simp

end Sys2Proof.Machine
end

