-- ==== Sys2Proof/Laws/KeptStream.lean ====
section
/-! SUPPORT. The operations of Machine/Stream.lean leave the fuses and the queue alone. -/

set_option Elab.async false

namespace Sys2Proof.Machine

@[simp] theorem State.sendFlit_kept (s : State) (c : Ctx) (out : Nat) (b : Bytes) (kp : Fuses × List Instr) (hk : s.kept = kp) :
    Held kp (State.sendFlit s c out b) := by
  subst hk; unfold State.sendFlit; dsimp only; repeat' (first | (simp; done) | split)

@[simp] theorem State.drainSends_kept (s : State) (c : Ctx) (l : List (Nat × Bytes)) : (s.drainSends c l).1.kept = s.kept := by
  induction l generalizing s with
  | nil => rfl
  | cons x l ih =>
    unfold State.drainSends
    split
    · next h => rw [ih]; exact State.sendFlit_kept s c _ _ _ rfl _ h
    · rfl

@[simp] theorem State.sendAll_kept (s : State) (c : Ctx) (fs : List (Nat × Bytes)) (kp : Fuses × List Instr) (hk : s.kept = kp) :
    (State.sendAll s c fs).Keeps kp := by
  subst hk; unfold State.sendAll; dsimp only; repeat' (first | (simp; done) | split)

@[simp] theorem State.returnCredit_kept (s : State) (f : Flit) :
    (State.returnCredit s f).kept = s.kept := by
  unfold State.returnCredit; simp

@[simp] theorem State.pull_kept (s : State) (t st n : Nat) : (s.pull t st n).kept = s.kept := by
  induction n generalizing s with
  | zero => rfl
  | succ n ih =>
    unfold State.pull
    dsimp only
    split
    · rfl
    · rw [ih]; simp

@[simp] theorem State.takeFlits_kept (s : State) (t : Nat) (st : Nat) (n : Nat) :
    (State.takeFlits s t st n).2.kept = s.kept := by
  unfold State.takeFlits; simp

/-- Where a read of flits ends, whether it got them or not. -/
theorem State.takeFlits_ends {s s1 : State} {t st n : Nat} {x : Option (List Bytes)} (h : s.takeFlits t st n = (x, s1)) :
    s1.kept = s.kept := by
  simpa using (congrArg (State.kept ·.2) h).symm

/-- An issued instruction keeps what its body keeps. -/
@[simp] theorem settle_kept (t : Nat) (i : Instr) (r : Act) (k : Fuses × List Instr) (h : r.Keeps k) : Machine.Keeps k (settle t i r) := by
  unfold settle
  split
  · exact h
  · trivial
  · exact h

@[simp] theorem issue_kept (a : Issue) (i : Instr) (ok : Bool) (body : State → Act) (s : State) (h : (body s).Keeps s.kept) :
    Machine.Keeps s.kept (issue a i ok body s) := by
  unfold issue
  dsimp only
  repeat' split
  · trivial
  · trivial
  · exact rfl
  · simp
  · exact settle_kept _ _ _ _ h

end Sys2Proof.Machine
end

