-- ==== Sys2Proof/Laws/KeptQueue.lean ====
section
/-! SUPPORT. The operations of Machine/Queue.lean leave the fuses and the queue alone. -/

set_option Elab.async false

namespace Sys2Proof.Machine

@[simp] theorem State.digestLines_kept (s : State) (t : Nat) (q : StashReq) (b : Bytes) :
    (State.digestLines s t q b).kept = s.kept := by
  unfold State.digestLines; dsimp only; repeat' (first | (simp; done) | split)

@[simp] theorem State.putReqs_kept (s : State) (t : Nat) (rs : List StashReq) :
    (State.putReqs s t rs).kept = s.kept := by
  unfold State.putReqs; simp

@[simp] theorem State.enqueue_kept (s : State) (c : Ctx) (rs : List StashReq) (kp : Fuses × List Instr) (hk : s.kept = kp) :
    (State.enqueue s c rs).Keeps kp := by
  subst hk; unfold State.enqueue; dsimp only; repeat' (first | (simp; done) | split)

@[simp] theorem State.fenceQueue_kept (s : State) (t : Nat) (addr : Nat) :
    (State.fenceQueue s t addr).kept = s.kept := by
  unfold State.fenceQueue; simp

@[simp] theorem State.raiseToken_kept (s : State) (t : Nat) (k : Option (BitVec 2)) :
    (State.raiseToken s t k).kept = s.kept := by
  unfold State.raiseToken; split <;> simp

@[simp] theorem State.landLine_kept (s : State) (t : Nat) (shelf : Bool) (laddr : Nat) (phys : Nat) :
    (State.landLine s t shelf laddr phys).1.kept = s.kept := by
  unfold State.landLine; simp

@[simp] theorem State.moveLines_kept (s : State) (t : Nat) (q : StashReq) (phys : List Nat) :
    (State.moveLines s t q phys).1.kept = s.kept := by
  unfold State.moveLines; dsimp only; repeat' (first | (simp; done) | split)

@[simp] theorem State.agetZero_kept (s : State) (c : Ctx) (a : StashArgs) (loc : Nat) (syn : Bytes) :
    (State.agetZero s c a loc syn).kept = s.kept := by
  unfold State.agetZero; simp

@[simp] theorem agetSpilled_kept (c : Ctx) (p : Bool) (a : StashArgs) (s : State) :
    (agetSpilled c p a s).kept = s.kept := by
  unfold agetSpilled; dsimp only; repeat' (first | (simp; done) | split)

@[simp] theorem State.finishReq_kept (s : State) (t : Nat) (q : StashReq) :
    (State.finishReq s t q).1.kept = s.kept := by
  unfold State.finishReq; dsimp only; repeat' (first | (simp; done) | split)

@[simp] theorem State.finishFront_kept (s : State) (t : Nat) :
    (State.finishFront s t).1.kept = s.kept := by
  unfold State.finishFront; split <;> simp

@[simp] theorem State.finishAll_kept (s : State) (t : Nat) :
    (State.finishAll s t).kept = s.kept := by
  unfold State.finishAll; simp

end Sys2Proof.Machine
end

