-- ==== Sys2Proof/Laws/KeptLayout.lean ====
section
/-! SUPPORT. The operations of Machine/Layout.lean leave the fuses and the queue alone. -/

set_option Elab.async false

namespace Sys2Proof.Machine

@[simp] theorem State.putByte_kept (s : State) (p : Bool) (l : Lesson) (e : Placement) (a : Nat) (b : Byte) :
    (State.putByte s p l e a b).kept = s.kept := by
  unfold State.putByte; dsimp only; repeat' (first | (simp [*]; done) | split | intro _)

@[simp] theorem State.coverPlace_kept (s : State) (l : Lesson) (e : Placement) (hs : List Nat) :
    (State.coverPlace s l e hs).kept = s.kept := by
  unfold State.coverPlace; repeat' (first | (simp [*]; done) | split | intro _ | (refine (foldl_kept _ _ _ ?_).trans ?_) | dsimp only)

@[simp] theorem State.putElem_kept (s : State) (p : Bool) (l : Lesson) (e : Placement) (fmt : Nat) (r : Nat) (c : Nat) (b : Bytes) :
    (State.putElem s p l e fmt r c b).kept = s.kept := by
  unfold State.putElem; dsimp only; repeat' (first | (simp; done) | split)

@[simp] theorem State.putScale_kept (s : State) (p : Bool) (l : Lesson) (e : Placement) (r : Nat) (c : Nat) (b : Byte) :
    (State.putScale s p l e r c b).kept = s.kept := by
  unfold State.putScale; simp

@[simp] theorem State.fromImage_kept (s : State) (p : Bool) (l : Lesson) (fmt : Nat) (e : Placement) (img : Placement) :
    (State.fromImage s p l fmt e img).kept = s.kept := by
  unfold State.fromImage; simp

@[simp] theorem State.readImage_kept (s : State) (p : Bool) (l : Lesson) (img : Placement) :
    (State.readImage s p l img).2.kept = s.kept := by
  unfold State.readImage; simp

@[simp] theorem State.readImages_kept (s : State) (p : Bool) (l : Lesson) (imgs : List Placement) :
    (State.readImages s p l imgs).2.kept = s.kept := by
  unfold State.readImages; simp

@[simp] theorem State.restoreRegion_kept (s : State) (p : Bool) (l : Lesson) (t : Nat) (n : Nat) :
    (State.restoreRegion s p l t n).kept = s.kept := by
  unfold State.restoreRegion; simp

@[simp] theorem State.putStash_kept (s : State) (p : Bool) (a : Nat) (b : Bytes) :
    (State.putStash s p a b).kept = s.kept := by
  unfold State.putStash; repeat' (first | (simp [*]; done) | split | intro _ | (refine (foldl_kept _ _ _ ?_).trans ?_) | dsimp only)

@[simp] theorem State.copyPages_kept (s : State) (p : Bool) (src : Nat) (dst : Nat) (n : Nat) :
    (State.copyPages s p src dst n).2.kept = s.kept := by
  unfold State.copyPages; repeat' (first | (simp [*]; done) | split | intro _ | (refine (foldl_kept_snd _ _ _ ?_).trans ?_) | dsimp only)

@[simp] theorem State.healBank_kept (s : State) (p : Bool) (n : BitVec 64) :
    (State.healBank s p n).kept = s.kept := by
  unfold State.healBank; repeat' (first | (simp [*]; done) | split | intro _ | (refine (foldl_kept _ _ _ ?_).trans ?_) | dsimp only)

@[simp] theorem State.walkPlace_kept (s : State) (p : Bool) (e : Placement) (n : Nat) : (State.walkPlace s p e n).kept = s.kept := by
  unfold State.walkPlace; simp

end Sys2Proof.Machine
end

