-- ==== Sys2Proof/Laws/KeptLeaf.lean ====
section
/-! SUPPORT. The operations of Machine/Leaf.lean leave the fuses and the queue alone. -/

set_option Elab.async false

namespace Sys2Proof.Machine

@[simp] theorem State.placeLeaf_kept (s : State) (p : Bool) (l : Lesson) (w : WLoad) (t : TensorEnt) (e : LoadEnt) (f : Leaf) (b : Bytes) :
    (State.placeLeaf s p l w t e f b).kept = s.kept := by
  unfold State.placeLeaf; repeat' (first | (simp [*]; done) | split | intro _ | (refine (foldl_kept _ _ _ ?_).trans ?_) | dsimp only)

@[simp] theorem State.takeLeaf_kept (s : State) (p : Bool) (l : Lesson) (w : WLoad) (t : TensorEnt) (i : Nat) (n : Nat) (e : LoadEnt) (data : Bytes) :
    (State.takeLeaf s p l w t i n e data).1.kept = s.kept := by
  unfold State.takeLeaf; simp

@[simp] theorem State.readAgain_kept (s : State) (p : Bool) (l : Lesson) (bad : List (Placement × List Nat)) :
    (State.readAgain s p l bad).kept = s.kept := by
  unfold State.readAgain; simp

@[simp] theorem State.restoreFrozen_kept (s : State) (p : Bool) (l : Lesson) :
    (State.restoreFrozen s p l).kept = s.kept := by
  unfold State.restoreFrozen; simp

end Sys2Proof.Machine
end

