-- ==== Sys2Proof/Laws/KeptMarks.lean ====
section
/-! SUPPORT. The operations of Machine/Marks.lean leave the fuses and the queue alone. -/

set_option Elab.async false

namespace Sys2Proof.Machine

@[simp] theorem State.alert_kept (s : State) :
    (State.alert s).kept = s.kept := by
  unfold State.alert; simp

@[simp] theorem State.sendMark_kept (s : State) (p : Bool) (m : Mark) (ports : List Nat) :
    (State.sendMark s p m ports).kept = s.kept := by
  unfold State.sendMark; simp

@[simp] theorem State.climb_kept (s : State) (p : Bool) (l : Lesson) (m : Mark) (level : Nat) :
    (State.climb s p l m level).kept = s.kept := by
  unfold State.climb; dsimp only; repeat' (first | (simp; done) | split)

@[simp] theorem State.passMark_kept (s : State) (p : Bool) (l : Lesson) (m : Mark) (port : Nat) :
    (State.passMark s p l m port).kept = s.kept := by
  unfold State.passMark; simp

@[simp] theorem State.addMark_kept (s : State) (p : Bool) (l : Lesson) (m : Mark) :
    (State.addMark s p l m).kept = s.kept := by
  unfold State.addMark; simp

@[simp] theorem State.freshTiles_kept (s : State) (p : Bool) :
    (State.freshTiles s p).kept = s.kept := by
  unfold State.freshTiles; simp

@[simp] theorem State.stepReset_kept (s : State) (ts : List Nat) :
    (State.stepReset s ts).kept = s.kept := by
  unfold State.stepReset; simp

@[simp] theorem State.emptyStreams_kept (s : State) (p : Bool) :
    (State.emptyStreams s p).kept = s.kept := by
  unfold State.emptyStreams; simp

@[simp] theorem State.quiesce_kept (s : State) (p : Bool) :
    (State.quiesce s p).kept = s.kept := by
  unfold State.quiesce; simp

@[simp] theorem State.clearCauses_kept (s : State) (p : Bool) :
    (State.clearCauses s p).kept = s.kept := by
  unfold State.clearCauses; simp

@[simp] theorem State.revertCommit_kept (s : State) (p : Bool) (target : BitVec 64) :
    (State.revertCommit s p target).kept = s.kept := by
  unfold State.revertCommit; simp

@[simp] theorem State.revertEditions_kept (s : State) (p : Bool) :
    (State.revertEditions s p).kept = s.kept := by
  unfold State.revertEditions; simp

@[simp] theorem State.dropCounts_kept (s : State) (p : Bool) (target : BitVec 64) :
    (State.dropCounts s p target).kept = s.kept := by
  unfold State.dropCounts; simp

@[simp] theorem State.mirrorFlip_kept (s : State) (p : Bool) (m : BitVec 64) :
    (State.mirrorFlip s p m).kept = s.kept := by
  unfold State.mirrorFlip; simp

@[simp] theorem State.openRebuild_kept (s : State) (p : Bool) (l : Lesson) (target : BitVec 64) (i : Nat) :
    (State.openRebuild s p l target i).kept = s.kept := by
  unfold State.openRebuild; simp

@[simp] theorem State.beginRebuild_kept (s : State) (p : Bool) (l : Lesson) (r : Recall) (target : BitVec 64) (failed : Bool) :
    (State.beginRebuild s p l r target failed).kept = s.kept := by
  unfold State.beginRebuild; simp

@[simp] theorem State.restoreTo_kept (s : State) (p : Bool) (target : BitVec 64) :
    (State.restoreTo s p target).kept = s.kept := by
  unfold State.restoreTo; simp

@[simp] theorem State.restoreStreams_kept (s : State) (p : Bool) (l : Lesson) :
    (State.restoreStreams s p l).kept = s.kept := by
  unfold State.restoreStreams; simp

@[simp] theorem State.agreed_kept (s : State) (p : Bool) (l : Lesson) (m : Mark) :
    (State.agreed s p l m).kept = s.kept := by
  unfold State.agreed; split <;> simp

@[simp] theorem State.stopJob_kept (s : State) (p : Bool) :
    (State.stopJob s p).kept = s.kept := by
  unfold State.stopJob; simp

@[simp] theorem State.ownMark_kept (s : State) (p : Bool) (l : Lesson) (m : Mark) :
    (State.ownMark s p l m).kept = s.kept := by
  unfold State.ownMark; simp

@[simp] theorem State.tryAgree_kept (s : State) (p : Bool) (l : Lesson) (m : Mark) :
    (State.tryAgree s p l m).kept = s.kept := by
  unfold State.tryAgree; split <;> simp

@[simp] theorem State.takeMark_kept (s : State) (p : Bool) (l : Lesson) (port : Nat) (m : Mark) :
    (State.takeMark s p l port m).kept = s.kept := by
  unfold State.takeMark; simp

@[simp] theorem State.dropWaiting_kept (s : State) (p : Bool) (attempt : Nat) :
    (State.dropWaiting s p attempt).kept = s.kept := by
  unfold State.dropWaiting; simp

@[simp] theorem State.newAttempt_kept (s : State) (p : Bool) (l : Lesson) (causes : BitVec 32) (per : BitVec 48) (halt : Bool) (failed : Bool) :
    (State.newAttempt s p l causes per halt failed).kept = s.kept := by
  unfold State.newAttempt; simp

@[simp] theorem State.holdNote_kept (s : State) (p : Bool) (causes : BitVec 32) (per : BitVec 48) (halt : Bool) :
    (State.holdNote s p causes per halt).kept = s.kept := by
  unfold State.holdNote; simp

@[simp] theorem State.recall_kept (s : State) (p : Bool) (causes : BitVec 32) (per : BitVec 48) (halt : Bool) :
    (State.recall s p causes per halt).kept = s.kept := by
  unfold State.recall; dsimp only; repeat' (first | (simp; done) | split)

@[simp] theorem State.recallNow_kept (s : State) (p : Bool) (bitNo : Nat) :
    (State.recallNow s p bitNo).kept = s.kept := by
  unfold State.recallNow; simp

@[simp] theorem State.fencePort_kept (s : State) (l : Nat) :
    (State.fencePort s l).kept = s.kept := by
  unfold State.fencePort; simp

end Sys2Proof.Machine
end

