-- ==== Sys2Proof/Laws/KeptPigeon.lean ====
section
/-! SUPPORT. The operations of Machine/Pigeon.lean leave the fuses and the queue alone. -/

set_option Elab.async false

namespace Sys2Proof.Machine

@[simp] theorem State.setDoorbell_kept (s : State) (q : Nat) (b : Bool) :
    (State.setDoorbell s q b).kept = s.kept := by
  unfold State.setDoorbell; simp

@[simp] theorem State.raise_kept (s : State) (h : Bool) (v : Nat) :
    (State.raise s h v).kept = s.kept := by
  unfold State.raise; simp

@[simp] theorem State.peerReply_kept (s : State) (port : Nat) (g : Nat) (tag : BitVec 16) (outcome : Nat) :
    (State.peerReply s port g tag outcome).kept = s.kept := by
  unfold State.peerReply; simp

@[simp] theorem State.answerPeer_kept (s : State) (g : Nat) (outcome : Nat) :
    (State.answerPeer s g outcome).kept = s.kept := by
  unfold State.answerPeer; split <;> simp

@[simp] theorem State.pigeonTimeout_kept (s : State) (g : Nat) (cause : Nat) :
    (State.pigeonTimeout s g cause).kept = s.kept := by
  unfold State.pigeonTimeout; simp

@[simp] theorem State.pigeonSendNow_kept (s : State) (g : Nat) :
    (State.pigeonSendNow s g).kept = s.kept := by
  unfold State.pigeonSendNow; dsimp only; repeat' (first | (simp; done) | split)

end Sys2Proof.Machine
end

