-- ==== Sys2Proof/Laws/KeptStaged.lean ====
section
/-! SUPPORT. The operations of Machine/Staged.lean leave the fuses and the queue alone. -/

set_option Elab.async false

namespace Sys2Proof.Machine

@[simp] theorem State.discard_kept (s : State) (lo : Nat) (hi : Nat) :
    (State.discard s lo hi).kept = s.kept := by
  unfold State.discard; simp

@[simp] theorem State.applyRange_kept (s : State) (lo : Nat) (hi : Nat) :
    (State.applyRange s lo hi).kept = s.kept := by
  unfold State.applyRange; simp

@[simp] theorem State.applyBell_kept (s : State) (p : Bool) :
    (State.applyBell s p).kept = s.kept := by
  unfold State.applyBell; simp

@[simp] theorem State.watchEvent_kept (s : State) (p : Bool) (b : Bytes) :
    (State.watchEvent s p b).kept = s.kept := by
  unfold State.watchEvent; simp

@[simp] theorem State.applyWatch_kept (s : State) (p : Bool) :
    (State.applyWatch s p).kept = s.kept := by
  unfold State.applyWatch; simp

@[simp] theorem State.setRelay_kept (s : State) (l : Nat) (b : Bool) :
    (State.setRelay s l b).kept = s.kept := by
  unfold State.setRelay; dsimp only; repeat' (first | (simp; done) | split)

@[simp] theorem State.oneRelay_kept (s : State) :
    (State.oneRelay s).kept = s.kept := by
  unfold State.oneRelay; simp

@[simp] theorem State.applyLink_kept (s : State) :
    (State.applyLink s).kept = s.kept := by
  unfold State.applyLink; simp

@[simp] theorem State.applyPigeon_kept (s : State) :
    (State.applyPigeon s).kept = s.kept := by
  unfold State.applyPigeon; simp

@[simp] theorem State.applySec_kept (s : State) :
    (State.applySec s).kept = s.kept := by
  unfold State.applySec; simp

@[simp] theorem State.applyTile_kept (s : State) (t : Nat) :
    (State.applyTile s t).kept = s.kept := by
  unfold State.applyTile; simp

@[simp] theorem State.applyAtBell_kept (s : State) (p : Bool) :
    (State.applyAtBell s p).kept = s.kept := by
  unfold State.applyAtBell; simp

@[simp] theorem State.applyCommit_kept (s : State) (r : Reg) :
    (State.applyCommit s r).kept = s.kept := by
  unfold State.applyCommit; split <;> simp

end Sys2Proof.Machine
end

