-- ==== Sys2Proof/Laws/KeptCommand.lean ====
section
/-! SUPPORT. The operations of Machine/Command.lean leave the fuses and the queue alone. -/

set_option Elab.async false

namespace Sys2Proof.Machine

@[simp] theorem State.drainRing_kept (s : State) (h : Bool) (ring : Nat) (i : Issuer) :
    (State.drainRing s h ring i).kept = s.kept := by
  unfold State.drainRing; simp

@[simp] theorem State.sendReply_kept (s : State) (i : Issuer) (ring : Nat) (seq : Nat) (op : Nat) (irq : Bool) (final : Bool) (status : Nat) (res : Bytes) :
    (State.sendReply s i ring seq op irq final status res).kept = s.kept := by
  unfold State.sendReply; split <;> simp

@[simp] theorem State.finish_kept (s : State) (id : Nat) (status : Nat) (res : Bytes) :
    (State.finish s id status res).kept = s.kept := by
  unfold State.finish; split <;> simp

@[simp] theorem State.finishOp_kept (s : State) (op : Nat) (p : Option Bool) (status : Nat) (res : Bytes) :
    (State.finishOp s op p status res).kept = s.kept := by
  unfold State.finishOp; split <;> simp

@[simp] theorem State.finishFor_kept (s : State) (op : Nat) (p : Bool) (status : Nat) :
    (State.finishFor s op p status).kept = s.kept := by
  unfold State.finishFor; simp

@[simp] theorem State.abortCmds_kept (s : State) (p : Bool) (keep : Nat) :
    (State.abortCmds s p keep).kept = s.kept := by
  unfold State.abortCmds; simp

@[simp] theorem State.takePacket_kept (s : State) (k : Packet) :
    (State.takePacket s k).kept = s.kept := by
  unfold State.takePacket; split <;> simp

@[simp] theorem State.answer_kept (s : State) (k : Packet) (status : Nat) (res : Bytes) :
    (State.answer s k status res).kept = s.kept := by
  unfold State.answer; split <;> simp

@[simp] theorem State.accept_kept (s : State) (k : Packet) (p : Option Bool) (arg : Nat) :
    (State.accept s k p arg).kept = s.kept := by
  unfold State.accept; simp

/-- A command's own part that leaves fuses and queue alone. -/
def CmdRes.Keeps (r : CmdRes) (k : Fuses × List Instr) : Prop :=
  match r with
  | .reply t _ _ => t.kept = k
  | .long t _ _ f => t.kept = k ∧ ∀ a id, (f a id).kept = a.kept
  | _ => True

@[simp] theorem res_field (k : Fuses × List Instr) (a b : Nat) : (CmdRes.field a b).Keeps k := trivial
@[simp] theorem res_refuse (k : Fuses × List Instr) : CmdRes.refuse.Keeps k := trivial
@[simp] theorem res_reply (k : Fuses × List Instr) (t : State) (n : Nat) (b : Bytes) : (CmdRes.reply t n b).Keeps k ↔ t.kept = k := Iff.rfl
@[simp] theorem res_long (k : Fuses × List Instr) (t : State) (p : Option Bool) (n : Nat) (f : State → Nat → State) :
    (CmdRes.long t p n f).Keeps k ↔ (t.kept = k ∧ ∀ a id, (f a id).kept = a.kept) := Iff.rfl

/-- Running a packet keeps what the command's own part keeps. -/
theorem runPacket_kept (k : Packet) (r : OpRow) (e : Bool) (body : State → CmdRes) (s : State) (h : ∀ s, (body s).Keeps s.kept) :
    Machine.Keeps s.kept (runPacket k r e body s) := by
  unfold runPacket
  have hb := h (s.takePacket k)
  repeat' (first | (simp; done) | split)
  all_goals dsimp only
  all_goals split
  all_goals first
    | (simp; done)
    | (next heq => rw [heq] at hb; simp at hb; repeat' split <;> simp [hb])

end Sys2Proof.Machine
end

