-- ==== Sys2Proof/Laws/KeptPower.lean ====
section
/-! SUPPORT. The operations of Machine/Power.lean leave the fuses and the queue alone. -/

set_option Elab.async false

namespace Sys2Proof.Machine

@[simp] theorem State.takeEff_kept (s : State) (p : Bool) :
    (State.takeEff s p).kept = s.kept := by
  unfold State.takeEff; simp

@[simp] theorem State.takeReading_kept (s : State) (p : Bool) (reading : Nat) :
    (State.takeReading s p reading).kept = s.kept := by
  unfold State.takeReading; dsimp only; split <;> rfl

@[simp] theorem State.clearFresh_kept (s : State) (p : Bool) :
    (State.clearFresh s p).kept = s.kept := by
  unfold State.clearFresh; simp

@[simp] theorem State.bellRecord_kept (s : State) (p : Bool) (b : Bytes) :
    (State.bellRecord s p b).kept = s.kept := by
  unfold State.bellRecord; simp

@[simp] theorem State.fixThrottle_kept (s : State) (p : Bool) (cls : Nat) (last : Bool) :
    (State.fixThrottle s p cls last).kept = s.kept := by
  unfold State.fixThrottle; simp

@[simp] theorem State.moveTiles_kept (s : State) (a : List Nat) (b : List Nat) :
    (State.moveTiles s a b).kept = s.kept := by
  unfold State.moveTiles; simp

@[simp] theorem State.exclude_kept (s : State) (t : Nat) :
    (State.exclude s t).kept = s.kept := by
  unfold State.exclude; dsimp only; split <;> simp

@[simp] theorem State.remapTile_kept (s : State) (t : Nat) :
    (State.remapTile s t).kept = s.kept := by
  unfold State.remapTile; simp

@[simp] theorem State.rotate_kept (s : State) (t : Nat) :
    (State.rotate s t).kept = s.kept := by
  unfold State.rotate; dsimp only; repeat' (first | (simp; done) | split)

@[simp] theorem State.pauseChans_kept (s : State) (p : Bool) :
    (State.pauseChans s p).kept = s.kept := by
  unfold State.pauseChans; simp

end Sys2Proof.Machine
end

