-- ==== Sys2Proof/Laws/KeptChannel.lean ====
section
/-! SUPPORT. The operations of Machine/Channel.lean leave the fuses and the queue alone. -/

set_option Elab.async false

namespace Sys2Proof.Machine

@[simp] theorem State.setChState_kept (s : State) (c : Nat) (n : Nat) :
    (State.setChState s c n).kept = s.kept := by
  unfold State.setChState; simp

@[simp] theorem State.tryStart_kept (s : State) (c : Nat) :
    (State.tryStart s c).kept = s.kept := by
  unfold State.tryStart; simp

@[simp] theorem State.idleChan_kept (s : State) (c : Nat) :
    (State.idleChan s c).kept = s.kept := by
  unfold State.idleChan; simp

@[simp] theorem State.stopChan_kept (s : State) (c : Nat) (code : Nat) (offset : Nat) :
    (State.stopChan s c code offset).kept = s.kept := by
  unfold State.stopChan; simp

@[simp] theorem State.abortChan_kept (s : State) (c : Nat) :
    (State.abortChan s c).kept = s.kept := by
  unfold State.abortChan; simp

@[simp] theorem State.abortChans_kept (s : State) (p : Bool) :
    (State.abortChans s p).kept = s.kept := by
  unfold State.abortChans; simp

@[simp] theorem State.rest_kept (s : State) (c : Nat) :
    (State.rest s c).kept = s.kept := by
  unfold State.rest; simp

@[simp] theorem State.boundary_kept (s : State) (c : Nat) (ended : Bool) :
    (State.boundary s c ended).kept = s.kept := by
  unfold State.boundary; simp

@[simp] theorem State.haltChan_kept (s : State) (c : Nat) :
    (State.haltChan s c).kept = s.kept := by
  unfold State.haltChan; simp

@[simp] theorem State.writeChctl_kept (s : State) (c : Nat) (v : Word) :
    (State.writeChctl s c v).kept = s.kept := by
  unfold State.writeChctl; simp

@[simp] theorem State.writeChstart_kept (s : State) (c : Nat) (high : Bool) (mgmt : Bool) (v : Word) :
    (State.writeChstart s c high mgmt v).kept = s.kept := by
  unfold State.writeChstart; simp

@[simp] theorem State.resumeChans_kept (s : State) (p : Bool) :
    (State.resumeChans s p).kept = s.kept := by
  unfold State.resumeChans; simp

end Sys2Proof.Machine
end

