-- ==== Sys2Proof/Laws/KeptOperands.lean ====
section
/-! SUPPORT. The operations of Machine/Operands.lean leave the fuses and the queue alone. -/

set_option Elab.async false

namespace Sys2Proof.Machine

@[simp] theorem State.readRows_kept (s : State) (c : Ctx) (stream : Bool) (addr : Nat) (n : Nat) (rowBytes : Nat) (side : Option Nat) :
    (State.readRows s c stream addr n rowBytes side).2.kept = s.kept := by
  unfold State.readRows
  split
  · dsimp only
    split
    · rename_i h
      exact State.takeFlits_ends h
    · rename_i h
      exact State.takeFlits_ends h
  · extract_lets r s1
    have k : s1.kept = s.kept := by
      simp only [s1, State.rangeCheck_kept]
      refine (foldl_kept_snd _ _ _ fun acc i => ?_).trans rfl
      dsimp only
      split <;> simp
    dsimp only
    split <;> simp [k]

/-- Where a read of rows ends, whether the flits were there or not. -/
theorem State.readRows_ends {s s1 : State} {c : Ctx} {stream : Bool} {addr n bytes : Nat} {sc : Option Nat}
    {x : Option (List (Bytes × Nat))} (h : s.readRows c stream addr n bytes sc = (x, s1)) : s1.kept = s.kept := by
  simpa using (congrArg (State.kept ·.2) h).symm

@[simp] theorem State.setEng_kept (s : State) (t : Nat) (e : Engine) :
    (State.setEng s t e).kept = s.kept := by
  unfold State.setEng; simp

@[simp] theorem State.setArr_kept (s : State) (t : Nat) (x : MArray) :
    (State.setArr s t x).kept = s.kept := by
  unfold State.setArr; simp

end Sys2Proof.Machine
end

