-- ==== Sys2Proof/Laws/KeptFlags.lean ====
section
/-! SUPPORT. The operations of Machine/Flags.lean leave the fuses and the queue alone. -/

set_option Elab.async false

namespace Sys2Proof.Machine

@[simp] theorem State.raiseVx_kept (s : State) (t : Nat) (f : VFlags) :
    (State.raiseVx s t f).kept = s.kept := by
  unfold State.raiseVx; simp

@[simp] theorem State.checkEvent_kept (s : State) (c : Ctx) (grp : Bool) (f : Nat × Nat × Nat) :
    (State.checkEvent s c grp f).kept = s.kept := by
  unfold State.checkEvent; simp

@[simp] theorem State.checks_kept (s : State) (c : Ctx) (grp : Bool) (fs : Fails) :
    (State.checks s c grp fs).kept = s.kept := by
  unfold State.checks; simp

end Sys2Proof.Machine
end

