-- ==== Sys2Proof/Laws/KeptVector.lean ====
section
/-! SUPPORT. The operations of Machine/Vector.lean leave the fuses and the queue alone. -/

set_option Elab.async false

namespace Sys2Proof.Machine

@[simp] theorem laneBody_kept (t : Nat) (a : VArgs) (k : Nat) (op : Engine → Nat → Nat →
    LaneF) (s : State) (kp : Fuses × List Instr) (hk : s.kept = kp) :
    (laneBody t a k op s).Keeps kp := by
  subst hk; unfold laneBody; simp

@[simp] theorem execAdd_kept (a : Issue) (f : VArgs) (s : State) :
    Machine.Keeps s.kept (execAdd a f s) := by
  unfold execAdd; simp

@[simp] theorem execSub_kept (a : Issue) (f : VArgs) (s : State) :
    Machine.Keeps s.kept (execSub a f s) := by
  unfold execSub; simp

@[simp] theorem execMul_kept (a : Issue) (f : VArgs) (s : State) :
    Machine.Keeps s.kept (execMul a f s) := by
  unfold execMul; simp

@[simp] theorem execFma_kept (a : Issue) (f : VArgs) (s : State) :
    Machine.Keeps s.kept (execFma a f s) := by
  unfold execFma; simp

@[simp] theorem execFnma_kept (a : Issue) (f : VArgs) (s : State) :
    Machine.Keeps s.kept (execFnma a f s) := by
  unfold execFnma; simp

@[simp] theorem execMin_kept (a : Issue) (f : VArgs) (s : State) :
    Machine.Keeps s.kept (execMin a f s) := by
  unfold execMin; simp

@[simp] theorem execMax_kept (a : Issue) (f : VArgs) (s : State) :
    Machine.Keeps s.kept (execMax a f s) := by
  unfold execMax; simp

@[simp] theorem execAbs_kept (a : Issue) (f : VArgs) (s : State) :
    Machine.Keeps s.kept (execAbs a f s) := by
  unfold execAbs; simp

@[simp] theorem execNeg_kept (a : Issue) (f : VArgs) (s : State) :
    Machine.Keeps s.kept (execNeg a f s) := by
  unfold execNeg; simp

@[simp] theorem execDiv_kept (a : Issue) (f : VArgs) (s : State) :
    Machine.Keeps s.kept (execDiv a f s) := by
  unfold execDiv; simp

@[simp] theorem execEq_kept (a : Issue) (f : VArgs) (s : State) :
    Machine.Keeps s.kept (execEq a f s) := by
  unfold execEq; simp

@[simp] theorem execNe_kept (a : Issue) (f : VArgs) (s : State) :
    Machine.Keeps s.kept (execNe a f s) := by
  unfold execNe; simp

@[simp] theorem execLt_kept (a : Issue) (f : VArgs) (s : State) :
    Machine.Keeps s.kept (execLt a f s) := by
  unfold execLt; simp

@[simp] theorem execLe_kept (a : Issue) (f : VArgs) (s : State) :
    Machine.Keeps s.kept (execLe a f s) := by
  unfold execLe; simp

@[simp] theorem execSel_kept (a : Issue) (f : VArgs) (s : State) :
    Machine.Keeps s.kept (execSel a f s) := by
  unfold execSel; simp

@[simp] theorem intBody_kept (t : Nat) (a : VArgs) (op : Word → Word → Word) (s : State) (kp : Fuses × List Instr) (hk : s.kept = kp) :
    (intBody t a op s).Keeps kp := by
  subst hk; unfold intBody; simp

@[simp] theorem execIadd_kept (a : Issue) (f : VArgs) (s : State) :
    Machine.Keeps s.kept (execIadd a f s) := by
  unfold execIadd; simp

@[simp] theorem execIsub_kept (a : Issue) (f : VArgs) (s : State) :
    Machine.Keeps s.kept (execIsub a f s) := by
  unfold execIsub; simp

@[simp] theorem execAnd_kept (a : Issue) (f : VArgs) (s : State) :
    Machine.Keeps s.kept (execAnd a f s) := by
  unfold execAnd; simp

@[simp] theorem execOr_kept (a : Issue) (f : VArgs) (s : State) :
    Machine.Keeps s.kept (execOr a f s) := by
  unfold execOr; simp

@[simp] theorem execXor_kept (a : Issue) (f : VArgs) (s : State) :
    Machine.Keeps s.kept (execXor a f s) := by
  unfold execXor; simp

@[simp] theorem execShl_kept (a : Issue) (f : VArgs) (s : State) :
    Machine.Keeps s.kept (execShl a f s) := by
  unfold execShl; simp

@[simp] theorem execShr_kept (a : Issue) (f : VArgs) (s : State) :
    Machine.Keeps s.kept (execShr a f s) := by
  unfold execShr; simp

@[simp] theorem execIota_kept (a : Issue) (f : VArgs) (s : State) :
    Machine.Keeps s.kept (execIota a f s) := by
  unfold execIota; simp

@[simp] theorem execFround_kept (a : Issue) (f : VArgs) (s : State) :
    Machine.Keeps s.kept (execFround a f s) := by
  unfold execFround; simp

@[simp] theorem execF2i_kept (a : Issue) (f : VArgs) (s : State) :
    Machine.Keeps s.kept (execF2i a f s) := by
  unfold execF2i; simp

@[simp] theorem execI2f_kept (a : Issue) (f : VArgs) (s : State) :
    Machine.Keeps s.kept (execI2f a f s) := by
  unfold execI2f; simp

@[simp] theorem execSrnd_kept (a : Issue) (f : VArgs) (s : State) :
    Machine.Keeps s.kept (execSrnd a f s) := by
  unfold execSrnd
  refine issue_kept _ _ _ _ _ ?_
  dsimp only
  split <;> simp

@[simp] theorem execMxq_kept (a : Issue) (f : VArgs) (s : State) :
    Machine.Keeps s.kept (execMxq a f s) := by
  unfold execMxq
  refine issue_kept _ _ _ _ _ ?_
  extract_lets
  split
  · rfl
  · refine (State.rangeCheck_kept _ _ _ _).trans (foldl_kept _ _ _ fun acc i => ?_)
    simp

@[simp] theorem trBody_kept (t : Nat) (a : VArgs) (fn : TrFn) (s : State) (kp : Fuses × List Instr) (hk : s.kept = kp) :
    (trBody t a fn s).Keeps kp := by
  subst hk; unfold trBody; simp

@[simp] theorem execExp_kept (a : Issue) (f : VArgs) (s : State) :
    Machine.Keeps s.kept (execExp a f s) := by
  unfold execExp; simp

@[simp] theorem execExp2_kept (a : Issue) (f : VArgs) (s : State) :
    Machine.Keeps s.kept (execExp2 a f s) := by
  unfold execExp2; simp

@[simp] theorem execLog_kept (a : Issue) (f : VArgs) (s : State) :
    Machine.Keeps s.kept (execLog a f s) := by
  unfold execLog; simp

@[simp] theorem execLog2_kept (a : Issue) (f : VArgs) (s : State) :
    Machine.Keeps s.kept (execLog2 a f s) := by
  unfold execLog2; simp

@[simp] theorem execRcp_kept (a : Issue) (f : VArgs) (s : State) :
    Machine.Keeps s.kept (execRcp a f s) := by
  unfold execRcp; simp

@[simp] theorem execSqrt_kept (a : Issue) (f : VArgs) (s : State) :
    Machine.Keeps s.kept (execSqrt a f s) := by
  unfold execSqrt; simp

@[simp] theorem execRsqrt_kept (a : Issue) (f : VArgs) (s : State) :
    Machine.Keeps s.kept (execRsqrt a f s) := by
  unfold execRsqrt; simp

@[simp] theorem execTanh_kept (a : Issue) (f : VArgs) (s : State) :
    Machine.Keeps s.kept (execTanh a f s) := by
  unfold execTanh; simp

@[simp] theorem execSigm_kept (a : Issue) (f : VArgs) (s : State) :
    Machine.Keeps s.kept (execSigm a f s) := by
  unfold execSigm; simp

@[simp] theorem execErf_kept (a : Issue) (f : VArgs) (s : State) :
    Machine.Keeps s.kept (execErf a f s) := by
  unfold execErf; simp

@[simp] theorem execSin_kept (a : Issue) (f : VArgs) (s : State) :
    Machine.Keeps s.kept (execSin a f s) := by
  unfold execSin; simp

@[simp] theorem execCos_kept (a : Issue) (f : VArgs) (s : State) :
    Machine.Keeps s.kept (execCos a f s) := by
  unfold execCos; simp

@[simp] theorem execMov_kept (a : Issue) (f : VArgs) (s : State) :
    Machine.Keeps s.kept (execMov a f s) := by
  unfold execMov; simp

@[simp] theorem execPerm_kept (a : Issue) (f : VArgs) (s : State) :
    Machine.Keeps s.kept (execPerm a f s) := by
  unfold execPerm; simp

@[simp] theorem execBcast_kept (a : Issue) (f : VArgs) (s : State) :
    Machine.Keeps s.kept (execBcast a f s) := by
  unfold execBcast; simp

@[simp] theorem execSget_kept (a : Issue) (f : VArgs) (s : State) :
    Machine.Keeps s.kept (execSget a f s) := by
  unfold execSget; simp

@[simp] theorem execSput_kept (a : Issue) (f : VArgs) (s : State) :
    Machine.Keeps s.kept (execSput a f s) := by
  unfold execSput; simp

@[simp] theorem treeBody_kept (t : Nat) (a : VArgs) (op : Engine → Nat → Nat →
    LaneF) (s : State) (kp : Fuses × List Instr) (hk : s.kept = kp) :
    (treeBody t a op s).Keeps kp := by
  subst hk; unfold treeBody; dsimp only; repeat' (first | (simp; done) | split)

@[simp] theorem execFsum_kept (a : Issue) (f : VArgs) (s : State) :
    Machine.Keeps s.kept (execFsum a f s) := by
  unfold execFsum; simp

@[simp] theorem execFsumsq_kept (a : Issue) (f : VArgs) (s : State) :
    Machine.Keeps s.kept (execFsumsq a f s) := by
  unfold execFsumsq; simp

@[simp] theorem execFdot_kept (a : Issue) (f : VArgs) (s : State) :
    Machine.Keeps s.kept (execFdot a f s) := by
  unfold execFdot; simp

@[simp] theorem execSetvl_kept (a : Issue) (r : BitVec 4) (imm : BitVec 32) (s : State) :
    Machine.Keeps s.kept (execSetvl a r imm s) := by
  unfold execSetvl; simp

@[simp] theorem execSimm_kept (a : Issue) (r : BitVec 4) (imm : BitVec 32) (s : State) :
    Machine.Keeps s.kept (execSimm a r imm s) := by
  unfold execSimm; simp

end Sys2Proof.Machine
end

