-- ==== Sys2Proof/Laws/KeptMatrix.lean ====
section
/-! SUPPORT. The operations of Machine/Matrix.lean leave the fuses and the queue alone. -/

set_option Elab.async false

namespace Sys2Proof.Machine

@[simp] theorem loadBlock_kept (cross : Bool) (c : Ctx) (a : LdwArgs) (s : State) (kp : Fuses × List Instr) (hk : s.kept = kp) :
    (loadBlock cross c a s).Keeps kp := by
  subst hk; unfold loadBlock; simp

@[simp] theorem execMxLdw_kept (a : Issue) (f : LdwArgs) (s : State) :
    Machine.Keeps s.kept (execMxLdw a f s) := by
  unfold execMxLdw; simp

@[simp] theorem execMxLdwCrossRead_kept (a : Issue) (f : LdwArgs) (s : State) :
    Machine.Keeps s.kept (execMxLdwCrossRead a f s) := by
  unfold execMxLdwCrossRead; simp

@[simp] theorem anchoredRun_kept (c : Ctx) (a : RunArgs) (s : State) (kp : Fuses × List Instr) (hk : s.kept = kp) :
    (anchoredRun c a s).Keeps kp := by
  subst hk
  unfold anchoredRun
  extract_lets
  split
  · trivial
  · split
    · trivial
    · split
      · rename_i h
        simp [State.readRows_ends h]
      · rename_i h
        extract_lets
        split <;> simp [State.readRows_ends h]

@[simp] theorem execMxRun_kept (a : Issue) (f : RunArgs) (s : State) :
    Machine.Keeps s.kept (execMxRun a f s) := by
  unfold execMxRun; simp

@[simp] theorem execCrossReadRun_kept (a : Issue) (f : RunArgs) (s : State) :
    Machine.Keeps s.kept (execCrossReadRun a f s) := by
  unfold execCrossReadRun; simp

@[simp] theorem tallyBody_kept (c : Ctx) (a : RunArgs) (s : State) (kp : Fuses × List Instr) (hk : s.kept = kp) :
    (tallyBody c a s).Keeps kp := by
  subst hk
  unfold tallyBody
  extract_lets
  split
  · trivial
  · split
    · split
      · rename_i h
        simp [State.readRows_ends h]
      · rename_i h
        extract_lets
        split
        · simp [State.readRows_ends h]
        · simp
          exact (State.setArr_kept _ _ _).trans (State.readRows_ends h)
    · trivial

@[simp] theorem execTallyRun_kept (a : Issue) (f : RunArgs) (s : State) :
    Machine.Keeps s.kept (execTallyRun a f s) := by
  unfold execTallyRun; simp

@[simp] theorem State.addTally_kept (s : State) (c : Ctx) (shelf : Bool) (addr : Nat) (v : Option Int) :
    (State.addTally s c shelf addr v).kept = s.kept := by
  unfold State.addTally; simp

@[simp] theorem outAnchored_kept (c : Ctx) (a : OutArgs) (f : Fmt) (fs : Fails) (s : State) (kp : Fuses × List Instr) (hk : s.kept = kp) :
    (outAnchored c a f fs s).Keeps kp := by
  subst hk; unfold outAnchored; dsimp only; repeat' (first | (simp; done) | split)

@[simp] theorem outTally_kept (c : Ctx) (a : OutArgs) (fs : Fails) (s : State) (kp : Fuses × List Instr) (hk : s.kept = kp) :
    (outTally c a fs s).Keeps kp := by
  subst hk; unfold outTally; split <;> simp

@[simp] theorem outBody_kept (c : Ctx) (a : OutArgs) (s : State) (kp : Fuses × List Instr) (hk : s.kept = kp) :
    (outBody c a s).Keeps kp := by
  subst hk; unfold outBody; dsimp only; repeat' (first | (simp; done) | split)

@[simp] theorem execMxOut_kept (a : Issue) (f : OutArgs) (s : State) :
    Machine.Keeps s.kept (execMxOut a f s) := by
  unfold execMxOut; simp

@[simp] theorem execMxSideStore_kept (a : Issue) (f : SideArgs) (s : State) :
    Machine.Keeps s.kept (execMxSideStore a f s) := by
  unfold execMxSideStore; simp

@[simp] theorem execMxSideSend_kept (a : Issue) (f : SideArgs) (s : State) :
    Machine.Keeps s.kept (execMxSideSend a f s) := by
  unfold execMxSideSend; simp

@[simp] theorem execMxSideFoldDesk_kept (a : Issue) (f : SideArgs) (s : State) :
    Machine.Keeps s.kept (execMxSideFoldDesk a f s) := by
  unfold execMxSideFoldDesk; simp

@[simp] theorem execMxSideFoldStream_kept (a : Issue) (f : SideArgs) (s : State) :
    Machine.Keeps s.kept (execMxSideFoldStream a f s) := by
  unfold execMxSideFoldStream
  refine issue_kept _ _ _ _ _ ?_
  dsimp only
  split
  · rename_i h
    simp [State.takeFlits_ends h]
  · rename_i h
    simp [State.takeFlits_ends h]

@[simp] theorem psendBody_kept (c : Ctx) (a : PartialArgs) (s : State) (kp : Fuses × List Instr) (hk : s.kept = kp) :
    (psendBody c a s).Keeps kp := by
  subst hk; unfold psendBody; simp

@[simp] theorem execMxPsend_kept (a : Issue) (f : PartialArgs) (s : State) :
    Machine.Keeps s.kept (execMxPsend a f s) := by
  unfold execMxPsend; simp

@[simp] theorem paddBody_kept (c : Ctx) (a : PartialArgs) (s : State) (kp : Fuses × List Instr) (hk : s.kept = kp) :
    (paddBody c a s).Keeps kp := by
  subst hk
  unfold paddBody
  dsimp only
  split
  · rename_i h
    simp [State.takeFlits_ends h]
  · rename_i h
    split <;> simp [State.takeFlits_ends h]

@[simp] theorem execMxPadd_kept (a : Issue) (f : PartialArgs) (s : State) :
    Machine.Keeps s.kept (execMxPadd a f s) := by
  unfold execMxPadd; simp

end Sys2Proof.Machine
end

