-- ==== Sys2Proof/Laws/KeptVectorGrid.lean ====
section
/-! SUPPORT. The operations of Machine/VectorGrid.lean leave the fuses and the queue alone. -/

set_option Elab.async false

namespace Sys2Proof.Machine

@[simp] theorem State.gridFails_kept (s : State) (c : Ctx) (fs : Fails) :
    (State.gridFails s c fs).kept = s.kept := by
  unfold State.gridFails; simp

@[simp] theorem execEmax_kept (a : Issue) (f : VArgs) (s : State) :
    Machine.Keeps s.kept (execEmax a f s) := by
  unfold execEmax; simp

@[simp] theorem execEmaxl_kept (a : Issue) (f : VArgs) (s : State) :
    Machine.Keeps s.kept (execEmaxl a f s) := by
  unfold execEmaxl; simp

@[simp] theorem gridBody_kept (c : Ctx) (a : VArgs) (fn : Nat) (s : State) (kp : Fuses × List Instr) (hk : s.kept = kp) :
    (gridBody c a fn s).Keeps kp := by
  subst hk; unfold gridBody; simp

@[simp] theorem execGadd_kept (a : Issue) (f : VArgs) (s : State) :
    Machine.Keeps s.kept (execGadd a f s) := by
  unfold execGadd; simp

@[simp] theorem execGsq_kept (a : Issue) (f : VArgs) (s : State) :
    Machine.Keeps s.kept (execGsq a f s) := by
  unfold execGsq; simp

@[simp] theorem execGdot_kept (a : Issue) (f : VArgs) (s : State) :
    Machine.Keeps s.kept (execGdot a f s) := by
  unfold execGdot; simp

@[simp] theorem execGfold_kept (a : Issue) (f : VArgs) (s : State) :
    Machine.Keeps s.kept (execGfold a f s) := by
  unfold execGfold; simp

@[simp] theorem execGrnd_kept (a : Issue) (f : VArgs) (s : State) :
    Machine.Keeps s.kept (execGrnd a f s) := by
  unfold execGrnd; simp

@[simp] theorem goutBody_kept (c : Ctx) (a : VArgs) (s : State) (kp : Fuses × List Instr) (hk : s.kept = kp) :
    (goutBody c a s).Keeps kp := by
  subst hk; unfold goutBody; simp

@[simp] theorem execGout_kept (a : Issue) (f : VArgs) (s : State) :
    Machine.Keeps s.kept (execGout a f s) := by
  unfold execGout; simp

@[simp] theorem ginBody_kept (c : Ctx) (a : VArgs) (s : State) (kp : Fuses × List Instr) (hk : s.kept = kp) :
    (ginBody c a s).Keeps kp := by
  subst hk; unfold ginBody; repeat' (first | (simp; done) | (rename_i h; have k := congrArg (State.kept ·.2) h; simp at k; simp [k]; done) | split)

@[simp] theorem execGin_kept (a : Issue) (f : VArgs) (s : State) :
    Machine.Keeps s.kept (execGin a f s) := by
  unfold execGin; simp

end Sys2Proof.Machine
end

