-- ==== Sys2Proof/Laws/KeptVectorMem.lean ====
section
/-! SUPPORT. The operations of Machine/VectorMem.lean leave the fuses and the queue alone. -/

set_option Elab.async false

namespace Sys2Proof.Machine

@[simp] theorem loadDesk_kept (c : Ctx) (a : VArgs) (s : State) (kp : Fuses × List Instr) (hk : s.kept = kp) :
    (loadDesk c a s).Keeps kp := by
  subst hk; unfold loadDesk; simp

@[simp] theorem execVxLdDesk_kept (a : Issue) (f : VArgs) (s : State) :
    Machine.Keeps s.kept (execVxLdDesk a f s) := by
  unfold execVxLdDesk; simp

@[simp] theorem loadStream_kept (c : Ctx) (a : VArgs) (s : State) (kp : Fuses × List Instr) (hk : s.kept = kp) :
    (loadStream c a s).Keeps kp := by
  subst hk
  unfold loadStream
  dsimp only
  split
  · rename_i h
    simp [State.takeFlits_ends h]
  · rename_i h
    simp [State.takeFlits_ends h]

@[simp] theorem execVxLdStream_kept (a : Issue) (f : VArgs) (s : State) :
    Machine.Keeps s.kept (execVxLdStream a f s) := by
  unfold execVxLdStream; simp

@[simp] theorem State.storeCounts_kept (s : State) (t : Nat) (xs : List (Nat × StEl)) :
    (State.storeCounts s t xs).kept = s.kept := by
  unfold State.storeCounts; simp

@[simp] theorem storeDesk_kept (c : Ctx) (a : VArgs) (s : State) (kp : Fuses × List Instr) (hk : s.kept = kp) :
    (storeDesk c a s).Keeps kp := by
  subst hk; unfold storeDesk; simp

@[simp] theorem execVxStDesk_kept (a : Issue) (f : VArgs) (s : State) :
    Machine.Keeps s.kept (execVxStDesk a f s) := by
  unfold execVxStDesk; simp

@[simp] theorem storeStream_kept (c : Ctx) (a : VArgs) (s : State) (kp : Fuses × List Instr) (hk : s.kept = kp) :
    (storeStream c a s).Keeps kp := by
  subst hk; unfold storeStream; simp

@[simp] theorem execVxStStream_kept (a : Issue) (f : VArgs) (s : State) :
    Machine.Keeps s.kept (execVxStStream a f s) := by
  unfold execVxStStream; simp

@[simp] theorem execVxSideStore_kept (a : Issue) (f : VArgs) (s : State) :
    Machine.Keeps s.kept (execVxSideStore a f s) := by
  unfold execVxSideStore; simp

@[simp] theorem execVxSideSend_kept (a : Issue) (f : VArgs) (s : State) :
    Machine.Keeps s.kept (execVxSideSend a f s) := by
  unfold execVxSideSend; simp

@[simp] theorem execVxSideFoldDesk_kept (a : Issue) (f : VArgs) (s : State) :
    Machine.Keeps s.kept (execVxSideFoldDesk a f s) := by
  unfold execVxSideFoldDesk; simp

@[simp] theorem execVxSideFoldStream_kept (a : Issue) (f : VArgs) (s : State) :
    Machine.Keeps s.kept (execVxSideFoldStream a f s) := by
  unfold execVxSideFoldStream
  refine issue_kept _ _ _ _ _ ?_
  dsimp only
  split
  · rename_i h
    simp [State.takeFlits_ends h]
  · rename_i h
    simp [State.takeFlits_ends h]

@[simp] theorem State.badEntry_kept (s : State) (c : Ctx) (n : Nat) :
    (State.badEntry s c n).kept = s.kept := by
  unfold State.badEntry; simp

@[simp] theorem State.tallyRange_kept (s : State) (c : Ctx) (shelf : Bool) (addr : Nat) :
    (State.tallyRange s c shelf addr).kept = s.kept := by
  unfold State.tallyRange; simp

@[simp] theorem State.addDeskTally_kept (s : State) (c : Ctx) (addr : Nat) (v : BitVec 64) :
    (State.addDeskTally s c addr v).kept = s.kept := by
  unfold State.addDeskTally; simp

@[simp] theorem taddBody_kept (c : Ctx) (a : VArgs) (s : State) (kp : Fuses × List Instr) (hk : s.kept = kp) :
    (taddBody c a s).Keeps kp := by
  subst hk; unfold taddBody; dsimp only; repeat' (first | (simp; done) | split)

@[simp] theorem execTadd_kept (a : Issue) (f : VArgs) (s : State) :
    Machine.Keeps s.kept (execTadd a f s) := by
  unfold execTadd; simp

@[simp] theorem tcvtBody_kept (c : Ctx) (a : VArgs) (s : State) (kp : Fuses × List Instr) (hk : s.kept = kp) :
    (tcvtBody c a s).Keeps kp := by
  subst hk; unfold tcvtBody; dsimp only; repeat' (first | (simp; done) | split)

@[simp] theorem execTcvt_kept (a : Issue) (f : VArgs) (s : State) :
    Machine.Keeps s.kept (execTcvt a f s) := by
  unfold execTcvt; simp

end Sys2Proof.Machine
end

