-- ==== Sys2Proof/Laws/KeptMemory.lean ====
section
/-! SUPPORT. The operations of Machine/Memory.lean leave the fuses and the queue alone. -/

set_option Elab.async false

namespace Sys2Proof.Machine

@[simp] theorem execMmCopyToShelf_kept (a : Issue) (f : MoveArgs) (s : State) :
    Machine.Keeps s.kept (execMmCopyToShelf a f s) := by
  unfold execMmCopyToShelf; simp

@[simp] theorem execMmCopyToDesk_kept (a : Issue) (f : MoveArgs) (s : State) :
    Machine.Keeps s.kept (execMmCopyToDesk a f s) := by
  unfold execMmCopyToDesk; simp

@[simp] theorem State.foldTally_kept (s : State) (c : Ctx) (desk : Nat) (shelf : Nat) :
    (State.foldTally s c desk shelf).kept = s.kept := by
  unfold State.foldTally; simp

@[simp] theorem tfoldBody_kept (c : Ctx) (a : MoveArgs) (s : State) (kp : Fuses × List Instr) (hk : s.kept = kp) :
    (tfoldBody c a s).Keeps kp := by
  subst hk; unfold tfoldBody; simp

@[simp] theorem execTfold_kept (a : Issue) (f : MoveArgs) (s : State) :
    Machine.Keeps s.kept (execTfold a f s) := by
  unfold execTfold; simp

@[simp] theorem execMmSreqRead_kept (a : Issue) (f : SreqArgs) (s : State) :
    Machine.Keeps s.kept (execMmSreqRead a f s) := by
  unfold execMmSreqRead; simp

@[simp] theorem execMmSreqWrite_kept (a : Issue) (f : SreqArgs) (s : State) :
    Machine.Keeps s.kept (execMmSreqWrite a f s) := by
  unfold execMmSreqWrite; simp

@[simp] theorem waitBody_kept (c : Ctx) (a : WaitArgs) (s : State) (kp : Fuses × List Instr) (hk : s.kept = kp) :
    (waitBody c a s).Keeps kp := by
  subst hk; unfold waitBody; dsimp only; repeat' (first | (simp; done) | split)

@[simp] theorem execMmWait_kept (a : Issue) (f : WaitArgs) (s : State) :
    Machine.Keeps s.kept (execMmWait a f s) := by
  unfold execMmWait; simp

@[simp] theorem State.putDir_kept (s : State) (t : Nat) (recNo : Nat) (e : DirEnt) (plan : Nat) (spill : Nat) :
    (State.putDir s t recNo e plan spill).kept = s.kept := by
  unfold State.putDir; simp

@[simp] theorem State.exhaust_kept (s : State) (c : Ctx) (p : Bool) (recNo : Nat) (lines : Nat) :
    (State.exhaust s c p recNo lines).kept = s.kept := by
  unfold State.exhaust; simp

@[simp] theorem aputBody_kept (c : Ctx) (a : StashArgs) (s : State) (kp : Fuses × List Instr) (hk : s.kept = kp) :
    (aputBody c a s).Keeps kp := by
  subst hk; unfold aputBody; dsimp only; repeat' (first | (simp; done) | split)

@[simp] theorem execAput_kept (a : Issue) (f : StashArgs) (s : State) :
    Machine.Keeps s.kept (execAput a f s) := by
  unfold execAput; simp

@[simp] theorem agetBody_kept (c : Ctx) (a : StashArgs) (s : State) (kp : Fuses × List Instr) (hk : s.kept = kp) :
    (agetBody c a s).Keeps kp := by
  subst hk; unfold agetBody; dsimp only; repeat' (first | (simp; done) | split)

@[simp] theorem execAget_kept (a : Issue) (f : StashArgs) (s : State) :
    Machine.Keeps s.kept (execAget a f s) := by
  unfold execAget; simp

@[simp] theorem tsendBody_kept (c : Ctx) (a : TxArgs) (s : State) (kp : Fuses × List Instr) (hk : s.kept = kp) :
    (tsendBody c a s).Keeps kp := by
  subst hk; unfold tsendBody; split <;> simp

@[simp] theorem execTsend_kept (a : Issue) (f : TxArgs) (s : State) :
    Machine.Keeps s.kept (execTsend a f s) := by
  unfold execTsend; simp

@[simp] theorem trecvBody_kept (c : Ctx) (a : TxArgs) (s : State) (kp : Fuses × List Instr) (hk : s.kept = kp) :
    (trecvBody c a s).Keeps kp := by
  subst hk
  unfold trecvBody
  dsimp only
  split
  · rename_i h
    simp [State.takeFlits_ends h]
  · rename_i h
    split <;> simp [State.takeFlits_ends h]

@[simp] theorem execTrecv_kept (a : Issue) (f : TxArgs) (s : State) :
    Machine.Keeps s.kept (execTrecv a f s) := by
  unfold execTrecv; simp

end Sys2Proof.Machine
end

