-- ==== Sys2Proof/Laws/KeptEdition.lean ====
section
/-! SUPPORT. The operations of Machine/Edition.lean leave the fuses and the queue alone. -/

set_option Elab.async false

namespace Sys2Proof.Machine

@[simp] theorem State.waveOpen_kept (s : State) (p : Bool) :
    (State.waveOpen s p).kept = s.kept := by
  unfold State.waveOpen; split <;> simp

@[simp] theorem takeBody_kept (form1 : Bool) (c : Ctx) (a : EdArgs) (s : State) (kp : Fuses × List Instr) (hk : s.kept = kp) :
    (takeBody form1 c a s).Keeps kp := by
  subst hk; unfold takeBody; dsimp only; repeat' (first | (simp; done) | split)

@[simp] theorem execEdTake_kept (a : Issue) (f : EdArgs) (s : State) :
    Machine.Keeps s.kept (execEdTake a f s) := by
  unfold execEdTake; simp

@[simp] theorem execEdTakeWait_kept (a : Issue) (f : EdArgs) (s : State) :
    Machine.Keeps s.kept (execEdTakeWait a f s) := by
  unfold execEdTakeWait; simp

@[simp] theorem dropBody_kept (c : Ctx) (a : EdArgs) (s : State) :
    (dropBody c a s).kept = s.kept := by
  unfold dropBody; split <;> simp

@[simp] theorem execEdDrop_kept (a : Issue) (f : EdArgs) (s : State) :
    Machine.Keeps s.kept (execEdDrop a f s) := by
  unfold execEdDrop; simp

@[simp] theorem openBody_kept (c : Ctx) (a : EdArgs) (s : State) (kp : Fuses × List Instr) (hk : s.kept = kp) :
    (openBody c a s).Keeps kp := by
  subst hk; unfold openBody; dsimp only; repeat' (first | (simp; done) | split)

@[simp] theorem execEdOpen_kept (a : Issue) (f : EdArgs) (s : State) :
    Machine.Keeps s.kept (execEdOpen a f s) := by
  unfold execEdOpen; simp

@[simp] theorem sealBody_kept (c : Ctx) (a : EdArgs) (s : State) :
    (sealBody c a s).kept = s.kept := by
  unfold sealBody; split <;> simp

@[simp] theorem execEdSeal_kept (a : Issue) (f : EdArgs) (s : State) :
    Machine.Keeps s.kept (execEdSeal a f s) := by
  unfold execEdSeal; simp

@[simp] theorem setBody_kept (c : Ctx) (a : EdArgs) (s : State) :
    (setBody c a s).kept = s.kept := by
  unfold setBody; simp

@[simp] theorem execEdSet_kept (a : Issue) (f : EdArgs) (s : State) :
    Machine.Keeps s.kept (execEdSet a f s) := by
  unfold execEdSet; simp

end Sys2Proof.Machine
end

