-- ==== Sys2Proof/Laws/KeptBundle.lean ====
section
/-! SUPPORT. The operations of Machine/Bundle.lean leave the fuses and the queue alone. -/

set_option Elab.async false

namespace Sys2Proof.Machine

@[simp] theorem State.setPhase_kept (s : State) (n : Nat) :
    (State.setPhase s n).kept = s.kept := by
  unfold State.setPhase; simp

@[simp] theorem State.endAct_kept (s : State) (cmd : Option Nat) (status : Nat) :
    (State.endAct s cmd status).kept = s.kept := by
  unfold State.endAct; split <;> simp

@[simp] theorem State.startSlot_kept (s : State) (b : Bool) :
    (State.startSlot s b).kept = s.kept := by
  unfold State.startSlot; simp

@[simp] theorem State.startFallback_kept (s : State) (a : Activation) (t : Bool) :
    (State.startFallback s a t).kept = s.kept := by
  unfold State.startFallback; simp

@[simp] theorem State.beginRun_kept (s : State) (a : Activation) :
    (State.beginRun s a).kept = s.kept := by
  unfold State.beginRun; dsimp only; repeat' (first | (simp; done) | split)

@[simp] theorem State.fwArrive_kept (s : State) (p : Bool) (stop : Bool) :
    (State.fwArrive s p stop).kept = s.kept := by
  unfold State.fwArrive; dsimp only; repeat' (first | (simp; done) | split)

end Sys2Proof.Machine
end

