-- ==== Sys2Proof/Laws/KeptBells.lean ====
section
/-! SUPPORT. The operations of Machine/Bells.lean leave the fuses and the queue alone. -/

set_option Elab.async false

namespace Sys2Proof.Machine

@[simp] theorem State.lateUnit_kept (s : State) (p : Bool) (w : Wait) (b : Bytes) :
    (State.lateUnit s p w b).kept = s.kept := by
  unfold State.lateUnit; simp

@[simp] theorem State.recordHold_kept (s : State) (p : Bool) (lastTile : Nat) :
    (State.recordHold s p lastTile).kept = s.kept := by
  unfold State.recordHold; simp

@[simp] theorem State.closePeriod_kept (s : State) (p : Bool) (lastTile : Nat) (doneCyc : Nat) (energy : Nat) (power : Nat) :
    (State.closePeriod s p lastTile doneCyc energy power).kept = s.kept := by
  unfold State.closePeriod; simp

@[simp] theorem State.watchRecord_kept (s : State) (p : Bool) (b : Bytes) :
    (State.watchRecord s p b).kept = s.kept := by
  unfold State.watchRecord; simp

@[simp] theorem State.silentZero_kept (s : State) (p : Bool) (n : BitVec 64) (w : Nat) (run : Nat) (c : Counts) :
    (State.silentZero s p n w run c).kept = s.kept := by
  unfold State.silentZero; simp

@[simp] theorem State.tensorRecord_kept (s : State) (p : Bool) (n : BitVec 64) (e : TensorEnt) :
    (State.tensorRecord s p n e).kept = s.kept := by
  unfold State.tensorRecord; simp

@[simp] theorem State.watchCommit_kept (s : State) (p : Bool) (l : Lesson) (n : BitVec 64) :
    (State.watchCommit s p l n).kept = s.kept := by
  unfold State.watchCommit; simp

@[simp] theorem State.mirrorStart_kept (s : State) (p : Bool) (n : BitVec 64) :
    (State.mirrorStart s p n).kept = s.kept := by
  unfold State.mirrorStart; simp

@[simp] theorem State.commit_kept (s : State) (p : Bool) (l : Lesson) (n : BitVec 64) : (s.commit p l n).kept = s.kept := by
  unfold State.commit
  extract_lets sf s0 s1 x first s2 s3
  have h0 : s0.kept = s.kept := by simp [s0]
  clear_value s0
  have h1 : s1.kept = s.kept := by simp [s1, h0]
  clear_value s1
  have h2 : s2.kept = s.kept := (State.setPart_kept _ _ _).trans h1
  clear_value s2
  have h3 : s3.kept = s.kept := by simp [s3, h2]
  clear_value s3
  rw [kept_ite]
  simp [h3]

@[simp] theorem State.commitPeriod_kept (s : State) (p : Bool) (l : Lesson) :
    (State.commitPeriod s p l).kept = s.kept := by
  unfold State.commitPeriod; simp

@[simp] theorem State.paceReport_kept (s : State) (p : Bool) :
    (State.paceReport s p).kept = s.kept := by
  unfold State.paceReport; simp

@[simp] theorem State.codeByte_kept (s : State) (l : Lesson) (e : TensorEnt) :
    (State.codeByte s l e).2.kept = s.kept := by
  unfold State.codeByte; split <;> simp

@[simp] theorem State.fixG_kept (s : State) (p : Bool) (l : Lesson) (n : BitVec 64) (e : TensorEnt) :
    (State.fixG s p l n e).2.kept = s.kept := by
  unfold State.fixG; (repeat' split) <;> simp

@[simp] theorem State.writeGrid_kept (s : State) (p : Bool) (l : Lesson) (n : BitVec 64) :
    (State.writeGrid s p l n).kept = s.kept := by
  unfold State.writeGrid; simp

@[simp] theorem State.deskWord_kept (s : State) (p : Bool) (addr : Nat) (w : Word) :
    (State.deskWord s p addr w).kept = s.kept := by
  unfold State.deskWord; simp

@[simp] theorem State.writeScalars_kept (s : State) (p : Bool) (l : Lesson) (n : BitVec 64) :
    (State.writeScalars s p l n).kept = s.kept := by
  unfold State.writeScalars; repeat' (first | (simp [*]; done) | split | intro _ | (refine (foldl_kept _ _ _ ?_).trans ?_) | dsimp only)

@[simp] theorem State.letIn_kept (s : State) (p : Bool) (l : Lesson) (n : BitVec 64) :
    (State.letIn s p l n).kept = s.kept := by
  unfold State.letIn; dsimp only; repeat' (first | (simp; done) | split)

@[simp] theorem State.stepStart_kept (s : State) (p : Bool) (l : Lesson) (n : BitVec 64) (ended : Bool) :
    (State.stepStart s p l n ended).kept = s.kept := by
  unfold State.stepStart; simp

@[simp] theorem State.openPeriod_kept (s : State) (p : Bool) (l : Lesson) :
    (State.openPeriod s p l).kept = s.kept := by
  unfold State.openPeriod; simp

@[simp] theorem State.stopBells_kept (s : State) (p : Bool) :
    (State.stopBells s p).kept = s.kept := by
  unfold State.stopBells; simp

@[simp] theorem State.nextPeriod_kept (s : State) (p : Bool) (l : Lesson) :
    (State.nextPeriod s p l).kept = s.kept := by
  unfold State.nextPeriod; dsimp only; repeat' (first | (simp; done) | split)

@[simp] theorem State.countPending_kept (s : State) (p : Bool) (n : Nat) :
    (State.countPending s p n).kept = s.kept := by
  unfold State.countPending; simp

@[simp] theorem State.settle4_kept (s : State) (p : Bool) (l : Lesson) (m : Mark) :
    (State.settle4 s p l m).kept = s.kept := by
  unfold State.settle4; dsimp only; repeat' (first | (simp; done) | split)

@[simp] theorem State.giveMark_kept (s : State) (p : Bool) (l : Lesson) (m : Mark) :
    (State.giveMark s p l m).kept = s.kept := by
  unfold State.giveMark; simp

@[simp] theorem State.twinTry_kept (s : State) (p : Bool) (l : Lesson) (per : BitVec 48) :
    (State.twinTry s p l per).kept = s.kept := by
  unfold State.twinTry; dsimp only; repeat' (first | (simp; done) | split)

@[simp] theorem State.sendEndMark_kept (s : State) (p : Bool) (l : Lesson) (m : Mark) :
    (State.sendEndMark s p l m).kept = s.kept := by
  unfold State.sendEndMark; simp

@[simp] theorem State.startMarks_kept (s : State) (p : Bool) :
    (State.startMarks s p).kept = s.kept := by
  unfold State.startMarks; simp

@[simp] theorem State.haltNow_kept (s : State) (p : Bool) :
    (State.haltNow s p).kept = s.kept := by
  unfold State.haltNow; simp

@[simp] theorem State.freshSeq_kept (s : State) (p : Bool) :
    (State.freshSeq s p).kept = s.kept := by
  unfold State.freshSeq; simp

@[simp] theorem State.ringBell_kept (s : State) (p : Bool) (l : Lesson) (lastTile : Nat) (doneCyc : Nat) (energy : Nat) (power : Nat) :
    (State.ringBell s p l lastTile doneCyc energy power).kept = s.kept := by
  unfold State.ringBell; dsimp only; repeat' (first | (simp; done) | split)

end Sys2Proof.Machine
end

