-- ==== Sys2Proof/Laws/KeptLink.lean ====
section
/-! SUPPORT. The operations of Machine/Link.lean leave the fuses and the queue alone. -/

set_option Elab.async false

namespace Sys2Proof.Machine

@[simp] theorem State.laneRec_kept (s : State) (l : Nat) (lane : Nat) :
    (State.laneRec s l lane).kept = s.kept := by
  unfold State.laneRec; simp

@[simp] theorem State.portLost_kept (s : State) (l : Nat) (lane : Nat) (cause : Nat) :
    (State.portLost s l lane cause).kept = s.kept := by
  unfold State.portLost; split <;> simp

@[simp] theorem State.dropSpare_kept (s : State) (l : Nat) :
    (State.dropSpare s l).kept = s.kept := by
  unfold State.dropSpare; simp

@[simp] theorem State.hurtWaits_kept (s : State) (l lane : Nat) :
    (State.hurtWaits s l lane).kept = s.kept := by
  unfold State.hurtWaits; simp

@[simp] theorem State.switchMap_kept (s : State) (l : Nat) (lane : Nat) :
    (State.switchMap s l lane).kept = s.kept := by
  unfold State.switchMap; split <;> simp

@[simp] theorem State.requestSwitch_kept (s : State) (l : Nat) (lane : Nat) :
    (State.requestSwitch s l lane).kept = s.kept := by
  unfold State.requestSwitch; simp

@[simp] theorem State.keepDegraded_kept (s : State) (l : Nat) :
    (State.keepDegraded s l).kept = s.kept := by
  unfold State.keepDegraded; split <;> simp

@[simp] theorem State.failLane_kept (s : State) (l : Nat) (lane : Nat) :
    (State.failLane s l lane).kept = s.kept := by
  unfold State.failLane; dsimp only; repeat' (first | (simp; done) | split)

@[simp] theorem State.degradeLane_kept (s : State) (l : Nat) (lane : Nat) :
    (State.degradeLane s l lane).kept = s.kept := by
  unfold State.degradeLane; simp

@[simp] theorem State.recessSwitches_kept (s : State) (p : Bool) :
    (State.recessSwitches s p).kept = s.kept := by
  unfold State.recessSwitches; repeat' (first | (simp [*]; done) | split | intro _ | (refine (foldl_kept _ _ _ ?_).trans ?_) | dsimp only)

@[simp] theorem State.sendNak_kept (s : State) (l : Nat) (seq : BitVec 12) :
    (State.sendNak s l seq).kept = s.kept := by
  unfold State.sendNak; simp

@[simp] theorem State.failSeq_kept (s : State) (l : Nat) (lane : Nat) (seq : BitVec 12) :
    (State.failSeq s l lane seq).kept = s.kept := by
  unfold State.failSeq; simp

@[simp] theorem State.nakSkipped_kept (s : State) (l lane : Nat) (seq : BitVec 12) (n : Nat) :
    (s.nakSkipped l lane seq n).kept = s.kept := by
  induction n generalizing s with
  | zero => rfl
  | succ n ih =>
    unfold State.nakSkipped
    dsimp only
    split
    · rfl
    · rw [ih]; simp

@[simp] theorem State.badBlock_kept (s : State) (l : Nat) (lane : Nat) (b : Block) :
    (State.badBlock s l lane b).kept = s.kept := by
  unfold State.badBlock; simp

@[simp] theorem State.handOn_kept (s : State) (l n : Nat) : (s.handOn l n).kept = s.kept := by
  induction n generalizing s with
  | zero => rfl
  | succ n ih =>
    unfold State.handOn
    dsimp only
    split
    · rfl
    · rw [ih]; simp

@[simp] theorem State.takeBlock_kept (s : State) (l : Nat) (b : Block) :
    (State.takeBlock s l b).kept = s.kept := by
  unfold State.takeBlock; simp

@[simp] theorem State.goodBlock_kept (s : State) (l : Nat) (lane : Nat) (b : Block) :
    (State.goodBlock s l lane b).kept = s.kept := by
  unfold State.goodBlock; simp

@[simp] theorem onPort_kept (l : Nat) (s r : State) (kp : Fuses × List Instr) (hs : s.kept = kp) (hk : r.kept = kp) :
    Machine.Keeps kp (onPort l s r) := by
  subst hk; unfold onPort; (repeat' split) <;> simp [hs]

@[simp] theorem execBlockReceived_kept (l : Nat) (r : Reception) (b : Block) (s : State) :
    Machine.Keeps s.kept (execBlockReceived l r b s) := by
  unfold execBlockReceived; simp

@[simp] theorem State.unControl_kept (s : State) (l : Nat) (type : Byte) (arg : BitVec 32) :
    (State.unControl s l type arg).kept = s.kept := by
  unfold State.unControl; simp

@[simp] theorem execNak_kept (l : Nat) (seq : BitVec 12) (s : State) :
    Machine.Keeps s.kept (execNak l seq s) := by
  unfold execNak; dsimp only; repeat' (first | (simp; done) | split)

@[simp] theorem execProbe_kept (l : Nat) (stamp : BitVec 32) (s : State) :
    Machine.Keeps s.kept (execProbe l stamp s) := by
  unfold execProbe; simp

@[simp] theorem execLinkSilenceTimeout_kept (l : Nat) (s : State) :
    Machine.Keeps s.kept (execLinkSilenceTimeout l s) := by
  unfold execLinkSilenceTimeout; simp

@[simp] theorem execLaneFailure_kept (l : Nat) (lane : Nat) (s : State) :
    Machine.Keeps s.kept (execLaneFailure l lane s) := by
  unfold execLaneFailure; simp

@[simp] theorem execLaneCeWindow_kept (l : Nat) (counts : List Nat) (s : State) :
    Machine.Keeps s.kept (execLaneCeWindow l counts s) := by
  unfold execLaneCeWindow; simp

@[simp] theorem State.peerSwitch_kept (s : State) (l : Nat) (lane : Nat) :
    (State.peerSwitch s l lane).kept = s.kept := by
  unfold State.peerSwitch; split <;> simp

@[simp] theorem execLaneSwitchRequest_kept (l : Nat) (lane : Nat) (s : State) :
    Machine.Keeps s.kept (execLaneSwitchRequest l lane s) := by
  unfold execLaneSwitchRequest; simp

@[simp] theorem execLaneSwitchComplete_kept (l : Nat) (s : State) :
    Machine.Keeps s.kept (execLaneSwitchComplete l s) := by
  unfold execLaneSwitchComplete; split <;> simp

end Sys2Proof.Machine
end

