-- ==== Sys2Proof/Laws/KeptTokens.lean ====
section
/-! SUPPORT. The operations of Machine/Tokens.lean leave the fuses and the queue alone. -/

set_option Elab.async false

namespace Sys2Proof.Machine

@[simp] theorem runTile_kept (i : Instr) (s : State) (kp : Fuses × List Instr) (hk : s.kept = kp) :
    Machine.Keeps kp (runTile i s) := by
  subst hk; unfold runTile; split <;> simp

@[simp] theorem runHeld_kept (t : Nat) (l : List Instr) (s : State) (k : Fuses × List Instr) (h : s.kept = k) :
    Machine.Keeps k (runHeld t l s) := by
  induction l generalizing s with
  | nil => exact h
  | cons i l ih =>
    unfold runHeld
    have hk := runTile_kept i s k h
    split
    · simpa using h
    · split
      · next s1 e => rw [e] at hk; exact ih s1 hk
      · next o e => exact hk

@[simp] theorem execStallResume_kept (t cycles : Nat) (s : State) : Machine.Keeps s.kept (execStallResume t cycles s) := by
  unfold execStallResume
  split
  · trivial
  · extract_lets x c wx w y0 s1 d z0 s2 y todo
    have h1 : s1.kept = s.kept := by simp [s1]
    have h2 : s2.kept = s.kept := by simp [s2, d, h1]
    clear_value s2
    split
    · simp
    · split
      · simpa using h2
      · have hk := runHeld_kept t todo (s2.setTile t { y with stall := none, held := [] }) s.kept (by simp [h2])
        revert hk
        generalize runHeld t todo (s2.setTile t { y with stall := none, held := [] }) = r
        intro hk
        cases r with
        | next s3 => dsimp only; split <;> simpa using hk
        | fault f => trivial
        | refused f => trivial

@[simp] theorem execStashRequestComplete_kept (t : Nat) (s : State) :
    Machine.Keeps s.kept (execStashRequestComplete t s) := by
  unfold execStashRequestComplete; dsimp only; repeat' (first | (simp; done) | split)

@[simp] theorem execMeshFlitArrival_kept (t : Nat) (st : Nat) (s : State) :
    Machine.Keeps s.kept (execMeshFlitArrival t st s) := by
  unfold execMeshFlitArrival; dsimp only; repeat' (first | (simp; done) | split)

end Sys2Proof.Machine
end

