-- ==== Sys2Proof/Laws/KeptFrames.lean ====
section
/-! SUPPORT. The operations of Machine/Frames.lean leave the fuses and the queue alone. -/

set_option Elab.async false

namespace Sys2Proof.Machine

@[simp] theorem State.frameErr_kept (s : State) (p : Bool) (f : Frame) (cls : Nat) :
    (State.frameErr s p f cls).kept = s.kept := by
  unfold State.frameErr; simp

@[simp] theorem State.frameFault_kept (s : State) (p : Bool) (f : Frame) :
    (State.frameFault s p f).kept = s.kept := by
  unfold State.frameFault; simp

@[simp] theorem State.mirrorFrame_kept (s : State) (p : Bool) (b : Bytes) :
    (State.mirrorFrame s p b).kept = s.kept := by
  unfold State.mirrorFrame; simp

@[simp] theorem State.restoreFrame_kept (s : State) (p : Bool) (l : Lesson) (port : Nat) (b : Bytes) :
    (State.restoreFrame s p l port b).kept = s.kept := by
  unfold State.restoreFrame; dsimp only; repeat' (first | (simp; done) | split)

@[simp] theorem State.deliver_kept (s : State) (l : Lesson) (i : Nat) (port : Nat) (q : QueueBind) (f : Frame) (kp : Fuses × List Instr) (hk : s.kept = kp) :
    Held kp (State.deliver s l i port q f) := by
  subst hk; unfold State.deliver; dsimp only; repeat' (first | (simp; done) | split)

/-- A frame that is dropped changes neither. -/
theorem State.screen_drop (s t : State) (p : Bool) (port : Nat) (f : Frame) (h : s.screen p port f = .drop t) : t.kept = s.kept := by
  unfold State.screen at h
  split at h
  · cases h; simp
  · split at h
    · cases h; simp
    · split at h <;> cases h

@[simp] theorem State.dataFrame_kept (s : State) (p : Bool) (l : Lesson) (port : Nat) (f : Frame) :
    (s.dataFrame p l port f).1.kept = s.kept := by
  unfold State.dataFrame
  split
  · next h => exact s.screen_drop _ p port f h
  · exact (rfl : s.kept = s.kept)
  · extract_lets x d y
    split
    · simp
    · split
      · split
        · rfl
        · split
          · simp
          · split
            · split
              · rfl
              · extract_lets want s1 s2
                have h1 : s1.kept = s.kept := by simp [s1]
                clear_value s1
                have h2 : s2.kept = s.kept := by simp [s2, h1]
                clear_value s2
                simp [h2]
            · split
              · rfl
              · next e =>
                extract_lets want z s2
                have hd := State.deliver_kept s _ _ _ _ _ s.kept rfl _ e
                have h2 : s2.kept = s.kept := by simp [s2, hd]
                clear_value s2
                simp [h2]
      · split <;> simp

@[simp] theorem State.drainPort_kept (s : State) (port : Nat) :
    (State.drainPort s port).kept = s.kept := by
  unfold State.drainPort; dsimp only; repeat' (first | (simp; done) | split)

@[simp] theorem State.unhand_kept (s : State) (port : Nat) (f : Frame) :
    (State.unhand s port f).kept = s.kept := by
  unfold State.unhand; simp

@[simp] theorem State.shardFrame_kept (s : State) (p : Bool) (port : Nat) (f : Frame) :
    (State.shardFrame s p port f).kept = s.kept := by
  unfold State.shardFrame; simp

@[simp] theorem State.receiveData_kept (s : State) (port0 : Nat) (f : Frame) :
    (State.receiveData s port0 f).kept = s.kept := by
  unfold State.receiveData; dsimp only; repeat' (first | (simp; done) | split)

@[simp] theorem execDataFrameReceived_kept (port : Nat) (f : Frame) (s : State) :
    Machine.Keeps s.kept (execDataFrameReceived port f s) := by
  unfold execDataFrameReceived; simp

@[simp] theorem State.addCredits_kept (s : State) (port : Nat) (es : List (Nat × Nat)) :
    (State.addCredits s port es).kept = s.kept := by
  unfold State.addCredits; simp

@[simp] theorem State.mirrorGo_kept (s : State) (p : Bool) (l : Lesson) (port : Nat) (e : LateFrame) :
    (State.mirrorGo s p l port e).kept = s.kept := by
  unfold State.mirrorGo; simp

@[simp] theorem State.mirrorOut_kept (s : State) (p : Bool) (l : Lesson) (port n : Nat) :
    (State.mirrorOut s p l port n).kept = s.kept := by
  induction n generalizing s with
  | zero => rfl
  | succ n ih =>
    unfold State.mirrorOut
    dsimp only
    split
    · rfl
    · split
      · rfl
      · rw [ih]; simp

@[simp] theorem State.mirrorSlot_kept (s : State) (p : Bool) (l : Lesson) (port : Nat) :
    (State.mirrorSlot s p l port).kept = s.kept := by
  unfold State.mirrorSlot; simp

@[simp] theorem State.creditsIn_kept (s : State) (p : Bool) (l : Lesson) (port : Nat) :
    (State.creditsIn s p l port).kept = s.kept := by
  unfold State.creditsIn; simp

@[simp] theorem State.heard_kept (s : State) (p : Bool) (port : Nat) :
    (State.heard s p port).kept = s.kept := by
  unfold State.heard; simp

@[simp] theorem State.receiveCredit_kept (s : State) (port0 : Nat) (f : Frame) : (s.receiveCredit port0 f).kept = s.kept := by
  unfold State.receiveCredit
  dsimp only
  repeat' (first | (simp; done) | split)
  next h => simpa using State.screen_drop _ _ _ _ _ h

@[simp] theorem execCreditFrameReceived_kept (port : Nat) (f : Frame) (s : State) :
    Machine.Keeps s.kept (execCreditFrameReceived port f s) := by
  unfold execCreditFrameReceived; simp

@[simp] theorem State.gateRead_kept (s : State) (port : Nat) (q : Nat) :
    (State.gateRead s port q).kept = s.kept := by
  unfold State.gateRead; dsimp only; repeat' (first | (simp; done) | split)

@[simp] theorem execMeshCreditReturn_kept (toPort : Bool) (sender : Nat) (st : Nat) (s : State) :
    Machine.Keeps s.kept (execMeshCreditReturn toPort sender st s) := by
  unfold execMeshCreditReturn; dsimp only; repeat' (first | (simp; done) | split)

@[simp] theorem State.restoreSlot_kept (s : State) (p : Bool) (l : Lesson) (port : Nat) (base : Nat) (pos : Nat) :
    (State.restoreSlot s p l port base pos).kept = s.kept := by
  unfold State.restoreSlot; simp

@[simp] theorem State.frameSlot_kept (s : State) (port : Nat) (quantum : Nat) (slot : Nat) :
    (State.frameSlot s port quantum slot).kept = s.kept := by
  unfold State.frameSlot; repeat' (first | (simp [*]; done) | split | intro _ | (refine (foldl_kept _ _ _ ?_).trans ?_) | dsimp only)

@[simp] theorem execFrameSlot_kept (port : Nat) (quantum : Nat) (slot : Nat) (s : State) :
    Machine.Keeps s.kept (execFrameSlot port quantum slot s) := by
  unfold execFrameSlot; split <;> simp

@[simp] theorem execMirrorStreamComplete_kept (p : Bool) (s : State) :
    Machine.Keeps s.kept (execMirrorStreamComplete p s) := by
  unfold execMirrorStreamComplete; dsimp only; repeat' (first | (simp; done) | split)

@[simp] theorem execMirrorRefillComplete_kept (p : Bool) (s : State) :
    Machine.Keeps s.kept (execMirrorRefillComplete p s) := by
  unfold execMirrorRefillComplete; dsimp only; repeat' (first | (simp; done) | split)

end Sys2Proof.Machine
end

