-- ==== Sys2Proof/Laws/KeptPeriod.lean ====
section
/-! SUPPORT. The operations of Machine/Period.lean leave the fuses and the queue alone. -/

set_option Elab.async false

namespace Sys2Proof.Machine

@[simp] theorem State.recessPorts_kept (s : State) (p : Bool) :
    (State.recessPorts s p).kept = s.kept := by
  unfold State.recessPorts; simp

@[simp] theorem State.writeBack_kept (s : State) (p : Bool) :
    (State.writeBack s p).kept = s.kept := by
  unfold State.writeBack; simp

@[simp] theorem State.drainPorts_kept (s : State) (p : Bool) :
    (State.drainPorts s p).kept = s.kept := by
  unfold State.drainPorts; simp

@[simp] theorem State.rebuildBell_kept (s : State) (p : Bool) (l : Lesson) (n : Nat) :
    (State.rebuildBell s p l n).kept = s.kept := by
  unfold State.rebuildBell; dsimp only; repeat' (first | (simp; done) | split)

@[simp] theorem execBell_kept (p : Bool) (lastTile : Nat) (doneCyc : Nat) (energy : Nat) (power : Nat) (s : State) :
    Machine.Keeps s.kept (execBell p lastTile doneCyc energy power s) := by
  unfold execBell; dsimp only; repeat' (first | (simp; done) | split)

@[simp] theorem execHoldoverQuantumEnd_kept (p : Bool) (s : State) :
    Machine.Keeps s.kept (execHoldoverQuantumEnd p s) := by
  unfold execHoldoverQuantumEnd; dsimp only; repeat' (first | (simp; done) | split)

@[simp] theorem execHoldoverLimit_kept (p : Bool) (s : State) :
    Machine.Keeps s.kept (execHoldoverLimit p s) := by
  unfold execHoldoverLimit; dsimp only; repeat' (first | (simp; done) | split)

@[simp] theorem execRecessStart_kept (p : Bool) (s : State) :
    Machine.Keeps s.kept (execRecessStart p s) := by
  unfold execRecessStart; dsimp only; repeat' (first | (simp; done) | split)

end Sys2Proof.Machine
end

