-- ==== Sys2Proof/Laws/KeptRecall.lean ====
section
/-! SUPPORT. The operations of Machine/Recall.lean leave the fuses and the queue alone. -/

set_option Elab.async false

namespace Sys2Proof.Machine

@[simp] theorem State.periodMark_kept (s : State) (p : Bool) (l : Lesson) (port : Nat) (m : Mark) :
    (State.periodMark s p l port m).kept = s.kept := by
  unfold State.periodMark; simp

@[simp] theorem State.notice_kept (s : State) (p : Bool) (m : Mark) :
    (State.notice s p m).kept = s.kept := by
  unfold State.notice; simp

@[simp] theorem State.markIn_kept (s : State) (p : Bool) (l : Lesson) (port : Nat) (m : Mark) :
    (State.markIn s p l port m).kept = s.kept := by
  unfold State.markIn; repeat' (first | (simp [*]; done) | split | intro _ | (refine (foldl_kept _ _ _ ?_).trans ?_) | dsimp only)

theorem State.receiveMark_kept (s : State) (port0 : Nat) (f : Frame) (take : State → Bool → Lesson → Nat → Mark → State)
    (h : ∀ a q l n m, (take a q l n m).kept = a.kept) : (s.receiveMark port0 f take).kept = s.kept := by
  unfold State.receiveMark
  dsimp only
  repeat' (first | (simp [h]; done) | split)
  all_goals (rename_i hs _; simpa using State.screen_drop _ _ _ _ _ hs)

@[simp] theorem execMarkFrameReceived_kept (port : Nat) (f : Frame) (s : State) :
    Machine.Keeps s.kept (execMarkFrameReceived port f s) := by
  unfold execMarkFrameReceived
  refine onPort_kept _ _ _ _ rfl (State.receiveMark_kept _ _ _ _ fun a q l n m => ?_)
  repeat' (first | (simp; done) | (rename_i h; have k := congrArg (State.kept ·.2) h; simp at k; simp [k]; done) | split)

@[simp] theorem execRecallNotice_kept (port : Nat) (f : Frame) (s : State) :
    Machine.Keeps s.kept (execRecallNotice port f s) := by
  unfold execRecallNotice
  refine onPort_kept _ _ _ _ rfl (State.receiveMark_kept _ _ _ _ fun a q l n m => ?_)
  repeat' (first | (simp; done) | (rename_i h; have k := congrArg (State.kept ·.2) h; simp at k; simp [k]; done) | split)

@[simp] theorem State.endRecall_kept (s : State) (p : Bool) :
    (State.endRecall s p).kept = s.kept := by
  unfold State.endRecall; simp

@[simp] theorem State.jobEnds_kept (s : State) (p : Bool) :
    (State.jobEnds s p).kept = s.kept := by
  unfold State.jobEnds; simp

@[simp] theorem State.reportGone_kept (s : State) (p : Bool) (l : Lesson) (gone : List Nat) :
    (State.reportGone s p l gone).kept = s.kept := by
  unfold State.reportGone; simp

@[simp] theorem State.unpark_kept (s : State) (ports : List Nat) :
    (State.unpark s ports).kept = s.kept := by
  unfold State.unpark; simp

@[simp] theorem State.rebind_kept (s : State) (p : Bool) (new : List (Nat × Nat)) :
    (State.rebind s p new).kept = s.kept := by
  unfold State.rebind; simp

@[simp] theorem State.agreedShort_kept (s : State) (p : Bool) :
    (State.agreedShort s p).kept = s.kept := by
  unfold State.agreedShort; dsimp only; repeat' (first | (simp; done) | split)

@[simp] theorem execAgreementTimeout_kept (p : Bool) (s : State) :
    Machine.Keeps s.kept (execAgreementTimeout p s) := by
  unfold execAgreementTimeout; repeat' (first | (simp [*]; done) | split | intro _ | (refine (foldl_kept _ _ _ ?_).trans ?_) | dsimp only)

@[simp] theorem State.replay_kept (s : State) (p : Bool) (l : Lesson) :
    (State.replay s p l).kept = s.kept := by
  unfold State.replay; simp

@[simp] theorem State.haltAfter_kept (s : State) (p : Bool) :
    (State.haltAfter s p).kept = s.kept := by
  unfold State.haltAfter; simp

@[simp] theorem execRebuildComplete_kept (p : Bool) (s : State) :
    Machine.Keeps s.kept (execRebuildComplete p s) := by
  unfold execRebuildComplete; dsimp only; repeat' (first | (simp; done) | split)

end Sys2Proof.Machine
end

