-- ==== Sys2Proof/Laws/KeptRoll.lean ====
section
/-! SUPPORT. The operations of Machine/Roll.lean leave the fuses and the queue alone. -/

set_option Elab.async false

namespace Sys2Proof.Machine

@[simp] theorem State.sendRoll_kept (s : State) (l : Nat) (message : Nat) (verdict : Nat) :
    (State.sendRoll s l message verdict).kept = s.kept := by
  unfold State.sendRoll; simp

@[simp] theorem State.setOwnDelay_kept (s : State) (l hi lo v : Nat) :
    (State.setOwnDelay s l hi lo v).kept = s.kept := by
  unfold State.setOwnDelay; split <;> simp

@[simp] theorem State.setOutcome_kept (s : State) (l : Nat) (st : Nat) (outcome : Nat) :
    (State.setOutcome s l st outcome).kept = s.kept := by
  unfold State.setOutcome; simp

@[simp] theorem State.darkPort_kept (s : State) (l : Nat) :
    (State.darkPort s l).kept = s.kept := by
  unfold State.darkPort; simp

@[simp] theorem State.beginPort_kept (s : State) (l : Nat) :
    (State.beginPort s l).kept = s.kept := by
  unfold State.beginPort; simp

@[simp] theorem State.beginRoll_kept (s : State) (mask : Nat) :
    (State.beginRoll s mask).kept = s.kept := by
  unfold State.beginRoll; simp

@[simp] theorem State.portTrained_kept (s : State) (l : Nat) (lanes : BitVec 5) :
    (State.portTrained s l lanes).kept = s.kept := by
  unfold State.portTrained; simp

@[simp] theorem execPortTrained_kept (l : Nat) (lanes : BitVec 5) (s : State) :
    Machine.Keeps s.kept (execPortTrained l lanes s) := by
  unfold execPortTrained; simp

@[simp] theorem State.fenceOutcome_kept (s : State) (l outcome : Nat) :
    (State.fenceOutcome s l outcome).kept = s.kept := by
  unfold State.fenceOutcome; dsimp only; split <;> simp

@[simp] theorem State.settlePort_kept (s : State) (l : Nat) :
    (State.settlePort s l).kept = s.kept := by
  unfold State.settlePort; dsimp only; repeat' (first | (simp; done) | split)

@[simp] theorem State.hello_kept (s : State) (l : Nat) (f : Frame) :
    (State.hello s l f).kept = s.kept := by
  unfold State.hello; simp

@[simp] theorem execHello_kept (l : Nat) (f : Frame) (s : State) :
    Machine.Keeps s.kept (execHello l f s) := by
  unfold execHello; simp

@[simp] theorem State.echo_kept (s : State) (l : Nat) (roundTrip : Nat) (turnaround : Nat) :
    (State.echo s l roundTrip turnaround).kept = s.kept := by
  unfold State.echo; dsimp only; repeat' (first | (simp; done) | split)

@[simp] theorem execEcho_kept (l : Nat) (roundTrip : Nat) (turnaround : Nat) (s : State) :
    Machine.Keeps s.kept (execEcho l roundTrip turnaround s) := by
  unfold execEcho; simp

@[simp] theorem State.verdict_kept (s : State) (l : Nat) (f : Frame) :
    (State.verdict s l f).kept = s.kept := by
  unfold State.verdict; dsimp only; repeat' (first | (simp; done) | split)

@[simp] theorem execVerdict_kept (l : Nat) (f : Frame) (s : State) :
    Machine.Keeps s.kept (execVerdict l f s) := by
  unfold execVerdict; simp

@[simp] theorem execRollCallTrainTimeout_kept (l : Nat) (s : State) :
    Machine.Keeps s.kept (execRollCallTrainTimeout l s) := by
  unfold execRollCallTrainTimeout; simp

@[simp] theorem State.settleFenced_kept (s : State) (ls : List Nat) :
    (State.settleFenced s ls).kept = s.kept := by
  unfold State.settleFenced; simp

@[simp] theorem State.startReady_kept (s : State) :
    (State.startReady s).kept = s.kept := by
  unfold State.startReady; simp

@[simp] theorem execRollCallComplete_kept (s : State) :
    Machine.Keeps s.kept (execRollCallComplete s) := by
  unfold execRollCallComplete; dsimp only; repeat' (first | (simp; done) | split)

@[simp] theorem State.relayProbed_kept (s : State) (l : Nat) (measured : Nat) :
    (State.relayProbed s l measured).kept = s.kept := by
  unfold State.relayProbed; dsimp only; split <;> simp

@[simp] theorem execRelayProbeComplete_kept (l : Nat) (measured : Nat) (s : State) :
    Machine.Keeps s.kept (execRelayProbeComplete l measured s) := by
  unfold execRelayProbeComplete; simp

end Sys2Proof.Machine
end

