-- ==== Sys2Proof/Laws/KeptAccess.lean ====
section
/-! SUPPORT. The operations of Machine/Access.lean leave the fuses and the queue alone. -/

set_option Elab.async false

namespace Sys2Proof.Machine

@[simp] theorem State.accEvent_kept (s : State) (who : Issuer) (addr : Nat) (foreign : Bool) (unaligned : Bool) (busy : Bool) :
    (State.accEvent s who addr foreign unaligned busy).kept = s.kept := by
  unfold State.accEvent; simp

@[simp] theorem State.pigeonBusy_kept (s : State) (g : Nat) :
    (State.pigeonBusy s g).kept = s.kept := by
  unfold State.pigeonBusy; simp

@[simp] theorem State.claimHole_kept (s : State) (who : Issuer) (field : Nat) (g : Nat) :
    (State.claimHole s who field g).kept = s.kept := by
  unfold State.claimHole; simp

@[simp] theorem State.goHole_kept (s : State) (who : Issuer) (field : Nat) (g : Nat) :
    (State.goHole s who field g).kept = s.kept := by
  unfold State.goHole; simp

@[simp] theorem State.dropHole_kept (s : State) (who : Issuer) (field : Nat) (g : Nat) :
    (State.dropHole s who field g).kept = s.kept := by
  unfold State.dropHole; simp

@[simp] theorem State.takeHole_kept (s : State) (who : Issuer) (field : Nat) (g : Nat) :
    (State.takeHole s who field g).kept = s.kept := by
  unfold State.takeHole; simp

@[simp] theorem State.lapseHole_kept (s : State) (g : Nat) :
    (State.lapseHole s g).kept = s.kept := by
  unfold State.lapseHole; simp

@[simp] theorem State.ring_kept (s : State) (q : Nat) :
    (State.ring s q).kept = s.kept := by
  unfold State.ring; simp

@[simp] theorem State.writeDoorbell_kept (s : State) (who : Issuer) (h : Bool) (v : Word) :
    (State.writeDoorbell s who h v).kept = s.kept := by
  unfold State.writeDoorbell; simp

@[simp] theorem State.writeCtail_kept (s : State) (h : Bool) (r : Nat) (v : Word) :
    (State.writeCtail s h r v).kept = s.kept := by
  unfold State.writeCtail; simp

@[simp] theorem State.writeRhead_kept (s : State) (h : Bool) (r : Nat) (v : Word) :
    (State.writeRhead s h r v).kept = s.kept := by
  unfold State.writeRhead; simp

@[simp] theorem State.writeRctl_kept (s : State) (h : Bool) (r : Nat) (v : Word) :
    (State.writeRctl s h r v).kept = s.kept := by
  unfold State.writeRctl; simp

@[simp] theorem State.writeCommit_kept (s : State) (r : Reg) (v : Word) :
    (State.writeCommit s r v).kept = s.kept := by
  unfold State.writeCommit; simp

@[simp] theorem State.writeCodes_kept (s : State) (who : Issuer) (r : Reg) (v : Word) :
    (State.writeCodes s who r v).kept = s.kept := by
  unfold State.writeCodes; dsimp only; repeat' (first | (simp; done) | split)

@[simp] theorem State.writeInject_kept (s : State) (t : Nat) (v : Word) :
    (State.writeInject s t v).kept = s.kept := by
  unfold State.writeInject; simp

@[simp] theorem State.writePower_kept (s : State) (r : Reg) (v : Word) :
    (State.writePower s r v).kept = s.kept := by
  unfold State.writePower; split <;> simp

@[simp] theorem State.writeReg_kept (s : State) (who : Issuer) (field : Nat) (r : Reg) (v : Word) :
    (State.writeReg s who field r v).kept = s.kept := by
  unfold State.writeReg; split <;> simp

@[simp] theorem State.access_kept (s : State) (who : Issuer) (field : Nat) (addr : Nat) (v : Word) (enables : BitVec 4) :
    (State.access s who field addr v enables).kept = s.kept := by
  unfold State.access; dsimp only; repeat' (first | (simp; done) | split)

@[simp] theorem State.accessReg_kept (s : State) (who : Issuer) (field : Nat) (r : Reg) (v : Word) :
    (State.accessReg s who field r v).kept = s.kept := by
  unfold State.accessReg; simp

@[simp] theorem State.looked_kept (s : State) (r : Reg) :
    (State.looked s r).kept = s.kept := by
  unfold State.looked; simp

@[simp] theorem State.readWord_kept (s : State) (who : Issuer) (field addr : Nat) :
    (State.readWord s who field addr).2.kept = s.kept := by
  unfold State.readWord; dsimp only; repeat' (first | (simp; done) | split)

@[simp] theorem State.read_kept (s : State) (r : Reader) (addr : Nat) :
    (State.read s r addr).kept = s.kept := by
  unfold State.read; dsimp only; repeat' (first | (simp; done) | split)

end Sys2Proof.Machine
end

