-- ==== Sys2Proof/Laws/KeptOffice.lean ====
section
/-! SUPPORT. The operations of Machine/Office.lean leave the fuses and the queue alone. -/

set_option Elab.async false

namespace Sys2Proof.Machine

@[simp] theorem ifUnit_kept (ok : Bool) (r : State) (kp : Fuses × List Instr) (hk : r.kept = kp) :
    Machine.Keeps kp (ifUnit ok r) := by
  subst hk; unfold ifUnit; split <;> simp

@[simp] theorem execCmdDoorbell_kept (who : Issuer) (h : Bool) (v : Word) (s : State) :
    Machine.Keeps s.kept (execCmdDoorbell who h v s) := by
  unfold execCmdDoorbell; simp

@[simp] theorem execCmdCtail_kept (who : Issuer) (h : Bool) (r : Nat) (v : Word) (s : State) :
    Machine.Keeps s.kept (execCmdCtail who h r v s) := by
  unfold execCmdCtail; simp

@[simp] theorem execCmdRhead_kept (who : Issuer) (h : Bool) (r : Nat) (v : Word) (s : State) :
    Machine.Keeps s.kept (execCmdRhead who h r v s) := by
  unfold execCmdRhead; simp

@[simp] theorem execCmdRctl_kept (who : Issuer) (h : Bool) (r : Nat) (v : Word) (s : State) :
    Machine.Keeps s.kept (execCmdRctl who h r v s) := by
  unfold execCmdRctl; simp

@[simp] theorem execCommitWrite_kept (who : Issuer) (addr : Nat) (v : Word) (s : State) :
    Machine.Keeps s.kept (execCommitWrite who addr v s) := by
  unfold execCommitWrite; simp

@[simp] theorem execPowerLimitWrite_kept (who : Issuer) (addr : Nat) (v : Word) (s : State) :
    Machine.Keeps s.kept (execPowerLimitWrite who addr v s) := by
  unfold execPowerLimitWrite; simp

@[simp] theorem execInject_kept (who : Issuer) (tile : Nat) (v : Word) (s : State) :
    Machine.Keeps s.kept (execInject who tile v s) := by
  unfold execInject; simp

@[simp] theorem execRegisterWrite_kept (who : Issuer) (addr : Nat) (v : Word) (enables : BitVec 4) (s : State) :
    Machine.Keeps s.kept (execRegisterWrite who addr v enables s) := by
  unfold execRegisterWrite; simp

@[simp] theorem execLatchedLowWordRead_kept (r : Reader) (addr : Nat) (s : State) :
    Machine.Keeps s.kept (execLatchedLowWordRead r addr s) := by
  unfold execLatchedLowWordRead; simp

@[simp] theorem execRegisterReadAccerr_kept (r : Reader) (addr : Nat) (s : State) :
    Machine.Keeps s.kept (execRegisterReadAccerr r addr s) := by
  unfold execRegisterReadAccerr; simp

@[simp] theorem State.readWords_kept (s : State) (a : Nat) (n : Nat) :
    (State.readWords s a n).2.kept = s.kept := by
  unfold State.readWords; simp

@[simp] theorem State.mgmtAccess_kept (s : State) (b : Bytes) :
    (State.mgmtAccess s b).kept = s.kept := by
  unfold State.mgmtAccess; simp

@[simp] theorem execMgmtRegisterRead_kept (b : Bytes) (s : State) :
    Machine.Keeps s.kept (execMgmtRegisterRead b s) := by
  unfold execMgmtRegisterRead; simp

@[simp] theorem execMgmtRegisterWrite_kept (b : Bytes) (s : State) :
    Machine.Keeps s.kept (execMgmtRegisterWrite b s) := by
  unfold execMgmtRegisterWrite; simp

@[simp] theorem holeAccess_kept (who : Issuer) (f : Nat) (n : Nat) (r : Reg) (v : Word) (s : State) (kp : Fuses × List Instr) (hk : s.kept = kp) :
    Machine.Keeps kp (holeAccess who f n r v s) := by
  subst hk; unfold holeAccess; simp

@[simp] theorem execClaim_kept (who : Issuer) (f : Nat) (n : Nat) (s : State) :
    Machine.Keeps s.kept (execClaim who f n s) := by
  unfold execClaim; simp

@[simp] theorem execGo_kept (who : Issuer) (f : Nat) (n : Nat) (s : State) :
    Machine.Keeps s.kept (execGo who f n s) := by
  unfold execGo; simp

@[simp] theorem execDrop_kept (who : Issuer) (f : Nat) (n : Nat) (s : State) :
    Machine.Keeps s.kept (execDrop who f n s) := by
  unfold execDrop; simp

@[simp] theorem execTake_kept (who : Issuer) (f : Nat) (n : Nat) (s : State) :
    Machine.Keeps s.kept (execTake who f n s) := by
  unfold execTake; simp

@[simp] theorem execPigeonholeTimeout_kept (n : Nat) (s : State) :
    Machine.Keeps s.kept (execPigeonholeTimeout n s) := by
  unfold execPigeonholeTimeout; simp

theorem State.holeFrame_kept (s : State) (port : Nat) (f : Frame) (take : State → State)
    (h : ∀ a, (take a).kept = a.kept) : (State.holeFrame s port f take).kept = s.kept := by
  unfold State.holeFrame; dsimp only; repeat' (first | (simp [h]; done) | split)

@[simp] theorem State.ownMessage_kept (s : State) (port : Nat) (f : Frame) :
    (State.ownMessage s port f).kept = s.kept := by
  unfold State.ownMessage; dsimp only; repeat' (first | (simp; done) | split)

@[simp] theorem State.peerMessage_kept (s : State) (port : Nat) (f : Frame) :
    (State.peerMessage s port f).kept = s.kept := by
  exact State.holeFrame_kept _ _ _ _ fun _ => by simp

@[simp] theorem State.sendPeer_kept (s : State) (port : Nat) (f : Frame) :
    (State.sendPeer s port f).kept = s.kept := by
  unfold State.sendPeer; simp

@[simp] theorem execPigeonholeMessageFrame_kept (e : MessageEnd) (f : Frame) (s : State) :
    Machine.Keeps s.kept (execPigeonholeMessageFrame e f s) := by
  unfold execPigeonholeMessageFrame; simp

@[simp] theorem State.ownAnswer_kept (s : State) (f : Frame) :
    (State.ownAnswer s f).kept = s.kept := by
  unfold State.ownAnswer; dsimp only; repeat' (first | (simp; done) | split)

@[simp] theorem State.peerAnswer_kept (s : State) (port : Nat) (f : Frame) :
    (State.peerAnswer s port f).kept = s.kept := by
  exact State.holeFrame_kept _ _ _ _ fun _ => by simp

@[simp] theorem execPigeonholeReplyFrame_kept (port : Nat) (f : Frame) (s : State) :
    Machine.Keeps s.kept (execPigeonholeReplyFrame port f s) := by
  unfold execPigeonholeReplyFrame; simp

@[simp] theorem execPeerReplyTimeout_kept (tag : BitVec 16) (s : State) :
    Machine.Keeps s.kept (execPeerReplyTimeout tag s) := by
  unfold execPeerReplyTimeout; split <;> simp

end Sys2Proof.Machine
end

