-- ==== Sys2Proof/Laws/KeptDma.lean ====
section
/-! SUPPORT. The operations of Machine/Dma.lean leave the fuses and the queue alone. -/

set_option Elab.async false

namespace Sys2Proof.Machine

@[simp] theorem State.dmaWrite_kept (s : State) (h : Bool) (p : Bool) (sp : Nat) (a : Nat) (b : Bytes) :
    (State.dmaWrite s h p sp a b).kept = s.kept := by
  unfold State.dmaWrite; repeat' (first | (simp [*]; done) | split | intro _ | (refine (foldl_kept _ _ _ ?_).trans ?_) | dsimp only)

@[simp] theorem State.fetchDesc_kept (s : State) (c : Nat) (e : DmaEnv) :
    (State.fetchDesc s c e).2.kept = s.kept := by
  unfold State.fetchDesc; dsimp only; repeat' (first | (simp; done) | split)

@[simp] theorem State.dmaFaultRec_kept (s : State) (c : Nat) (addr : Nat) :
    (State.dmaFaultRec s c addr).kept = s.kept := by
  unfold State.dmaFaultRec; simp

/-- A transfer's read of a line. -/
@[simp] theorem DmaRun.read_kept (r : DmaRun) (e : DmaEnv) (h p : Bool) (sp a : Nat) : (r.read e h p sp a).2.s.kept = r.s.kept := by
  unfold DmaRun.read
  dsimp only
  repeat' (first | rfl | (simp; done) | split)

@[simp] theorem DmaRun.line_kept (r : DmaRun) (e : DmaEnv) (h p : Bool) (d : Descriptor) (x : Nat × Nat × Nat) :
    (r.line e h p d x).s.kept = r.s.kept := by
  unfold DmaRun.line
  split
  · rfl
  · extract_lets a s1 q s2
    have ha : a.2.s.kept = r.s.kept := by
      simp only [a]
      split
      · rfl
      · simp
    clear_value a
    split
    · exact ha
    · split
      · have hq : q.2.s.kept = r.s.kept := by simp [q, ha]
        clear_value q
        split
        · exact hq
        · split <;> exact hq
      · split
        · exact ha
        · simp [ha]

theorem DmaRun.lines_kept (r : DmaRun) (e : DmaEnv) (h p : Bool) (d : Descriptor) (l : List (Nat × Nat × Nat)) :
    (l.foldl (fun (acc : DmaRun) y => acc.line e h p d y) r).s.kept = r.s.kept := by
  induction l generalizing r with
  | nil => rfl
  | cons x l ih => rw [List.foldl_cons, ih, DmaRun.line_kept]

@[simp] theorem State.dmaWalk_kept (s : State) (p : Bool) (d : Descriptor) :
    (State.dmaWalk s p d).kept = s.kept := by
  unfold State.dmaWalk; simp

@[simp] theorem State.runDesc_kept (s : State) (c op : Nat) (e : DmaEnv) : (s.runDesc c op e).kept = s.kept := by
  unfold State.runDesc
  dsimp only
  have hf := s.fetchDesc_kept c e
  split
  · rfl
  · split
    · next h => rw [h] at hf; simpa using hf
    · next h =>
      rw [h] at hf
      dsimp only at hf
      split
      · rfl
      · split
        · split <;> simp [hf]
        · split
          · simp [hf]
          · split <;> simp [DmaRun.lines_kept, hf]

@[simp] theorem onChan_kept (c : Nat) (r : State) (kp : Fuses × List Instr) (hk : r.kept = kp) :
    Machine.Keeps kp (onChan c r) := by
  subst hk; unfold onChan; split <;> simp

@[simp] theorem execDmaChstart_kept (who : Issuer) (c : Nat) (v : Word) (s : State) :
    Machine.Keeps s.kept (execDmaChstart who c v s) := by
  unfold execDmaChstart; simp

@[simp] theorem execHalt_kept (who : Issuer) (c : Nat) (s : State) :
    Machine.Keeps s.kept (execHalt who c s) := by
  unfold execHalt; simp

@[simp] theorem execDmaCopy_kept (c : Nat) (e : DmaEnv) (s : State) :
    Machine.Keeps s.kept (execDmaCopy c e s) := by
  unfold execDmaCopy; simp

@[simp] theorem execDmaFill_kept (c : Nat) (e : DmaEnv) (s : State) :
    Machine.Keeps s.kept (execDmaFill c e s) := by
  unfold execDmaFill; simp

@[simp] theorem execDmaCompare_kept (c : Nat) (e : DmaEnv) (s : State) :
    Machine.Keeps s.kept (execDmaCompare c e s) := by
  unfold execDmaCompare; simp

@[simp] theorem execDmaFence_kept (c : Nat) (e : DmaEnv) (s : State) :
    Machine.Keeps s.kept (execDmaFence c e s) := by
  unfold execDmaFence; simp

@[simp] theorem State.descDone_kept (s : State) (c : Nat) :
    (State.descDone s c).kept = s.kept := by
  unfold State.descDone; dsimp only; repeat' (first | (simp; done) | split)

@[simp] theorem execDmaDescriptorComplete_kept (c : Nat) (s : State) :
    Machine.Keeps s.kept (execDmaDescriptorComplete c s) := by
  unfold execDmaDescriptorComplete; simp

@[simp] theorem State.hostTimeout_kept (s : State) (c : Nat) :
    (State.hostTimeout s c).kept = s.kept := by
  unfold State.hostTimeout; simp

@[simp] theorem execDmaHostTimeout_kept (c : Nat) (s : State) :
    Machine.Keeps s.kept (execDmaHostTimeout c s) := by
  unfold execDmaHostTimeout; simp

@[simp] theorem State.drainChans_kept (s : State) (p : Bool) :
    (State.drainChans s p).kept = s.kept := by
  unfold State.drainChans; simp

end Sys2Proof.Machine
end

