-- ==== Sys2Proof/Laws/KeptReset.lean ====
section
/-! SUPPORT. The operations of Machine/Reset.lean leave the fuses and the queue alone. -/

set_option Elab.async false

namespace Sys2Proof.Machine

@[simp] theorem zeroed_kept (k : Packet) (lo hi : Nat) (body : CmdRes) (c : Fuses × List Instr) (h : body.Keeps c) :
    (zeroed k lo hi body).Keeps c := by
  unfold zeroed
  split
  · trivial
  · exact h

@[simp] theorem onPart_kept (k : Packet) (body : Bool → CmdRes) (c : Fuses × List Instr) (h : ∀ p, (body p).Keeps c) :
    (onPart k body).Keeps c := by
  unfold onPart
  split
  · exact h _
  · trivial

@[simp] theorem doneAtOnce_kept (s : State) (p : Option Bool) (f : State → State × Nat × Bytes) (h : ∀ a, (f a).1.kept = a.kept) :
    (doneAtOnce s p f).Keeps s.kept := by
  unfold doneAtOnce
  exact ⟨rfl, fun a id => by simp [h a]⟩

@[simp] theorem State.zeroStash_kept (s : State) (lo : Nat) (hi : Nat) :
    (State.zeroStash s lo hi).kept = s.kept := by
  unfold State.zeroStash; simp

@[simp] theorem State.unload_kept (s : State) (p : Bool) :
    (State.unload s p).kept = s.kept := by
  unfold State.unload; simp

@[simp] theorem State.resetWindows_kept (s : State) (fields : Nat) :
    (State.resetWindows s fields).kept = s.kept := by
  unfold State.resetWindows; simp

@[simp] theorem State.dropStaged_kept (s : State) (p : Bool) :
    (State.dropStaged s p).kept = s.kept := by
  unfold State.dropStaged; simp

@[simp] theorem State.resetPart_kept (s : State) (p : Bool) :
    (State.resetPart s p).kept = s.kept := by
  unfold State.resetPart; simp

@[simp] theorem State.zeroFields_kept (s : State) (fields : Nat) :
    (State.zeroFields s fields).kept = s.kept := by
  unfold State.zeroFields; simp

@[simp] theorem State.zeroSlots_kept (s : State) (fields : Nat) :
    (State.zeroSlots s fields).kept = s.kept := by
  unfold State.zeroSlots; simp

@[simp] theorem State.recallAway_kept (s : State) (p : Bool) :
    (State.recallAway s p).kept = s.kept := by
  unfold State.recallAway; simp

@[simp] theorem State.fencePartition_kept (s : State) (p : Bool) :
    (State.fencePartition s p).kept = s.kept := by
  unfold State.fencePartition; simp

@[simp] theorem State.fencePartAll_kept (s : State) :
    (State.fencePartAll s).kept = s.kept := by
  unfold State.fencePartAll; simp

@[simp] theorem State.releaseHost_kept (s : State) (p : Bool) :
    (State.releaseHost s p).kept = s.kept := by
  unfold State.releaseHost; simp

@[simp] theorem State.setStorage_kept (s : State) (p up : Bool) :
    (State.setStorage s p up).kept = s.kept := by
  unfold State.setStorage; simp

@[simp] theorem State.raiseConns_kept (s : State) :
    (State.raiseConns s).kept = s.kept := by
  unfold State.raiseConns; simp

@[simp] theorem State.tryTrain_kept (s : State) :
    (State.tryTrain s).kept = s.kept := by
  unfold State.tryTrain; simp

end Sys2Proof.Machine
end

