-- ==== Sys2Proof/Laws/KeptManage.lean ====
section
/-! SUPPORT. The operations of Machine/Manage.lean leave the fuses and the queue alone. -/

set_option Elab.async false

namespace Sys2Proof.Machine

@[simp] theorem execIdentify_kept (k : Packet) (s : State) :
    Machine.Keeps s.kept (execIdentify k s) := by
  unfold execIdentify; refine runPacket_kept _ _ _ _ _ fun s => ?_; simp

@[simp] theorem execPartState_kept (k : Packet) (s : State) :
    Machine.Keeps s.kept (execPartState k s) := by
  unfold execPartState; refine runPacket_kept _ _ _ _ _ fun s => ?_; simp

@[simp] theorem execTestResults_kept (k : Packet) (s : State) :
    Machine.Keeps s.kept (execTestResults k s) := by
  unfold execTestResults; refine runPacket_kept _ _ _ _ _ fun s => ?_; simp

@[simp] theorem execPowerLimit_kept (k : Packet) (s : State) :
    Machine.Keeps s.kept (execPowerLimit k s) := by
  unfold execPowerLimit; refine runPacket_kept _ _ _ _ _ fun s => ?_; dsimp only; repeat' (first | (simp; done) | split)

@[simp] theorem execResetPartition_kept (k : Packet) (s : State) :
    Machine.Keeps s.kept (execResetPartition k s) := by
  unfold execResetPartition
  refine runPacket_kept _ _ _ _ _ fun s => onPart_kept _ _ _ fun p => ?_
  dsimp only
  split
  · trivial
  · exact And.intro rfl fun a id => by simp

@[simp] theorem execClearRetained_kept (k : Packet) (s : State) :
    Machine.Keeps s.kept (execClearRetained k s) := by
  unfold execClearRetained; refine runPacket_kept _ _ _ _ _ fun s => ?_; split <;> simp

@[simp] theorem State.assign_kept (s : State) (p : Bool) (new : Nat) :
    (State.assign s p new).kept = s.kept := by
  unfold State.assign; simp

@[simp] theorem execAssignPartitions_kept (k : Packet) (s : State) :
    Machine.Keeps s.kept (execAssignPartitions k s) := by
  unfold execAssignPartitions; refine runPacket_kept _ _ _ _ _ fun s => ?_; dsimp only; repeat' (first | (simp; done) | split)

@[simp] theorem State.eraseNotice_kept (s : State) (p : Bool) :
    (State.eraseNotice s p).kept = s.kept := by
  unfold State.eraseNotice; split <;> simp

@[simp] theorem State.beginErase_kept (s : State) (p : Bool) (id : Nat) :
    (State.beginErase s p id).kept = s.kept := by
  unfold State.beginErase; simp

@[simp] theorem execEraserPass_kept (k : Packet) (s : State) :
    Machine.Keeps s.kept (execEraserPass k s) := by
  unfold execEraserPass
  refine runPacket_kept _ _ _ _ _ fun s => onPart_kept _ _ _ fun p => ?_
  split
  · trivial
  · exact And.intro rfl fun a id => by simp

@[simp] theorem State.clearHole_kept (s : State) (g : Nat) :
    (State.clearHole s g).kept = s.kept := by
  unfold State.clearHole; simp

@[simp] theorem State.zeroScope_kept (s : State) (p : Bool) (c : Scope) :
    (State.zeroScope s p c).kept = s.kept := by
  unfold State.zeroScope; simp

@[simp] theorem State.endErase_kept (s : State) (p : Bool) :
    (State.endErase s p).kept = s.kept := by
  unfold State.endErase; simp

@[simp] theorem State.eraseBad_kept (s : State) (p : Bool) (bad : Nat × Nat × BitVec 64) :
    (State.eraseBad s p bad).kept = s.kept := by
  unfold State.eraseBad; simp

@[simp] theorem execEraserPassComplete_kept (p : Bool) (badLine : Option (Nat × Nat × BitVec 64)) (s : State) :
    Machine.Keeps s.kept (execEraserPassComplete p badLine s) := by
  unfold execEraserPassComplete; dsimp only; repeat' (first | (simp; done) | split)

@[simp] theorem execLoadCampusPlan_kept (k : Packet) (s : State) :
    Machine.Keeps s.kept (execLoadCampusPlan k s) := by
  unfold execLoadCampusPlan; refine runPacket_kept _ _ _ _ _ fun s => ?_; dsimp only; repeat' (first | (simp; done) | split)

@[simp] theorem execRollCall_kept (k : Packet) (s : State) :
    Machine.Keeps s.kept (execRollCall k s) := by
  unfold execRollCall; refine runPacket_kept _ _ _ _ _ fun s => ?_; dsimp only; repeat' (first | (simp; done) | split)

@[simp] theorem execShutdown_kept (k : Packet) (s : State) :
    Machine.Keeps s.kept (execShutdown k s) := by
  unfold execShutdown; refine runPacket_kept _ _ _ _ _ fun s => ?_; split <;> simp

end Sys2Proof.Machine
end

