-- ==== Sys2Proof/Laws/KeptLesson.lean ====
section
/-! SUPPORT. The operations of Machine/Lesson.lean leave the fuses and the queue alone. -/

set_option Elab.async false

namespace Sys2Proof.Machine

@[simp] theorem State.loadClasses_kept (s : State) (p : Bool) (l : Lesson) :
    (State.loadClasses s p l).kept = s.kept := by
  unfold State.loadClasses; simp

@[simp] theorem State.loadTilePlan_kept (s : State) (l : Lesson) (e : TilePlan) :
    (State.loadTilePlan s l e).kept = s.kept := by
  unfold State.loadTilePlan; split <;> simp

@[simp] theorem State.loadRegion_kept (s : State) (l : Lesson) (e : RegionEnt) :
    (State.loadRegion s l e).kept = s.kept := by
  unfold State.loadRegion; split <;> simp

@[simp] theorem State.loadPage_kept (s : State) (p : Bool) (e : Nat × Bool) :
    (State.loadPage s p e).kept = s.kept := by
  unfold State.loadPage; split <;> simp

@[simp] theorem State.loadContents_kept (s : State) (p : Bool) (l : Lesson) :
    (State.loadContents s p l).kept = s.kept := by
  unfold State.loadContents; simp

@[simp] theorem State.clearRegions_kept (s : State) (p : Bool) :
    (State.clearRegions s p).kept = s.kept := by
  unfold State.clearRegions; simp

@[simp] theorem State.applyLesson_kept (s : State) (p : Bool) (l : Lesson) :
    (State.applyLesson s p l).kept = s.kept := by
  unfold State.applyLesson; simp

@[simp] theorem execLessonLoad_kept (k : Packet) (s : State) :
    Machine.Keeps s.kept (execLessonLoad k s) := by
  unfold execLessonLoad; refine runPacket_kept _ _ _ _ _ fun s => ?_; dsimp only; repeat' (first | (simp; done) | split)

@[simp] theorem execLessonLoadComplete_kept (p : Bool) (s : State) :
    Machine.Keeps s.kept (execLessonLoadComplete p s) := by
  unfold execLessonLoadComplete; dsimp only; repeat' (first | (simp; done) | split)

@[simp] theorem State.startLesson_kept (s : State) (p : Bool) (l : Lesson) (s0 : BitVec 64) :
    (State.startLesson s p l s0).kept = s.kept := by
  unfold State.startLesson; simp

@[simp] theorem rejected_kept (s : State) (code : Nat) : (rejected s code).Keeps s.kept := rfl

@[simp] theorem execLessonStart_kept (k : Packet) (s : State) :
    Machine.Keeps s.kept (execLessonStart k s) := by
  unfold execLessonStart; refine runPacket_kept _ _ _ _ _ fun s => ?_; dsimp only; repeat' (first | (simp; done) | split)

@[simp] theorem execLessonHalt_kept (k : Packet) (s : State) :
    Machine.Keeps s.kept (execLessonHalt k s) := by
  unfold execLessonHalt; refine runPacket_kept _ _ _ _ _ fun s => ?_; dsimp only; repeat' (first | (simp; done) | split)

@[simp] theorem execLessonUnload_kept (k : Packet) (s : State) :
    Machine.Keeps s.kept (execLessonUnload k s) := by
  unfold execLessonUnload; refine runPacket_kept _ _ _ _ _ fun s => ?_; dsimp only; repeat' (first | (simp; done) | split)

@[simp] theorem execSetScalar_kept (k : Packet) (s : State) :
    Machine.Keeps s.kept (execSetScalar k s) := by
  unfold execSetScalar; refine runPacket_kept _ _ _ _ _ fun s => ?_; dsimp only; repeat' (first | (simp; done) | split)

end Sys2Proof.Machine
end

