-- ==== Sys2Proof/Laws/KeptShard.lean ====
section
/-! SUPPORT. The operations of Machine/Shard.lean leave the fuses and the queue alone. -/

set_option Elab.async false

namespace Sys2Proof.Machine

@[simp] theorem State.permuteRead_kept (s : State) (p : Bool) (l : Lesson) (e : Permute) :
    (State.permuteRead s p l e).2.kept = s.kept := by
  unfold State.permuteRead; dsimp only; repeat' (first | (simp; done) | split)

@[simp] theorem State.permuteWrite_kept (s : State) (p : Bool) (l : Lesson) (mem : Nat) (row : Nat) (col : Nat) (a : Nat) (b : Bytes) :
    (State.permuteWrite s p l mem row col a b).kept = s.kept := by
  unfold State.permuteWrite; repeat' (first | (simp [*]; done) | split | intro _ | (refine (foldl_kept _ _ _ ?_).trans ?_) | dsimp only)

@[simp] theorem State.permuteSend_kept (s : State) (p : Bool) (port n seq : Nat) (b : Bytes) :
    (s.permuteSend p port n seq b).kept = s.kept := by
  induction n generalizing s seq b with
  | zero => rfl
  | succ n ih =>
    unfold State.permuteSend
    dsimp only
    rw [ih]
    simp

@[simp] theorem State.permuteRun_kept (s : State) (p : Bool) (l : Lesson) (es : List Permute) (seqs : Nat → Nat) :
    (s.permuteRun p l es seqs).kept = s.kept := by
  induction es generalizing s seqs with
  | nil => rfl
  | cons e es ih =>
    unfold State.permuteRun
    dsimp only
    repeat' (first | exact ih _ _ | (rw [ih]; simp; done) | split)

@[simp] theorem execReshard_kept (k : Packet) (s : State) :
    Machine.Keeps s.kept (execReshard k s) := by
  unfold execReshard; refine runPacket_kept _ _ _ _ _ fun s => ?_; dsimp only; repeat' (first | (simp; done) | split)

@[simp] theorem execReshardComplete_kept (p : Bool) (ok : Bool) (arrived : List Arrival) (s : State) :
    Machine.Keeps s.kept (execReshardComplete p ok arrived s) := by
  unfold execReshardComplete; dsimp only; repeat' (first | (simp; done) | split)

end Sys2Proof.Machine
end

