-- ==== Sys2Proof/Laws/KeptLoad.lean ====
section
/-! SUPPORT. The operations of Machine/Load.lean leave the fuses and the queue alone. -/

set_option Elab.async false

namespace Sys2Proof.Machine

@[simp] theorem State.endLoad_kept (s : State) (p : Bool) :
    (State.endLoad s p).kept = s.kept := by
  unfold State.endLoad; simp

@[simp] theorem State.keepRoots_kept (s : State) (p : Bool) (w : WLoad) (sets : List Nat) :
    (State.keepRoots s p w sets).kept = s.kept := by
  unfold State.keepRoots; simp

@[simp] theorem State.failLoad_kept (s : State) (p : Bool) (l : Lesson) (w : WLoad) (status : Nat) (entry : Nat) (set : Nat) (side : Bool) (mismatch : Bool) (sets : List Nat) :
    (State.failLoad s p l w status entry set side mismatch sets).kept = s.kept := by
  unfold State.failLoad; simp

@[simp] theorem State.breakLoad_kept (s : State) (p : Bool) (status : Nat) (c : Option Nat) :
    (State.breakLoad s p status c).kept = s.kept := by
  unfold State.breakLoad; split <;> simp

@[simp] theorem State.beginLoad_kept (s : State) (p : Bool) (l : Lesson) (w : WLoad) :
    (State.beginLoad s p l w).kept = s.kept := by
  unfold State.beginLoad; dsimp only; split <;> simp

@[simp] theorem execWeightLoad_kept (k : Packet) (s : State) :
    Machine.Keeps s.kept (execWeightLoad k s) := by
  unfold execWeightLoad; refine runPacket_kept _ _ _ _ _ fun s => ?_; dsimp only; repeat' (first | (simp; done) | split)

@[simp] theorem State.connMiss_kept (s : State) (conn : Nat) :
    (State.connMiss s conn).kept = s.kept := by
  unfold State.connMiss; simp

@[simp] theorem State.loadLeaf_kept (s : State) (p : Bool) (l : Lesson) (w : WLoad) (entry : Nat) (leaf : Nat) (data : Bytes) :
    (State.loadLeaf s p l w entry leaf data).kept = s.kept := by
  unfold State.loadLeaf; dsimp only; repeat' (first | (simp; done) | split)

@[simp] theorem State.fixLeaf_kept (s : State) (p : Bool) (l : Lesson) (w : WLoad) (entry : Nat) (leaf : Nat) (data : Bytes) :
    (State.fixLeaf s p l w entry leaf data).kept = s.kept := by
  unfold State.fixLeaf; dsimp only; repeat' (first | (simp; done) | split)

@[simp] theorem execRdmaReadResponse_kept (p : Bool) (entry : Nat) (leaf : Nat) (data : Bytes) (s : State) :
    Machine.Keeps s.kept (execRdmaReadResponse p entry leaf data s) := by
  unfold execRdmaReadResponse; dsimp only; repeat' (first | (simp; done) | split)

@[simp] theorem execWeightLoadComplete_kept (p : Bool) (nodes : List Bytes) (s : State) :
    Machine.Keeps s.kept (execWeightLoadComplete p nodes s) := by
  unfold execWeightLoadComplete; dsimp only; repeat' (first | (simp; done) | split)

@[simp] theorem execEditionSwitch_kept (k : Packet) (s : State) :
    Machine.Keeps s.kept (execEditionSwitch k s) := by
  unfold execEditionSwitch; refine runPacket_kept _ _ _ _ _ fun s => ?_; dsimp only; repeat' (first | (simp; done) | split)

@[simp] theorem execEditionStatus_kept (k : Packet) (s : State) :
    Machine.Keeps s.kept (execEditionStatus k s) := by
  unfold execEditionStatus; refine runPacket_kept _ _ _ _ _ fun s => ?_; simp

@[simp] theorem State.copyRegion_kept (s : State) (p : Bool) (l : Lesson) (t : Nat) (n : Nat) :
    (State.copyRegion s p l t n).kept = s.kept := by
  unfold State.copyRegion; simp

@[simp] theorem State.sealByEngine_kept (s : State) (p : Bool) (t : Nat) (n : Nat) :
    (State.sealByEngine s p t n).kept = s.kept := by
  unfold State.sealByEngine; simp

@[simp] theorem execWaveRegionCopyComplete_kept (p : Bool) (tile : Nat) (region : Nat) (ok : Bool) (s : State) :
    Machine.Keeps s.kept (execWaveRegionCopyComplete p tile region ok s) := by
  unfold execWaveRegionCopyComplete; dsimp only; repeat' (first | (simp; done) | split)

end Sys2Proof.Machine
end

