-- ==== Sys2Proof/Laws/KeptControl.lean ====
section
/-! SUPPORT. The operations of Machine/Control.lean leave the fuses and the queue alone. -/

set_option Elab.async false

namespace Sys2Proof.Machine

@[simp] theorem execMgmtRecall_kept (k : Packet) (s : State) :
    Machine.Keeps s.kept (execMgmtRecall k s) := by
  unfold execMgmtRecall; refine runPacket_kept _ _ _ _ _ fun s => ?_; dsimp only; repeat' (first | (simp; done) | split)

@[simp] theorem execResume_kept (k : Packet) (s : State) :
    Machine.Keeps s.kept (execResume k s) := by
  unfold execResume; refine runPacket_kept _ _ _ _ _ fun s => ?_; repeat' (first | (simp [*]; done) | split | intro _ | (refine (foldl_kept _ _ _ ?_).trans ?_) | dsimp only)

@[simp] theorem State.takeSeat_kept (s : State) (p : Bool) (n : Nat) (image : Bytes) (data : Bytes) (kp : Fuses × List Instr) (hk : s.kept = kp) :
    Held kp (State.takeSeat s p n image data) := by
  subst hk; unfold State.takeSeat; split <;> simp

@[simp] theorem execSubstitute_kept (k : Packet) (s : State) : Machine.Keeps s.kept (execSubstitute k s) := by
  unfold execSubstitute
  refine runPacket_kept _ _ _ _ _ fun s => ?_
  dsimp only
  split
  · trivial
  · split
    · trivial
    · split
      · trivial
      · refine doneAtOnce_kept _ _ _ fun a => ?_
        split
        · rfl
        · split
          · next h => exact State.takeSeat_kept _ _ _ _ _ _ rfl _ h
          · rfl

@[simp] theorem execPreempt_kept (k : Packet) (s : State) :
    Machine.Keeps s.kept (execPreempt k s) := by
  unfold execPreempt
  refine runPacket_kept _ _ _ _ _ fun s => onPart_kept _ _ _ fun p => ?_
  dsimp only
  split
  · trivial
  · exact And.intro rfl fun a id => by simp

@[simp] theorem State.writeSlots_kept (s : State) (p : Bool) :
    (State.writeSlots s p).kept = s.kept := by
  unfold State.writeSlots; simp

@[simp] theorem State.readSlots_kept (s : State) (p : Bool) :
    (State.readSlots s p).2.kept = s.kept := by
  unfold State.readSlots; simp

@[simp] theorem State.readMarked_kept (s : State) (p : Bool) :
    (State.readMarked s p).kept = s.kept := by
  unfold State.readMarked; simp

@[simp] theorem execPreemptSaveComplete_kept (p : Bool) (s : State) :
    Machine.Keeps s.kept (execPreemptSaveComplete p s) := by
  unfold execPreemptSaveComplete; dsimp only; repeat' (first | (simp; done) | split)

@[simp] theorem execResumePartition_kept (k : Packet) (s : State) :
    Machine.Keeps s.kept (execResumePartition k s) := by
  unfold execResumePartition
  refine runPacket_kept _ _ _ _ _ fun s => onPart_kept _ _ _ fun p => ?_
  split
  · trivial
  · exact And.intro rfl fun a id => by simp

@[simp] theorem State.putSaved_kept (s : State) (p : Bool) (v : Saved) :
    (State.putSaved s p v).kept = s.kept := by
  unfold State.putSaved; simp

@[simp] theorem State.fullCredits_kept (s : State) (p : Bool) :
    (State.fullCredits s p).kept = s.kept := by
  unfold State.fullCredits; simp

@[simp] theorem State.goOn_kept (s : State) (p : Bool) (l : Lesson) :
    (State.goOn s p l).kept = s.kept := by
  unfold State.goOn; split <;> simp

@[simp] theorem execPartitionRestoreComplete_kept (p : Bool) (bad : Option Nat) (s0 : State) :
    Machine.Keeps s0.kept (execPartitionRestoreComplete p bad s0) := by
  unfold execPartitionRestoreComplete; dsimp only; repeat' (first | (simp; done) | split)

end Sys2Proof.Machine
end

