-- ==== Sys2Proof/Laws/KeptFirmware.lean ====
section
/-! SUPPORT. The operations of Machine/Firmware.lean leave the fuses and the queue alone. -/

set_option Elab.async false

namespace Sys2Proof.Machine

@[simp] theorem State.endWrite_kept (s : State) (id : Nat) (outcome : Nat) (n : Nat) :
    (State.endWrite s id outcome n).kept = s.kept := by
  unfold State.endWrite; simp

@[simp] theorem execFwWrite_kept (k : Packet) (s : State) :
    Machine.Keeps s.kept (execFwWrite k s) := by
  unfold execFwWrite
  refine runPacket_kept _ _ _ _ _ fun s => ?_
  by_cases h1 : pktArg k 20 1 / 2 ≠ 0
  · rw [if_pos h1]; trivial
  rw [if_neg h1]
  split
  · trivial
  split
  · trivial
  split
  · trivial
  split
  · trivial
  split
  · trivial
  split
  · trivial
  refine And.intro rfl fun a id => ?_
  dsimp only
  have ha : ((a.setRegFld (.fwSlot !a.runSlot) 31 29 0).setPhase 1).kept = a.kept := by simp
  generalize (a.setRegFld (.fwSlot !a.runSlot) 31 29 0).setPhase 1 = a1 at ha ⊢
  split
  · simp [ha]
  · split
    · simp [ha]
    · split
      · simp [ha]
      · split <;> simp [ha]

@[simp] theorem execFwWriteComplete_kept (readback : Bool) (s : State) :
    Machine.Keeps s.kept (execFwWriteComplete readback s) := by
  unfold execFwWriteComplete; dsimp only; repeat' (first | (simp; done) | split)

@[simp] theorem State.beginPause_kept (s : State) (a : Activation) :
    (State.beginPause s a).kept = s.kept := by
  unfold State.beginPause; simp

@[simp] theorem execFwActivate_kept (k : Packet) (s : State) :
    Machine.Keeps s.kept (execFwActivate k s) := by
  unfold execFwActivate; refine runPacket_kept _ _ _ _ _ fun s => ?_; split <;> simp

@[simp] theorem State.restartPart_kept (s : State) (p : Bool) (changed : Bool) :
    (State.restartPart s p changed).kept = s.kept := by
  unfold State.restartPart; dsimp only; repeat' (first | (simp; done) | split)

@[simp] theorem State.withdraw_kept (s : State) (a : Activation) (status : Nat) :
    (State.withdraw s a status).kept = s.kept := by
  unfold State.withdraw; simp

@[simp] theorem execFwActivateWithdraw_kept (s : State) :
    Machine.Keeps s.kept (execFwActivateWithdraw s) := by
  unfold execFwActivateWithdraw; repeat' (first | (simp [*]; done) | split | intro _ | (refine (foldl_kept _ _ _ ?_).trans ?_) | dsimp only)

@[simp] theorem execFwPauseComplete_kept (s : State) :
    Machine.Keeps s.kept (execFwPauseComplete s) := by
  unfold execFwPauseComplete; dsimp only; repeat' (first | (simp; done) | split)

@[simp] theorem execTrialTimeout_kept (s : State) :
    Machine.Keeps s.kept (execTrialTimeout s) := by
  unfold execTrialTimeout; dsimp only; repeat' (first | (simp; done) | split)

@[simp] theorem State.restartNow_kept (s : State) :
    (State.restartNow s).kept = s.kept := by
  unfold State.restartNow; dsimp only; repeat' (first | (simp; done) | split)

@[simp] theorem execWatchdogLapse_kept (pc : BitVec 64) (count : BitVec 64) (s : State) :
    Machine.Keeps s.kept (execWatchdogLapse pc count s) := by
  unfold execWatchdogLapse; dsimp only; repeat' (first | (simp; done) | split)

@[simp] theorem execFwStatus_kept (k : Packet) (s : State) :
    Machine.Keeps s.kept (execFwStatus k s) := by
  unfold execFwStatus; refine runPacket_kept _ _ _ _ _ fun s => ?_; simp

end Sys2Proof.Machine
end

