-- ==== Sys2Proof/Laws/KeptTelemetry.lean ====
section
/-! SUPPORT. The operations of Machine/Telemetry.lean leave the fuses and the queue alone. -/

set_option Elab.async false

namespace Sys2Proof.Machine

@[simp] theorem State.setRing_kept (s : State) (p : Bool) (n : Nat) (r : Ring) :
    (State.setRing s p n r).kept = s.kept := by
  unfold State.setRing; split <;> simp

@[simp] theorem execReadRing_kept (k : Packet) (s : State) :
    Machine.Keeps s.kept (execReadRing k s) := by
  unfold execReadRing; refine runPacket_kept _ _ _ _ _ fun s => ?_; dsimp only; repeat' (first | (simp; done) | split)

@[simp] theorem execReadSensors_kept (k : Packet) (s : State) :
    Machine.Keeps s.kept (execReadSensors k s) := by
  unfold execReadSensors; refine runPacket_kept _ _ _ _ _ fun s => ?_; split <;> simp

@[simp] theorem State.telemetry_kept (s : State) (p : Bool) (power : Nat) :
    (State.telemetry s p power).kept = s.kept := by
  unfold State.telemetry; simp

@[simp] theorem execHostTelemetryWindow_kept (power0 : Nat) (power1 : Nat) (s : State) :
    Machine.Keeps s.kept (execHostTelemetryWindow power0 power1 s) := by
  unfold execHostTelemetryWindow; simp

@[simp] theorem execPowerInputWindow_kept (vin : Nat) (pin : Nat) (s : State) :
    Machine.Keeps s.kept (execPowerInputWindow vin pin s) := by
  unfold execPowerInputWindow; simp

@[simp] theorem execSensorReport_kept (place : Nat) (index : Nat) (reading : Nat) (s : State) :
    Machine.Keeps s.kept (execSensorReport place index reading s) := by
  unfold execSensorReport; dsimp only; repeat' (first | (simp; done) | split)

end Sys2Proof.Machine
end

