-- ==== Sys2Proof/Laws/KeptCard.lean ====
section
/-! SUPPORT. The operations of Machine/Card.lean leave the fuses and the queue alone. -/

set_option Elab.async false

namespace Sys2Proof.Machine

@[simp] theorem execDebugChallenge_kept (k : Packet) (s : State) :
    Machine.Keeps s.kept (execDebugChallenge k s) := by
  unfold execDebugChallenge; refine runPacket_kept _ _ _ _ _ fun s => ?_; simp

@[simp] theorem State.unlock_kept (s : State) (scope : Nat) (s2 : Bytes) :
    (State.unlock s scope s2).1.kept = s.kept := by
  unfold State.unlock; split <;> simp

@[simp] theorem execDebugUnlock_kept (k : Packet) (s : State) :
    Machine.Keeps s.kept (execDebugUnlock k s) := by
  unfold execDebugUnlock; refine runPacket_kept _ _ _ _ _ fun s => ?_; dsimp only; repeat' (first | (simp; done) | split)

theorem spdmRun_kept (who : Issuer) (req : Bytes) (version code len : Nat) (f : State → State × Bytes) (s : State)
    (h : ∀ a, (f a).1.kept = a.kept) : Machine.Keeps s.kept (spdmRun who req version code len f s) := by
  unfold spdmRun
  dsimp only
  repeat' (first | (simp [h]; done) | split)

@[simp] theorem execGetVersion_kept (who : Issuer) (req : Bytes) (s : State) :
    Machine.Keeps s.kept (execGetVersion who req s) := by
  unfold execGetVersion; refine spdmRun_kept _ _ _ _ _ _ _ fun a => ?_; simp

@[simp] theorem execGetCapabilities_kept (who : Issuer) (req : Bytes) (s : State) :
    Machine.Keeps s.kept (execGetCapabilities who req s) := by
  unfold execGetCapabilities; refine spdmRun_kept _ _ _ _ _ _ _ fun a => ?_; simp

@[simp] theorem execNegotiateAlgorithms_kept (who : Issuer) (req : Bytes) (s : State) :
    Machine.Keeps s.kept (execNegotiateAlgorithms who req s) := by
  unfold execNegotiateAlgorithms; refine spdmRun_kept _ _ _ _ _ _ _ fun a => ?_; simp

@[simp] theorem execGetDigests_kept (who : Issuer) (req : Bytes) (s : State) :
    Machine.Keeps s.kept (execGetDigests who req s) := by
  unfold execGetDigests; refine spdmRun_kept _ _ _ _ _ _ _ fun a => ?_; simp

@[simp] theorem execGetCertificate_kept (who : Issuer) (req : Bytes) (s : State) :
    Machine.Keeps s.kept (execGetCertificate who req s) := by
  unfold execGetCertificate; refine spdmRun_kept _ _ _ _ _ _ _ fun a => ?_; simp

@[simp] theorem State.sign_kept (s : State) (req : Bytes) (body : Bytes) :
    (State.sign s req body).1.kept = s.kept := by
  unfold State.sign; simp

@[simp] theorem State.freshNonce_kept (s : State) :
    (State.freshNonce s).1.kept = s.kept := by
  unfold State.freshNonce; simp

@[simp] theorem execChallenge_kept (who : Issuer) (req : Bytes) (s : State) :
    Machine.Keeps s.kept (execChallenge who req s) := by
  unfold execChallenge; refine spdmRun_kept _ _ _ _ _ _ _ fun a => ?_; simp

@[simp] theorem execGetMeasurements_kept (who : Issuer) (req : Bytes) (s : State) :
    Machine.Keeps s.kept (execGetMeasurements who req s) := by
  unfold execGetMeasurements; refine spdmRun_kept _ _ _ _ _ _ _ fun a => ?_; simp

@[simp] theorem execReportCard_kept (k : Packet) (s : State) :
    Machine.Keeps s.kept (execReportCard k s) := by
  unfold execReportCard; refine runPacket_kept _ _ _ _ _ fun s => ?_; split <;> simp

end Sys2Proof.Machine
end

