-- ==== Sys2Proof/Laws/KeptStart.lean ====
section
/-! SUPPORT. The operations of Machine/Start.lean leave the fuses and the queue alone. -/

set_option Elab.async false

namespace Sys2Proof.Machine

@[simp] theorem State.volatile_kept (s : State) :
    (State.volatile s).kept = s.kept := by
  unfold State.volatile; simp

@[simp] theorem State.beginStart_kept (s : State) (kind : Nat) (phase : Nat) :
    (State.beginStart s kind phase).kept = s.kept := by
  unfold State.beginStart; simp

@[simp] theorem State.sampleStraps_kept (s : State) (seat : BitVec 5) (mode : BitVec 2) :
    (State.sampleStraps s seat mode).kept = s.kept := by
  unfold State.sampleStraps; simp

@[simp] theorem execPowerOn_kept (s : State) :
    Machine.Keeps s.kept (execPowerOn s) := by
  unfold execPowerOn; simp

@[simp] theorem execRailFault_kept (s : State) :
    Machine.Keeps s.kept (execRailFault s) := by
  unfold execRailFault; simp

@[simp] theorem execInputFault_kept (s : State) :
    Machine.Keeps s.kept (execInputFault s) := by
  unfold execInputFault; simp

@[simp] theorem execInputUndervoltage_kept (s : State) :
    Machine.Keeps s.kept (execInputUndervoltage s) := by
  unfold execInputUndervoltage; simp

@[simp] theorem State.fenceStage_kept (s : State) (k : Nat) (syn : Bytes) :
    (State.fenceStage s k syn).kept = s.kept := by
  unfold State.fenceStage; simp

@[simp] theorem execPowerStageFault_kept (stage : Nat) (volts : BitVec 64) (amps : BitVec 64) (s : State) :
    Machine.Keeps s.kept (execPowerStageFault stage volts amps s) := by
  unfold execPowerStageFault; dsimp only; repeat' (first | (simp; done) | split)

@[simp] theorem State.itemRec_kept (s : State) (item : Nat) (unit : BitVec 24) (kind : Nat) :
    (State.itemRec s item unit kind).kept = s.kept := by
  unfold State.itemRec; simp

@[simp] theorem State.failItem_kept (s : State) (item : Nat) (unit : BitVec 24) (mgmt : Bool) (kind : Nat) :
    (State.failItem s item unit mgmt kind).kept = s.kept := by
  unfold State.failItem; simp

@[simp] theorem State.powerItem_kept (s : State) (bad : Nat) :
    (State.powerItem s bad).kept = s.kept := by
  unfold State.powerItem; simp

@[simp] theorem execRailsInRegulation_kept (bad : BitVec 8) (s : State) :
    Machine.Keeps s.kept (execRailsInRegulation bad s) := by
  unfold execRailsInRegulation; split <;> simp

@[simp] theorem State.factory_kept (s : State) :
    (State.factory s).kept = s.kept := by
  unfold State.factory; simp

@[simp] theorem State.restore_kept (s : State) :
    (State.restore s).kept = s.kept := by
  unfold State.restore; dsimp only; repeat' (first | (simp; done) | split)

@[simp] theorem State.takePermanent_kept (s : State) :
    (State.takePermanent s).kept = s.kept := by
  unfold State.takePermanent; simp

@[simp] theorem State.keepSeat_kept (s : State) :
    (State.keepSeat s).kept = s.kept := by
  unfold State.keepSeat; simp

@[simp] theorem State.takeDusk_kept (s : State) :
    (State.takeDusk s).kept = s.kept := by
  unfold State.takeDusk; simp

@[simp] theorem State.loadFuses_kept (s : State) :
    (State.loadFuses s).kept = s.kept := by
  unfold State.loadFuses; simp

theorem State.bootSlot_kept (s : State) : Held s.kept s.bootSlot := by
  unfold State.bootSlot
  dsimp only
  split
  · simp
  · split <;> simp

@[simp] theorem State.openDebug_kept (s : State) :
    (State.openDebug s).kept = s.kept := by
  unfold State.openDebug; split <;> simp

@[simp] theorem State.takeRetained_kept (s : State) :
    (State.takeRetained s).kept = s.kept := by
  unfold State.takeRetained; simp

@[simp] theorem State.fenceStart_kept (s : State) :
    (State.fenceStart s).kept = s.kept := by
  unfold State.fenceStart; simp

@[simp] theorem State.boot_kept (s : State) (copyA copyB : Bool) : (s.boot copyA copyB).kept = s.kept := by
  unfold State.boot
  extract_lets ps s1 s2 s3 s4 pp
  have h1 : s1.kept = s.kept := by simp [s1]
  have h2 : s2.kept = s.kept := by
    simp only [s2]
    split
    · rw [State.powerItem_kept, h1]
    · exact h1
  clear_value s2
  have h3 : s3.kept = s.kept := by simp [s3, h2]
  clear_value s3
  split
  · exact h2
  · split
    · simp [s4, h3]
    · split
      · simp [h3]
      · next h => simp [State.bootSlot_kept s3 _ h, h3]

@[simp] theorem execPinReset_kept (seat : BitVec 5) (mode : BitVec 2) (s : State) :
    Machine.Keeps s.kept (execPinReset seat mode s) := by
  unfold execPinReset; simp

@[simp] theorem execResetRelease_kept (copyA : Bool) (copyB : Bool) (early : Bool) (s : State) :
    Machine.Keeps s.kept (execResetRelease copyA copyB early s) := by
  unfold execResetRelease; dsimp only; repeat' (first | (simp; done) | split)

@[simp] theorem execInternalResetRelease_kept (s : State) :
    Machine.Keeps s.kept (execInternalResetRelease s) := by
  unfold execInternalResetRelease; split <;> simp

@[simp] theorem State.beginPasses_kept (s : State) :
    (State.beginPasses s).kept = s.kept := by
  unfold State.beginPasses; simp

@[simp] theorem State.monitorsDone_kept (s : State) :
    (State.monitorsDone s).kept = s.kept := by
  unfold State.monitorsDone; dsimp only; repeat' (first | (simp; done) | split)

@[simp] theorem State.monitorEnds_kept (s : State) (m n : Nat) :
    (State.monitorEnds s m n).kept = s.kept := by
  unfold State.monitorEnds; dsimp only; repeat' (first | (simp; done) | split)

@[simp] theorem execMonitorReady_kept (m : Nat) (s : State) :
    Machine.Keeps s.kept (execMonitorReady m s) := by
  unfold execMonitorReady; repeat' (first | (simp [*]; done) | split | intro _ | (refine (foldl_kept _ _ _ ?_).trans ?_) | dsimp only)

@[simp] theorem execMonitorReadyTimeout_kept (m : Nat) (s : State) :
    Machine.Keeps s.kept (execMonitorReadyTimeout m s) := by
  unfold execMonitorReadyTimeout; dsimp only; repeat' (first | (simp; done) | split)

@[simp] theorem State.repairLanes_kept (s : State) (ls : List (Nat × Nat)) :
    (State.repairLanes s ls).kept = s.kept := by
  unfold State.repairLanes; repeat' (first | (simp [*]; done) | split | intro _ | (refine (foldl_kept _ _ _ ?_).trans ?_) | dsimp only)

@[simp] theorem State.excludeTiles_kept (s : State) (ts : List Nat) :
    (State.excludeTiles s ts).kept = s.kept := by
  unfold State.excludeTiles; simp

@[simp] theorem State.dawnFirst_kept (s : State) (os : List (BitVec 2)) (unit : BitVec 24) :
    (State.dawnFirst s os unit).kept = s.kept := by
  unfold State.dawnFirst; dsimp only; repeat' (first | (simp; done) | split)

@[simp] theorem State.portItems_kept (s : State) (lanes : List (Nat × Nat)) (tiles : List Nat) :
    (State.portItems s lanes tiles).kept = s.kept := by
  unfold State.portItems; simp

@[simp] theorem State.dawnSecond_kept (s : State) (os : List (BitVec 2)) (unit : BitVec 24) (lanes : List (Nat × Nat)) (tiles : List Nat) :
    (State.dawnSecond s os unit lanes tiles).kept = s.kept := by
  unfold State.dawnSecond; dsimp only; repeat' (first | (simp; done) | split)

@[simp] theorem execDawnTestComplete_kept (os : List (BitVec 2)) (unit : BitVec 24) (lanes : List (Nat × Nat)) (tiles : List Nat) (ms : Nat) (s : State) :
    Machine.Keeps s.kept (execDawnTestComplete os unit lanes tiles ms s) := by
  unfold execDawnTestComplete; dsimp only; repeat' (first | (simp; done) | split)

@[simp] theorem State.enterReset_kept (s : State) :
    (State.enterReset s).kept = s.kept := by
  unfold State.enterReset; simp

@[simp] theorem State.endShutdown_kept (s : State) (status : Nat) (res : Bytes) :
    (State.endShutdown s status res).kept = s.kept := by
  unfold State.endShutdown; simp

@[simp] theorem execDuskTestComplete_kept (os : List (BitVec 2)) (unit : BitVec 24) (lanes : List (Nat × Nat)) (tiles : List Nat) (s : State) :
    Machine.Keeps s.kept (execDuskTestComplete os unit lanes tiles s) := by
  unfold execDuskTestComplete; dsimp only; repeat' (first | (simp; done) | split)

end Sys2Proof.Machine
end

