-- ==== Sys2Proof/Laws/KeptService.lean ====
section
/-! SUPPORT. The operations of Machine/Service.lean leave the fuses and the queue alone. -/

set_option Elab.async false

namespace Sys2Proof.Machine

@[simp] theorem State.dropTest_kept (s : State) (t : Nat) :
    (State.dropTest s t).kept = s.kept := by
  unfold State.dropTest; simp

@[simp] theorem State.stopCmd_kept (s : State) (c : Outstanding) (status : Nat) :
    (State.stopCmd s c status).kept = s.kept := by
  unfold State.stopCmd; dsimp only; repeat' (first | (simp; done) | split)

@[simp] theorem execCommandTimeout_kept (id : Nat) (s : State) :
    Machine.Keeps s.kept (execCommandTimeout id s) := by
  unfold execCommandTimeout; split <;> simp

@[simp] theorem State.stopHostChans_kept (s : State) (p : Bool) :
    (State.stopHostChans s p).kept = s.kept := by
  unfold State.stopHostChans; repeat' (first | (simp [*]; done) | split | intro _ | (refine (foldl_kept _ _ _ ?_).trans ?_) | dsimp only)

@[simp] theorem execPerstAssert_kept (h : Bool) (s : State) :
    Machine.Keeps s.kept (execPerstAssert h s) := by
  unfold execPerstAssert; repeat' (first | (simp [*]; done) | split | intro _ | (refine (foldl_kept _ _ _ ?_).trans ?_) | dsimp only)

@[simp] theorem execPerstDeassert_kept (h : Bool) (s : State) :
    Machine.Keeps s.kept (execPerstDeassert h s) := by
  unfold execPerstDeassert; simp

@[simp] theorem State.setDeferred_kept (s : State) (d : List Nat) :
    (State.setDeferred s d).kept = s.kept := by
  unfold State.setDeferred; simp

@[simp] theorem State.beginTest_kept (s : State) (t : Nat) :
    (State.beginTest s t).kept = s.kept := by
  unfold State.beginTest; dsimp only; repeat' (first | (simp; done) | split)

@[simp] theorem execTileTestDue_kept (t : Nat) (s : State) :
    Machine.Keeps s.kept (execTileTestDue t s) := by
  unfold execTileTestDue; repeat' (first | (simp [*]; done) | split | intro _ | (refine (foldl_kept _ _ _ ?_).trans ?_) | dsimp only)

@[simp] theorem execTestTile_kept (k : Packet) (s : State) :
    Machine.Keeps s.kept (execTestTile k s) := by
  unfold execTestTile; refine runPacket_kept _ _ _ _ _ fun s => ?_; dsimp only; repeat' (first | (simp; done) | split)

@[simp] theorem execTileTestComplete_kept (t : Nat) (pass : Bool) (expected : BitVec 64) (seen : BitVec 64) (s : State) :
    Machine.Keeps s.kept (execTileTestComplete t pass expected seen s) := by
  unfold execTileTestComplete; dsimp only; repeat' (first | (simp; done) | split)

@[simp] theorem execTestOverdue_kept (t : Nat) (hours : Nat) (s : State) :
    Machine.Keeps s.kept (execTestOverdue t hours s) := by
  unfold execTestOverdue; dsimp only; repeat' (first | (simp; done) | split)

@[simp] theorem State.scrubWords_kept (s : State) (t : Nat) (shelf : Bool) (line : Nat) :
    (State.scrubWords s t shelf line).kept = s.kept := by
  unfold State.scrubWords; simp

@[simp] theorem execScrubLine_kept (t : Nat) (deskLine : Nat) (shelfLine : Nat) (s : State) :
    Machine.Keeps s.kept (execScrubLine t deskLine shelfLine s) := by
  unfold execScrubLine; dsimp only; repeat' (first | (simp; done) | split)

@[simp] theorem execStashScrub_kept (line : Nat) (s : State) :
    Machine.Keeps s.kept (execStashScrub line s) := by
  unfold execStashScrub; dsimp only; repeat' (first | (simp; done) | split)

@[simp] theorem State.connReply_kept (s : State) (conn : Nat) (status : Nat) :
    (State.connReply s conn status).kept = s.kept := by
  unfold State.connReply; simp

@[simp] theorem execStorageConnectionRecord_kept (body : Bytes) (s : State) :
    Machine.Keeps s.kept (execStorageConnectionRecord body s) := by
  unfold execStorageConnectionRecord; dsimp only; repeat' (first | (simp; done) | split)

@[simp] theorem execStorageConnectionFailure_kept (conn : Nat) (s : State) :
    Machine.Keeps s.kept (execStorageConnectionFailure conn s) := by
  unfold execStorageConnectionFailure; split <;> simp

@[simp] theorem execPtpSync_kept (time : BitVec 64) (s : State) :
    Machine.Keeps s.kept (execPtpSync time s) := by
  unfold execPtpSync; simp

@[simp] theorem execPps_kept (s : State) :
    Machine.Keeps s.kept (execPps s) := by
  unfold execPps; split <;> simp

@[simp] theorem execRefclkLoss_kept (s : State) :
    Machine.Keeps s.kept (execRefclkLoss s) := by
  unfold execRefclkLoss; simp

end Sys2Proof.Machine
end

