-- ==== Sys2Proof/Laws/KeptStep.lean ====
section
/-! SUPPORT. What a command can do to the fuses and to the queue of waiting commands, over the whole dispatch. -/

set_option Elab.async false

namespace Sys2Proof.Machine

/-- Every command but the two that burn fuses leaves the fuses and the waiting commands alone. -/
theorem exec_kept (i : Instr) (s : State) (hc : i ≠ .fwConfirm) (hk : ∀ k, i ≠ .ownerKeyBurn k) :
    Machine.Keeps s.kept (exec i s) := by
  cases i with
  | mxLdw a1 a2 => exact execMxLdw_kept _ _ _
  | mxLdwCrossRead a1 a2 => exact execMxLdwCrossRead_kept _ _ _
  | mxRun a1 a2 => exact execMxRun_kept _ _ _
  | crossReadRun a1 a2 => exact execCrossReadRun_kept _ _ _
  | tallyRun a1 a2 => exact execTallyRun_kept _ _ _
  | mxOut a1 a2 => exact execMxOut_kept _ _ _
  | mxSideStore a1 a2 => exact execMxSideStore_kept _ _ _
  | mxSideSend a1 a2 => exact execMxSideSend_kept _ _ _
  | mxSideFoldDesk a1 a2 => exact execMxSideFoldDesk_kept _ _ _
  | mxSideFoldStream a1 a2 => exact execMxSideFoldStream_kept _ _ _
  | mxPsend a1 a2 => exact execMxPsend_kept _ _ _
  | mxPadd a1 a2 => exact execMxPadd_kept _ _ _
  | add a1 a2 => exact execAdd_kept _ _ _
  | sub a1 a2 => exact execSub_kept _ _ _
  | mul a1 a2 => exact execMul_kept _ _ _
  | fma a1 a2 => exact execFma_kept _ _ _
  | fnma a1 a2 => exact execFnma_kept _ _ _
  | min a1 a2 => exact execMin_kept _ _ _
  | max a1 a2 => exact execMax_kept _ _ _
  | abs a1 a2 => exact execAbs_kept _ _ _
  | neg a1 a2 => exact execNeg_kept _ _ _
  | div a1 a2 => exact execDiv_kept _ _ _
  | eq a1 a2 => exact execEq_kept _ _ _
  | ne a1 a2 => exact execNe_kept _ _ _
  | lt a1 a2 => exact execLt_kept _ _ _
  | le a1 a2 => exact execLe_kept _ _ _
  | sel a1 a2 => exact execSel_kept _ _ _
  | iadd a1 a2 => exact execIadd_kept _ _ _
  | isub a1 a2 => exact execIsub_kept _ _ _
  | and a1 a2 => exact execAnd_kept _ _ _
  | or a1 a2 => exact execOr_kept _ _ _
  | xor a1 a2 => exact execXor_kept _ _ _
  | shl a1 a2 => exact execShl_kept _ _ _
  | shr a1 a2 => exact execShr_kept _ _ _
  | iota a1 a2 => exact execIota_kept _ _ _
  | fround a1 a2 => exact execFround_kept _ _ _
  | f2i a1 a2 => exact execF2i_kept _ _ _
  | i2f a1 a2 => exact execI2f_kept _ _ _
  | srnd a1 a2 => exact execSrnd_kept _ _ _
  | mxq a1 a2 => exact execMxq_kept _ _ _
  | exp a1 a2 => exact execExp_kept _ _ _
  | exp2 a1 a2 => exact execExp2_kept _ _ _
  | log a1 a2 => exact execLog_kept _ _ _
  | log2 a1 a2 => exact execLog2_kept _ _ _
  | rcp a1 a2 => exact execRcp_kept _ _ _
  | sqrt a1 a2 => exact execSqrt_kept _ _ _
  | rsqrt a1 a2 => exact execRsqrt_kept _ _ _
  | tanh a1 a2 => exact execTanh_kept _ _ _
  | sigm a1 a2 => exact execSigm_kept _ _ _
  | erf a1 a2 => exact execErf_kept _ _ _
  | sin a1 a2 => exact execSin_kept _ _ _
  | cos a1 a2 => exact execCos_kept _ _ _
  | mov a1 a2 => exact execMov_kept _ _ _
  | perm a1 a2 => exact execPerm_kept _ _ _
  | bcast a1 a2 => exact execBcast_kept _ _ _
  | sget a1 a2 => exact execSget_kept _ _ _
  | sput a1 a2 => exact execSput_kept _ _ _
  | emax a1 a2 => exact execEmax_kept _ _ _
  | emaxl a1 a2 => exact execEmaxl_kept _ _ _
  | gadd a1 a2 => exact execGadd_kept _ _ _
  | gsq a1 a2 => exact execGsq_kept _ _ _
  | gdot a1 a2 => exact execGdot_kept _ _ _
  | gfold a1 a2 => exact execGfold_kept _ _ _
  | grnd a1 a2 => exact execGrnd_kept _ _ _
  | gout a1 a2 => exact execGout_kept _ _ _
  | gin a1 a2 => exact execGin_kept _ _ _
  | fsum a1 a2 => exact execFsum_kept _ _ _
  | fsumsq a1 a2 => exact execFsumsq_kept _ _ _
  | fdot a1 a2 => exact execFdot_kept _ _ _
  | vxLdDesk a1 a2 => exact execVxLdDesk_kept _ _ _
  | vxLdStream a1 a2 => exact execVxLdStream_kept _ _ _
  | vxStDesk a1 a2 => exact execVxStDesk_kept _ _ _
  | vxStStream a1 a2 => exact execVxStStream_kept _ _ _
  | vxSideStore a1 a2 => exact execVxSideStore_kept _ _ _
  | vxSideSend a1 a2 => exact execVxSideSend_kept _ _ _
  | vxSideFoldDesk a1 a2 => exact execVxSideFoldDesk_kept _ _ _
  | vxSideFoldStream a1 a2 => exact execVxSideFoldStream_kept _ _ _
  | tadd a1 a2 => exact execTadd_kept _ _ _
  | tcvt a1 a2 => exact execTcvt_kept _ _ _
  | setvl a1 a2 a3 => exact execSetvl_kept _ _ _ _
  | simm a1 a2 a3 => exact execSimm_kept _ _ _ _
  | mmCopyToShelf a1 a2 => exact execMmCopyToShelf_kept _ _ _
  | mmCopyToDesk a1 a2 => exact execMmCopyToDesk_kept _ _ _
  | tfold a1 a2 => exact execTfold_kept _ _ _
  | mmSreqRead a1 a2 => exact execMmSreqRead_kept _ _ _
  | mmSreqWrite a1 a2 => exact execMmSreqWrite_kept _ _ _
  | mmWait a1 a2 => exact execMmWait_kept _ _ _
  | aput a1 a2 => exact execAput_kept _ _ _
  | aget a1 a2 => exact execAget_kept _ _ _
  | edTake a1 a2 => exact execEdTake_kept _ _ _
  | edTakeWait a1 a2 => exact execEdTakeWait_kept _ _ _
  | edDrop a1 a2 => exact execEdDrop_kept _ _ _
  | edOpen a1 a2 => exact execEdOpen_kept _ _ _
  | edSeal a1 a2 => exact execEdSeal_kept _ _ _
  | edSet a1 a2 => exact execEdSet_kept _ _ _
  | tsend a1 a2 => exact execTsend_kept _ _ _
  | trecv a1 a2 => exact execTrecv_kept _ _ _
  | stallResume a1 a2 => exact execStallResume_kept _ _ _
  | stashRequestComplete a1 => exact execStashRequestComplete_kept _ _
  | meshFlitArrival a1 a2 => exact execMeshFlitArrival_kept _ _ _
  | meshCreditReturn a1 a2 a3 => exact execMeshCreditReturn_kept _ _ _ _
  | bell a1 a2 a3 a4 a5 => exact execBell_kept _ _ _ _ _ _
  | holdoverQuantumEnd a1 => exact execHoldoverQuantumEnd_kept _ _
  | holdoverLimit a1 => exact execHoldoverLimit_kept _ _
  | recessStart a1 => exact execRecessStart_kept _ _
  | dataFrameReceived a1 a2 => exact execDataFrameReceived_kept _ _ _
  | creditFrameReceived a1 a2 => exact execCreditFrameReceived_kept _ _ _
  | markFrameReceived a1 a2 => exact execMarkFrameReceived_kept _ _ _
  | recallNotice a1 a2 => exact execRecallNotice_kept _ _ _
  | agreementTimeout a1 => exact execAgreementTimeout_kept _ _
  | rebuildComplete a1 => exact execRebuildComplete_kept _ _
  | hello a1 a2 => exact execHello_kept _ _ _
  | verdict a1 a2 => exact execVerdict_kept _ _ _
  | pigeonholeMessageFrame a1 a2 => exact execPigeonholeMessageFrame_kept _ _ _
  | pigeonholeReplyFrame a1 a2 => exact execPigeonholeReplyFrame_kept _ _ _
  | peerReplyTimeout a1 => exact execPeerReplyTimeout_kept _ _
  | blockReceived a1 a2 a3 => exact execBlockReceived_kept _ _ _ _
  | nak a1 a2 => exact execNak_kept _ _ _
  | probe a1 a2 => exact execProbe_kept _ _ _
  | echo a1 a2 a3 => exact execEcho_kept _ _ _ _
  | linkSilenceTimeout a1 => exact execLinkSilenceTimeout_kept _ _
  | frameSlot a1 a2 a3 => exact execFrameSlot_kept _ _ _ _
  | laneFailure a1 a2 => exact execLaneFailure_kept _ _ _
  | laneCeWindow a1 a2 => exact execLaneCeWindow_kept _ _ _
  | laneSwitchRequest a1 a2 => exact execLaneSwitchRequest_kept _ _ _
  | laneSwitchComplete a1 => exact execLaneSwitchComplete_kept _ _
  | rollCallTrainTimeout a1 => exact execRollCallTrainTimeout_kept _ _
  | rollCallComplete => exact execRollCallComplete_kept _
  | relayProbeComplete a1 a2 => exact execRelayProbeComplete_kept _ _ _
  | mirrorStreamComplete a1 => exact execMirrorStreamComplete_kept _ _
  | mirrorRefillComplete a1 => exact execMirrorRefillComplete_kept _ _
  | scrubLine a1 a2 a3 => exact execScrubLine_kept _ _ _ _
  | stashScrub a1 => exact execStashScrub_kept _ _
  | identify a1 => exact execIdentify_kept _ _
  | partState a1 => exact execPartState_kept _ _
  | resetPartition a1 => exact execResetPartition_kept _ _
  | clearRetained a1 => exact execClearRetained_kept _ _
  | assignPartitions a1 => exact execAssignPartitions_kept _ _
  | eraserPass a1 => exact execEraserPass_kept _ _
  | eraserPassComplete a1 a2 => exact execEraserPassComplete_kept _ _ _
  | loadCampusPlan a1 => exact execLoadCampusPlan_kept _ _
  | rollCall a1 => exact execRollCall_kept _ _
  | substitute a1 => exact execSubstitute_kept _ _
  | shutdown a1 => exact execShutdown_kept _ _
  | powerLimit a1 => exact execPowerLimit_kept _ _
  | lessonLoad a1 => exact execLessonLoad_kept _ _
  | lessonLoadComplete a1 => exact execLessonLoadComplete_kept _ _
  | lessonStart a1 => exact execLessonStart_kept _ _
  | lessonHalt a1 => exact execLessonHalt_kept _ _
  | lessonUnload a1 => exact execLessonUnload_kept _ _
  | reshard a1 => exact execReshard_kept _ _
  | reshardComplete a1 a2 a3 => exact execReshardComplete_kept _ _ _ _
  | weightLoad a1 => exact execWeightLoad_kept _ _
  | rdmaReadResponse a1 a2 a3 a4 => exact execRdmaReadResponse_kept _ _ _ _ _
  | weightLoadComplete a1 a2 => exact execWeightLoadComplete_kept _ _ _
  | waveRegionCopyComplete a1 a2 a3 a4 => exact execWaveRegionCopyComplete_kept _ _ _ _ _
  | editionSwitch a1 => exact execEditionSwitch_kept _ _
  | editionStatus a1 => exact execEditionStatus_kept _ _
  | setScalar a1 => exact execSetScalar_kept _ _
  | mgmtRecall a1 => exact execMgmtRecall_kept _ _
  | resume a1 => exact execResume_kept _ _
  | preempt a1 => exact execPreempt_kept _ _
  | preemptSaveComplete a1 => exact execPreemptSaveComplete_kept _ _
  | resumePartition a1 => exact execResumePartition_kept _ _
  | readRing a1 => exact execReadRing_kept _ _
  | readSensors a1 => exact execReadSensors_kept _ _
  | reportCard a1 => exact execReportCard_kept _ _
  | debugChallenge a1 => exact execDebugChallenge_kept _ _
  | debugUnlock a1 => exact execDebugUnlock_kept _ _
  | ownerKeyBurn k => exact absurd rfl (hk k)
  | fwWrite a1 => exact execFwWrite_kept _ _
  | fwWriteComplete a1 => exact execFwWriteComplete_kept _ _
  | fwActivate a1 => exact execFwActivate_kept _ _
  | fwActivateWithdraw => exact execFwActivateWithdraw_kept _
  | fwPauseComplete => exact execFwPauseComplete_kept _
  | fwConfirm => exact absurd rfl hc
  | trialTimeout => exact execTrialTimeout_kept _
  | fwStatus a1 => exact execFwStatus_kept _ _
  | testTile a1 => exact execTestTile_kept _ _
  | testResults a1 => exact execTestResults_kept _ _
  | tileTestDue a1 => exact execTileTestDue_kept _ _
  | tileTestComplete a1 a2 a3 a4 => exact execTileTestComplete_kept _ _ _ _ _
  | testOverdue a1 a2 => exact execTestOverdue_kept _ _ _
  | commandTimeout a1 => exact execCommandTimeout_kept _ _
  | getVersion a1 a2 => exact execGetVersion_kept _ _ _
  | getCapabilities a1 a2 => exact execGetCapabilities_kept _ _ _
  | negotiateAlgorithms a1 a2 => exact execNegotiateAlgorithms_kept _ _ _
  | getDigests a1 a2 => exact execGetDigests_kept _ _ _
  | getCertificate a1 a2 => exact execGetCertificate_kept _ _ _
  | challenge a1 a2 => exact execChallenge_kept _ _ _
  | getMeasurements a1 a2 => exact execGetMeasurements_kept _ _ _
  | cmdDoorbell a1 a2 a3 => exact execCmdDoorbell_kept _ _ _ _
  | cmdCtail a1 a2 a3 a4 => exact execCmdCtail_kept _ _ _ _ _
  | cmdRhead a1 a2 a3 a4 => exact execCmdRhead_kept _ _ _ _ _
  | cmdRctl a1 a2 a3 a4 => exact execCmdRctl_kept _ _ _ _ _
  | commitWrite a1 a2 a3 => exact execCommitWrite_kept _ _ _ _
  | powerLimitWrite a1 a2 a3 => exact execPowerLimitWrite_kept _ _ _ _
  | inject a1 a2 a3 => exact execInject_kept _ _ _ _
  | latchedLowWordRead a1 a2 => exact execLatchedLowWordRead_kept _ _ _
  | registerWrite a1 a2 a3 a4 => exact execRegisterWrite_kept _ _ _ _ _
  | claim a1 a2 a3 => exact execClaim_kept _ _ _ _
  | go a1 a2 a3 => exact execGo_kept _ _ _ _
  | drop a1 a2 a3 => exact execDrop_kept _ _ _ _
  | take a1 a2 a3 => exact execTake_kept _ _ _ _
  | pigeonholeTimeout a1 => exact execPigeonholeTimeout_kept _ _
  | dmaChstart a1 a2 a3 => exact execDmaChstart_kept _ _ _ _
  | halt a1 a2 => exact execHalt_kept _ _ _
  | dmaCopy a1 a2 => exact execDmaCopy_kept _ _ _
  | dmaFill a1 a2 => exact execDmaFill_kept _ _ _
  | dmaCompare a1 a2 => exact execDmaCompare_kept _ _ _
  | dmaFence a1 a2 => exact execDmaFence_kept _ _ _
  | dmaDescriptorComplete a1 => exact execDmaDescriptorComplete_kept _ _
  | dmaHostTimeout a1 => exact execDmaHostTimeout_kept _ _
  | mgmtRegisterRead a1 => exact execMgmtRegisterRead_kept _ _
  | mgmtRegisterWrite a1 => exact execMgmtRegisterWrite_kept _ _
  | storageConnectionRecord a1 => exact execStorageConnectionRecord_kept _ _
  | ptpSync a1 => exact execPtpSync_kept _ _
  | pps => exact execPps_kept _
  | refclkLoss => exact execRefclkLoss_kept _
  | perstAssert a1 => exact execPerstAssert_kept _ _
  | perstDeassert a1 => exact execPerstDeassert_kept _ _
  | powerOn => exact execPowerOn_kept _
  | pinReset a1 a2 => exact execPinReset_kept _ _ _
  | resetRelease a1 a2 a3 => exact execResetRelease_kept _ _ _ _
  | railsInRegulation a1 => exact execRailsInRegulation_kept _ _
  | monitorReady a1 => exact execMonitorReady_kept _ _
  | monitorReadyTimeout a1 => exact execMonitorReadyTimeout_kept _ _
  | dawnTestComplete a1 a2 a3 a4 a5 => exact execDawnTestComplete_kept _ _ _ _ _ _
  | watchdogLapse a1 a2 => exact execWatchdogLapse_kept _ _ _
  | inputUndervoltage => exact execInputUndervoltage_kept _
  | inputFault => exact execInputFault_kept _
  | railFault => exact execRailFault_kept _
  | powerStageFault a1 a2 a3 => exact execPowerStageFault_kept _ _ _ _
  | sensorReport a1 a2 a3 => exact execSensorReport_kept _ _ _ _
  | powerInputWindow a1 a2 => exact execPowerInputWindow_kept _ _ _
  | hostTelemetryWindow a1 a2 => exact execHostTelemetryWindow_kept _ _ _
  | partitionRestoreComplete a1 a2 => exact execPartitionRestoreComplete_kept _ _ _
  | duskTestComplete a1 a2 a3 a4 => exact execDuskTestComplete_kept _ _ _ _ _
  | storageConnectionFailure a1 => exact execStorageConnectionFailure_kept _ _
  | internalResetRelease => exact execInternalResetRelease_kept _
  | portTrained a1 a2 => exact execPortTrained_kept _ _ _
  | registerReadAccerr a1 a2 => exact execRegisterReadAccerr_kept _ _ _

theorem Fuses.later_refl (f : Fuses) : Fuses.Later f f := ⟨Nat.le_refl _, Nat.le_refl _, fun _ h => h, rfl⟩

/-- What a state keeps, as two facts. -/
theorem State.kept_inj {s : State} {f : Fuses} {q : List Instr} (h : s.kept = (f, q)) : s.fuses = f ∧ s.pending = q := by
  unfold State.kept at h; exact Prod.mk.inj h

/-- FW_CONFIRM advances the counters, within the 64 fuses, and does nothing else to the fuses (R370). -/
theorem State.advanceFuses_kept (s : State) (b : Bytes) :
    (s.advanceFuses b).kept = ({ s.fuses with
      svnPri := Nat.min 64 (Nat.max s.fuses.svnPri (field b 12 1)), svnMon := Nat.min 64 (Nat.max s.fuses.svnMon (field b 13 1)) },
      s.pending) := by
  unfold State.advanceFuses; simp only [State.setRegFld_kept]; simp [State.kept]

theorem State.advanceFuses_later (s : State) (b : Bytes) (h : s.fuses.legal) :
    Fuses.Later s.fuses (s.advanceFuses b).fuses ∧ (s.advanceFuses b).fuses.legal ∧ (s.advanceFuses b).pending = s.pending := by
  obtain ⟨hf, hp⟩ := State.kept_inj (s.advanceFuses_kept b)
  simp only [Fuses.legal, Bool.and_eq_true, decide_eq_true_eq] at h
  rw [hf, hp]
  refine ⟨⟨?_, ?_, fun _ h => h, rfl⟩, ?_, rfl⟩
  · exact Nat.le_min.mpr ⟨h.1, Nat.le_max_left _ _⟩
  · exact Nat.le_min.mpr ⟨h.2, Nat.le_max_left _ _⟩
  · exact Bool.and_eq_true _ _ ▸ ⟨decide_eq_true (Nat.min_le_left _ _), decide_eq_true (Nat.min_le_left _ _)⟩

/-- What FW_CONFIRM leaves in the fuses and the queue. -/
theorem execFwConfirm_later (s t : State) (h : s.fuses.legal) (e : execFwConfirm s = .next t) :
    Fuses.Later s.fuses t.fuses ∧ t.fuses.legal ∧ t.pending = s.pending := by
  unfold execFwConfirm at e
  split at e
  · cases e; exact ⟨Fuses.later_refl _, h, rfl⟩
  · have ha := s.advanceFuses_later (s.slot s.runSlot) h
    have hk : t.kept = (s.advanceFuses (s.slot s.runSlot)).kept := by
      dsimp only at e
      injection e with e
      subst e
      simp
    obtain ⟨hf, hp⟩ := State.kept_inj hk
    rw [hf, hp]; exact ha

/-- What OWNER_KEY_BURN leaves in the fuses and the queue. -/
theorem execOwnerKeyBurn_later (k : Packet) (s t : State) (h : s.fuses.legal) (e : execOwnerKeyBurn k s = .next t) :
    Fuses.Later s.fuses t.fuses ∧ t.fuses.legal ∧ t.pending = s.pending := by
  have same : ∀ u : State, u.kept = s.kept → Fuses.Later s.fuses u.fuses ∧ u.fuses.legal ∧ u.pending = s.pending := by
    intro u hu
    obtain ⟨hf, hp⟩ := State.kept_inj hu
    rw [hf, hp]; exact ⟨Fuses.later_refl _, h, rfl⟩
  have pick : ∀ (b : Bool) (x y : State), (Fuses.Later s.fuses x.fuses ∧ x.fuses.legal ∧ x.pending = s.pending) →
      (Fuses.Later s.fuses y.fuses ∧ y.fuses.legal ∧ y.pending = s.pending) →
      (Fuses.Later s.fuses (if b then x else y).fuses ∧ (if b then x else y).fuses.legal ∧
        (if b then x else y).pending = s.pending) := by
    intro b x y hx hy; cases b <;> assumption
  have burnt : ∀ (a : State) (d : Bytes) (id : Nat), a.kept = s.kept → s.fuses.owner = none →
      Fuses.Later s.fuses (({ a with fuses := { a.fuses with owner := some d } } : State).finish id 0 [1]).fuses ∧
      (({ a with fuses := { a.fuses with owner := some d } } : State).finish id 0 [1]).fuses.legal ∧
      (({ a with fuses := { a.fuses with owner := some d } } : State).finish id 0 [1]).pending = s.pending := by
    intro a d id hkk ho
    obtain ⟨hf, hp⟩ := State.kept_inj hkk
    obtain ⟨hf2, hp2⟩ := State.kept_inj (({ a with fuses := { a.fuses with owner := some d } } : State).finish_kept id 0 [1])
    rw [hf2, hp2, hf, hp]
    refine ⟨⟨Nat.le_refl _, Nat.le_refl _, fun d hd => ?_, rfl⟩, h, rfl⟩
    rw [ho] at hd; cases hd
  unfold execOwnerKeyBurn runPacket at e
  split at e
  · cases e; exact same s rfl
  · dsimp only at e
    split at e
    · cases e; exact same _ (by simp)
    · split at e
      · next hr => split at hr <;> simp [doneAtOnce] at hr
      · cases e; exact same _ (by simp)
      · next hr => split at hr <;> simp [doneAtOnce] at hr
      · next hr =>
        split at hr
        · cases hr
        · next hc =>
          simp only [doneAtOnce, CmdRes.long.injEq] at hr
          obtain ⟨rfl, rfl, rfl, rfl⟩ := hr
          have hkk : ((s.takePacket k).accept k none 0).kept = s.kept := by simp
          have ho : s.fuses.owner = none := by
            have : (s.takePacket k).fuses = s.fuses := (State.kept_inj (s.takePacket_kept k)).1
            rw [this] at hc
            cases hs : s.fuses.owner <;> simp [hs] at hc ⊢
          injection e with e
          rw [← e]
          exact pick _ _ _ (same _ (by simp)) (burnt _ _ _ hkk ho)

end Sys2Proof.Machine
end

