-- ==== Sys2Proof/Laws/Lane.lean ====
section
/-! SUPPORT. What the issue of a tile instruction and a run of a vector instruction do. -/

set_option Elab.async false

namespace Sys2Proof.Machine

/-! ### Issue -/

/-- A ready tile runs the body of an accepted word. -/
theorem issue_ready {a : Issue} {i : Instr} {body : State → Act} {s : State} (h : s.Ready a.tile) :
    issue a i true body s = settle a.tile i (body s) := by
  obtain ⟨h1, h2, h3⟩ := h
  simp [issue, Nat.not_le.mpr h1, h2, h3]

/-- A body that is done gives the next state. -/
theorem issue_done {a : Issue} {i : Instr} {ok : Bool} {body : State → Act} {s t : State} (h : s.Ready a.tile)
    (hok : ok = true) (hb : body s = .done t) : issue a i ok body s = .next t := by
  subst hok; rw [issue_ready h, hb]; rfl

/-! ### Writes of V lanes -/

theorem applyWrites_append (e : Engine) (x y : List VWrite) : applyWrites e (x ++ y) = applyWrites (applyWrites e x) y := by
  simp [applyWrites]

/-- Writing V lanes leaves everything else of the engine. -/
theorem applyWrites_rest (e : Engine) (ws : List VWrite) : applyWrites e ws = { e with v := (applyWrites e ws).v } := by
  induction ws generalizing e with
  | nil => rfl
  | cons w ws ih =>
    show applyWrites (e.setLane w.1 w.2.1 w.2.2) ws = _
    rw [ih]; rfl

theorem upTo_rest (e : Engine) (r : Nat → List VWrite × VFlags) (m : Nat) : e.upTo r m = { e with v := (e.upTo r m).v } :=
  applyWrites_rest _ _

/-- V lanes do not say which lanes are active. -/
theorem upTo_active (e : Engine) (r : Nat → List VWrite × VFlags) (m k : Nat) : (e.upTo r m).active k = e.active k := by
  rw [upTo_rest]; rfl

theorem upTo_maskReg (e : Engine) (r : Nat → List VWrite × VFlags) (m k : Nat) : (e.upTo r m).maskReg k = e.maskReg k := by
  rw [upTo_rest]; rfl

theorem upTo_masked (e : Engine) (r : Nat → List VWrite × VFlags) (m k l : Nat) : (e.upTo r m).masked k l = e.masked k l := by
  rw [upTo_rest]; rfl

theorem upTo_vl (e : Engine) (r : Nat → List VWrite × VFlags) (m : Nat) : (e.upTo r m).vl = e.vl := by
  rw [upTo_rest]

theorem upTo_scalar (e : Engine) (r : Nat → List VWrite × VFlags) (m k : Nat) : (e.upTo r m).scalar k = e.scalar k := by
  rw [upTo_rest]; rfl

theorem upTo_grid (e : Engine) (r : Nat → List VWrite × VFlags) (m q l : Nat) : (e.upTo r m).grid q l = e.grid q l := by
  rw [upTo_rest]; rfl

/-- Only the writes of the iterations counted matter. -/
theorem upTo_congr (e : Engine) {r q : Nat → List VWrite × VFlags} {m : Nat} (h : ∀ i, i < m → r i = q i) :
    e.upTo r m = e.upTo q m := by
  unfold Engine.upTo
  congr 1
  induction m with
  | zero => rfl
  | succ m ih =>
    rw [List.range_succ, List.flatMap_append, List.flatMap_append, ih fun i hi => h i (by omega)]
    simp [h m (by omega)]

theorem upTo_succ (e : Engine) (r : Nat → List VWrite × VFlags) (m : Nat) : e.upTo r (m + 1) = applyWrites (e.upTo r m) (r m).1 := by
  simp [Engine.upTo, List.range_succ, applyWrites_append]

/-! ### Runs -/

/-- One iteration of a run: what is readable, the writes not yet readable, the events. -/
def runStep (k : Nat) (f : Engine → Nat → List VWrite × VFlags) (acc : Engine × List (List VWrite) × VFlags) (i : Nat) :
    Engine × List (List VWrite) × VFlags :=
  let e1 := if k ≤ acc.2.1.length then applyWrites acc.1 (acc.2.1.headD []) else acc.1
  let p1 := if k ≤ acc.2.1.length then acc.2.1.drop 1 else acc.2.1
  (e1, p1 ++ [(f e1 i).1], acc.2.2.or (f e1 i).2)

theorem runFrom_fold (k : Nat) (f : Engine → Nat → List VWrite × VFlags) (is : List Nat) (e : Engine) (p : List (List VWrite))
    (fl : VFlags) : runFrom k f is e p fl =
      (applyWrites (is.foldl (runStep k f) (e, p, fl)).1 (is.foldl (runStep k f) (e, p, fl)).2.1.flatten,
       (is.foldl (runStep k f) (e, p, fl)).2.2) := by
  induction is generalizing e p fl with
  | nil => rfl
  | cons i is ih => simp only [runFrom, List.foldl_cons]; rw [ih]; rfl

theorem anyFlags_append (xs : List VFlags) (x : VFlags) : anyFlags (xs ++ [x]) = (anyFlags xs).or x := by simp [anyFlags]

/-- The state of a run after n iterations. -/
theorem runStep_fold {k : Nat} (hk : 1 ≤ k) (f : Engine → Nat → List VWrite × VFlags) (e : Engine) (n : Nat) :
    ∃ r : Nat → List VWrite × VFlags, (∀ i, i < n → r i = f (e.upTo r (i + 1 - k)) i) ∧
      (List.range n).foldl (runStep k f) (e, [], {}) =
        (e.upTo r (n - k), (List.range' (n - k) (n - (n - k))).map (fun i => (r i).1),
            anyFlags ((List.range n).map fun i => (r i).2)) := by
  induction n with
  | zero => exact ⟨fun _ => ([], {}), by simp, by simp [Engine.upTo, applyWrites, anyFlags]⟩
  | succ n ih =>
    obtain ⟨r, hr, hf⟩ := ih
    let q : Nat → List VWrite × VFlags := fun i => if i = n then f (e.upTo r (n + 1 - k)) n else r i
    have hq : ∀ i, i < n → q i = r i := fun i hi => by simp [q, Nat.ne_of_lt hi]
    have hu : ∀ m, m ≤ n → e.upTo q m = e.upTo r m := fun m hm => upTo_congr e fun i hi => hq i (by omega)
    refine ⟨q, ?_, ?_⟩
    · intro i hi
      by_cases h : i = n
      · subst h; rw [hu _ (by omega)]; simp [q]
      · rw [hu _ (by omega), hq i (by omega)]; exact hr i (by omega)
    · rw [List.range_succ, List.foldl_append, hf]
      simp only [List.foldl_cons, List.foldl_nil, List.map_append, List.map_cons, List.map_nil, anyFlags_append]
      have hfl : anyFlags ((List.range n).map fun i => (q i).2) = anyFlags ((List.range n).map fun i => (r i).2) := by
        congr 1
        exact List.map_congr_left fun i hi => by rw [hq i (List.mem_range.mp hi)]
      rw [hfl, hu _ (by omega)]
      unfold runStep
      simp only [List.length_map, List.length_range']
      by_cases h : n < k
      · have h0 : n - k = 0 := by omega
        have h1 : n + 1 - k = 0 := by omega
        have h2 : ¬ k ≤ n - 0 := by omega
        simp only [h0, h1, if_neg h2]
        refine Prod.ext rfl (Prod.ext ?_ ?_) <;> dsimp only
        · rw [show n + 1 - 0 = (n - 0) + 1 by omega, List.range'_concat, List.map_append]
          refine congr (congrArg _ ?_) ?_
          · exact List.map_congr_left fun i hi => by rw [hq i (by simp [List.mem_range'] at hi; omega)]
          · simp [q, h1]
        · simp [q, h1]
      · have h2 : k ≤ n - (n - k) := by omega
        have h3 : n + 1 - k = (n - k) + 1 := by omega
        have hhead : ((List.range' (n - k) (n - (n - k))).map fun i => (r i).1).headD [] = (r (n - k)).1 := by
          rw [show n - (n - k) = (n - (n - k) - 1) + 1 by omega, List.range'_succ]; rfl
        simp only [if_pos h2, hhead, ← upTo_succ, h3]
        refine Prod.ext rfl (Prod.ext ?_ ?_) <;> dsimp only
        · have : n + 1 - (n - k + 1) = (n - (n - k) - 1) + 1 := by omega
          rw [this, List.range'_concat, List.map_append]
          refine congr (congrArg _ ?_) ?_
          · rw [← List.map_drop]
            rw [show (List.range' (n - k) (n - (n - k))).drop 1 = List.range' (n - k + 1) (n - (n - k) - 1) by
              rw [show n - (n - k) = (n - (n - k) - 1) + 1 by omega, List.range'_succ]; simp]
            exact List.map_congr_left fun i hi => by rw [hq i (by simp [List.mem_range'] at hi; omega)]
          · have : n - k + 1 + (n - (n - k) - 1) = n := by omega
            simp [q, this, h3]
        · simp [q, h3]

/-- A run obeys R99. -/
theorem runFrom_law {k : Nat} (hk : 1 ≤ k) (f : Engine → Nat → List VWrite × VFlags) (e : Engine) (n : Nat) :
    RunLaw k n f e (runFrom k f (List.range n) e [] {}).1 (runFrom k f (List.range n) e [] {}).2 := by
  obtain ⟨r, hr, hf⟩ := runStep_fold hk f e n
  refine ⟨r, hr, ?_, ?_⟩
  · rw [runFrom_fold, hf]
    simp only [Engine.upTo, ← applyWrites_append]
    congr 1
    have h : List.range n = List.range' 0 (n - k) ++ List.range' (n - k) (n - (n - k)) := by
      rw [List.range_eq_range', show List.range' 0 n = List.range' 0 ((n - k) + (n - (n - k))) by congr 1; omega,
        ← List.range'_append_1, Nat.zero_add]
    rw [h, List.flatMap_append, ← List.range_eq_range', ← List.flatMap_def]
  · rw [runFrom_fold, hf]

/-- Iterations may read the mask, VL, scalars and grid registers of the engine before the run. -/
theorem RunLaw.congr {k n : Nat} {f g : Engine → Nat → List VWrite × VFlags} {e e1 : Engine} {fl : VFlags}
    (h : RunLaw k n f e e1 fl) (hfg : ∀ r m i, f (e.upTo r m) i = g (e.upTo r m) i) : RunLaw k n g e e1 fl := by
  obtain ⟨r, h1, h2, h3⟩ := h
  exact ⟨r, fun i hi => by rw [← hfg]; exact h1 i hi, h2, h3⟩

theorem foldl_flags {α : Type} (ls : List α) (g : α → VFlags) (z : VFlags) :
    ls.foldl (fun acc r => acc.or (g r)) z = (ls.map g).foldl VFlags.or z := by
  induction ls generalizing z with
  | nil => rfl
  | cons x xs ih => simpa using ih _

/-- A lane instruction obeys R99. -/
theorem laneRun_law {k : Nat} (hk : 1 ≤ k) (f : VArgs) (op : Engine → Nat → Nat → LaneF) (e : Engine) :
    RunLaw k (vCount f) (laneWrites f (e.active f.mask.toNat) op) e (laneRun f k op e).1 (laneRun f k op e).2 := by
  refine (runFrom_law hk _ e (vCount f)).congr fun r m i => ?_
  simp only [upTo_active, laneWrites, anyFlags, List.map_map, foldl_flags]
  rfl

end Sys2Proof.Machine
end

