-- ==== Sys2Proof/Laws/State.lean ====
section
/-! SUPPORT. What each named update of the state leaves alone, one lemma a field, and what it changes: reading back what was
written. -/

set_option Elab.async false

namespace Sys2Proof.Machine

/-! ### setTile -/

@[simp] theorem State.setTile_fuses (s : State) (t : Nat) (x : Tile) : (s.setTile t x).fuses = s.fuses := (rfl)
@[simp] theorem State.setTile_pins (s : State) (t : Nat) (x : Tile) : (s.setTile t x).pins = s.pins := (rfl)
@[simp] theorem State.setTile_office (s : State) (t : Nat) (x : Tile) : (s.setTile t x).office = s.office := (rfl)
@[simp] theorem State.setTile_staged (s : State) (t : Nat) (x : Tile) : (s.setTile t x).staged = s.staged := (rfl)
@[simp] theorem State.setTile_writer (s : State) (t : Nat) (x : Tile) : (s.setTile t x).writer = s.writer := (rfl)
@[simp] theorem State.setTile_latch (s : State) (t : Nat) (x : Tile) : (s.setTile t x).latch = s.latch := (rfl)
@[simp] theorem State.setTile_retained (s : State) (t : Nat) (x : Tile) : (s.setTile t x).retained = s.retained := (rfl)
@[simp] theorem State.setTile_stash (s : State) (t : Nat) (x : Tile) : (s.setTile t x).stash = s.stash := (rfl)
@[simp] theorem State.setTile_stashErr (s : State) (t : Nat) (x : Tile) : (s.setTile t x).stashErr = s.stashErr := (rfl)
@[simp] theorem State.setTile_mesh (s : State) (t : Nat) (x : Tile) : (s.setTile t x).mesh = s.mesh := (rfl)
@[simp] theorem State.setTile_meshCred (s : State) (t : Nat) (x : Tile) : (s.setTile t x).meshCred = s.meshCred := (rfl)
@[simp] theorem State.setTile_part0 (s : State) (t : Nat) (x : Tile) : (s.setTile t x).part0 = s.part0 := (rfl)
@[simp] theorem State.setTile_part1 (s : State) (t : Nat) (x : Tile) : (s.setTile t x).part1 = s.part1 := (rfl)
@[simp] theorem State.setTile_ports (s : State) (t : Nat) (x : Tile) : (s.setTile t x).ports = s.ports := (rfl)
@[simp] theorem State.setTile_rollMask (s : State) (t : Nat) (x : Tile) : (s.setTile t x).rollMask = s.rollMask := (rfl)
@[simp] theorem State.setTile_rollCmd (s : State) (t : Nat) (x : Tile) : (s.setTile t x).rollCmd = s.rollCmd := (rfl)
@[simp] theorem State.setTile_chans (s : State) (t : Nat) (x : Tile) : (s.setTile t x).chans = s.chans := (rfl)
@[simp] theorem State.setTile_bells (s : State) (t : Nat) (x : Tile) : (s.setTile t x).bells = s.bells := (rfl)
@[simp] theorem State.setTile_cmds (s : State) (t : Nat) (x : Tile) : (s.setTile t x).cmds = s.cmds := (rfl)
@[simp] theorem State.setTile_replies (s : State) (t : Nat) (x : Tile) : (s.setTile t x).replies = s.replies := (rfl)
@[simp] theorem State.setTile_nextCmd (s : State) (t : Nat) (x : Tile) : (s.setTile t x).nextCmd = s.nextCmd := (rfl)
@[simp] theorem State.setTile_peerMsg (s : State) (t : Nat) (x : Tile) : (s.setTile t x).peerMsg = s.peerMsg := (rfl)
@[simp] theorem State.setTile_peerSent (s : State) (t : Nat) (x : Tile) : (s.setTile t x).peerSent = s.peerSent := (rfl)
@[simp] theorem State.setTile_peerDone (s : State) (t : Nat) (x : Tile) : (s.setTile t x).peerDone = s.peerDone := (rfl)
@[simp] theorem State.setTile_roomNow (s : State) (t : Nat) (x : Tile) : (s.setTile t x).roomNow = s.roomNow := (rfl)
@[simp] theorem State.setTile_errRing (s : State) (t : Nat) (x : Tile) : (s.setTile t x).errRing = s.errRing := (rfl)
@[simp] theorem State.setTile_fw (s : State) (t : Nat) (x : Tile) : (s.setTile t x).fw = s.fw := (rfl)
@[simp] theorem State.setTile_nonce (s : State) (t : Nat) (x : Tile) : (s.setTile t x).nonce = s.nonce := (rfl)
@[simp] theorem State.setTile_half (s : State) (t : Nat) (x : Tile) : (s.setTile t x).half = s.half := (rfl)
@[simp] theorem State.setTile_sensors (s : State) (t : Nat) (x : Tile) : (s.setTile t x).sensors = s.sensors := (rfl)
@[simp] theorem State.setTile_fresh0 (s : State) (t : Nat) (x : Tile) : (s.setTile t x).fresh0 = s.fresh0 := (rfl)
@[simp] theorem State.setTile_fresh1 (s : State) (t : Nat) (x : Tile) : (s.setTile t x).fresh1 = s.fresh1 := (rfl)
@[simp] theorem State.setTile_badLines (s : State) (t : Nat) (x : Tile) : (s.setTile t x).badLines = s.badLines := (rfl)
@[simp] theorem State.setTile_dawnMs (s : State) (t : Nat) (x : Tile) : (s.setTile t x).dawnMs = s.dawnMs := (rfl)
@[simp] theorem State.setTile_testing (s : State) (t : Nat) (x : Tile) : (s.setTile t x).testing = s.testing := (rfl)
@[simp] theorem State.setTile_moving (s : State) (t : Nat) (x : Tile) : (s.setTile t x).moving = s.moving := (rfl)
@[simp] theorem State.setTile_deferred (s : State) (t : Nat) (x : Tile) : (s.setTile t x).deferred = s.deferred := (rfl)
@[simp] theorem State.setTile_wall (s : State) (t : Nat) (x : Tile) : (s.setTile t x).wall = s.wall := (rfl)
@[simp] theorem State.setTile_free (s : State) (t : Nat) (x : Tile) : (s.setTile t x).free = s.free := (rfl)
@[simp] theorem State.setTile_out (s : State) (t : Nat) (x : Tile) : (s.setTile t x).out = s.out := (rfl)
@[simp] theorem State.setTile_pending (s : State) (t : Nat) (x : Tile) : (s.setTile t x).pending = s.pending := (rfl)

/-! ### setPort -/

@[simp] theorem State.setPort_fuses (s : State) (l : Nat) (x : Port) : (s.setPort l x).fuses = s.fuses := (rfl)
@[simp] theorem State.setPort_pins (s : State) (l : Nat) (x : Port) : (s.setPort l x).pins = s.pins := (rfl)
@[simp] theorem State.setPort_office (s : State) (l : Nat) (x : Port) : (s.setPort l x).office = s.office := (rfl)
@[simp] theorem State.setPort_staged (s : State) (l : Nat) (x : Port) : (s.setPort l x).staged = s.staged := (rfl)
@[simp] theorem State.setPort_writer (s : State) (l : Nat) (x : Port) : (s.setPort l x).writer = s.writer := (rfl)
@[simp] theorem State.setPort_latch (s : State) (l : Nat) (x : Port) : (s.setPort l x).latch = s.latch := (rfl)
@[simp] theorem State.setPort_retained (s : State) (l : Nat) (x : Port) : (s.setPort l x).retained = s.retained := (rfl)
@[simp] theorem State.setPort_tiles (s : State) (l : Nat) (x : Port) : (s.setPort l x).tiles = s.tiles := (rfl)
@[simp] theorem State.setPort_stash (s : State) (l : Nat) (x : Port) : (s.setPort l x).stash = s.stash := (rfl)
@[simp] theorem State.setPort_stashErr (s : State) (l : Nat) (x : Port) : (s.setPort l x).stashErr = s.stashErr := (rfl)
@[simp] theorem State.setPort_mesh (s : State) (l : Nat) (x : Port) : (s.setPort l x).mesh = s.mesh := (rfl)
@[simp] theorem State.setPort_meshCred (s : State) (l : Nat) (x : Port) : (s.setPort l x).meshCred = s.meshCred := (rfl)
@[simp] theorem State.setPort_part0 (s : State) (l : Nat) (x : Port) : (s.setPort l x).part0 = s.part0 := (rfl)
@[simp] theorem State.setPort_part1 (s : State) (l : Nat) (x : Port) : (s.setPort l x).part1 = s.part1 := (rfl)
@[simp] theorem State.setPort_rollMask (s : State) (l : Nat) (x : Port) : (s.setPort l x).rollMask = s.rollMask := (rfl)
@[simp] theorem State.setPort_rollCmd (s : State) (l : Nat) (x : Port) : (s.setPort l x).rollCmd = s.rollCmd := (rfl)
@[simp] theorem State.setPort_chans (s : State) (l : Nat) (x : Port) : (s.setPort l x).chans = s.chans := (rfl)
@[simp] theorem State.setPort_bells (s : State) (l : Nat) (x : Port) : (s.setPort l x).bells = s.bells := (rfl)
@[simp] theorem State.setPort_cmds (s : State) (l : Nat) (x : Port) : (s.setPort l x).cmds = s.cmds := (rfl)
@[simp] theorem State.setPort_replies (s : State) (l : Nat) (x : Port) : (s.setPort l x).replies = s.replies := (rfl)
@[simp] theorem State.setPort_nextCmd (s : State) (l : Nat) (x : Port) : (s.setPort l x).nextCmd = s.nextCmd := (rfl)
@[simp] theorem State.setPort_peerMsg (s : State) (l : Nat) (x : Port) : (s.setPort l x).peerMsg = s.peerMsg := (rfl)
@[simp] theorem State.setPort_peerSent (s : State) (l : Nat) (x : Port) : (s.setPort l x).peerSent = s.peerSent := (rfl)
@[simp] theorem State.setPort_peerDone (s : State) (l : Nat) (x : Port) : (s.setPort l x).peerDone = s.peerDone := (rfl)
@[simp] theorem State.setPort_roomNow (s : State) (l : Nat) (x : Port) : (s.setPort l x).roomNow = s.roomNow := (rfl)
@[simp] theorem State.setPort_errRing (s : State) (l : Nat) (x : Port) : (s.setPort l x).errRing = s.errRing := (rfl)
@[simp] theorem State.setPort_fw (s : State) (l : Nat) (x : Port) : (s.setPort l x).fw = s.fw := (rfl)
@[simp] theorem State.setPort_nonce (s : State) (l : Nat) (x : Port) : (s.setPort l x).nonce = s.nonce := (rfl)
@[simp] theorem State.setPort_half (s : State) (l : Nat) (x : Port) : (s.setPort l x).half = s.half := (rfl)
@[simp] theorem State.setPort_sensors (s : State) (l : Nat) (x : Port) : (s.setPort l x).sensors = s.sensors := (rfl)
@[simp] theorem State.setPort_fresh0 (s : State) (l : Nat) (x : Port) : (s.setPort l x).fresh0 = s.fresh0 := (rfl)
@[simp] theorem State.setPort_fresh1 (s : State) (l : Nat) (x : Port) : (s.setPort l x).fresh1 = s.fresh1 := (rfl)
@[simp] theorem State.setPort_badLines (s : State) (l : Nat) (x : Port) : (s.setPort l x).badLines = s.badLines := (rfl)
@[simp] theorem State.setPort_dawnMs (s : State) (l : Nat) (x : Port) : (s.setPort l x).dawnMs = s.dawnMs := (rfl)
@[simp] theorem State.setPort_testing (s : State) (l : Nat) (x : Port) : (s.setPort l x).testing = s.testing := (rfl)
@[simp] theorem State.setPort_moving (s : State) (l : Nat) (x : Port) : (s.setPort l x).moving = s.moving := (rfl)
@[simp] theorem State.setPort_deferred (s : State) (l : Nat) (x : Port) : (s.setPort l x).deferred = s.deferred := (rfl)
@[simp] theorem State.setPort_wall (s : State) (l : Nat) (x : Port) : (s.setPort l x).wall = s.wall := (rfl)
@[simp] theorem State.setPort_free (s : State) (l : Nat) (x : Port) : (s.setPort l x).free = s.free := (rfl)
@[simp] theorem State.setPort_out (s : State) (l : Nat) (x : Port) : (s.setPort l x).out = s.out := (rfl)
@[simp] theorem State.setPort_pending (s : State) (l : Nat) (x : Port) : (s.setPort l x).pending = s.pending := (rfl)

/-! ### setChan -/

@[simp] theorem State.setChan_fuses (s : State) (c : Nat) (x : Channel) : (s.setChan c x).fuses = s.fuses := (rfl)
@[simp] theorem State.setChan_pins (s : State) (c : Nat) (x : Channel) : (s.setChan c x).pins = s.pins := (rfl)
@[simp] theorem State.setChan_office (s : State) (c : Nat) (x : Channel) : (s.setChan c x).office = s.office := (rfl)
@[simp] theorem State.setChan_staged (s : State) (c : Nat) (x : Channel) : (s.setChan c x).staged = s.staged := (rfl)
@[simp] theorem State.setChan_writer (s : State) (c : Nat) (x : Channel) : (s.setChan c x).writer = s.writer := (rfl)
@[simp] theorem State.setChan_latch (s : State) (c : Nat) (x : Channel) : (s.setChan c x).latch = s.latch := (rfl)
@[simp] theorem State.setChan_retained (s : State) (c : Nat) (x : Channel) : (s.setChan c x).retained = s.retained := (rfl)
@[simp] theorem State.setChan_tiles (s : State) (c : Nat) (x : Channel) : (s.setChan c x).tiles = s.tiles := (rfl)
@[simp] theorem State.setChan_stash (s : State) (c : Nat) (x : Channel) : (s.setChan c x).stash = s.stash := (rfl)
@[simp] theorem State.setChan_stashErr (s : State) (c : Nat) (x : Channel) : (s.setChan c x).stashErr = s.stashErr := (rfl)
@[simp] theorem State.setChan_mesh (s : State) (c : Nat) (x : Channel) : (s.setChan c x).mesh = s.mesh := (rfl)
@[simp] theorem State.setChan_meshCred (s : State) (c : Nat) (x : Channel) : (s.setChan c x).meshCred = s.meshCred := (rfl)
@[simp] theorem State.setChan_part0 (s : State) (c : Nat) (x : Channel) : (s.setChan c x).part0 = s.part0 := (rfl)
@[simp] theorem State.setChan_part1 (s : State) (c : Nat) (x : Channel) : (s.setChan c x).part1 = s.part1 := (rfl)
@[simp] theorem State.setChan_ports (s : State) (c : Nat) (x : Channel) : (s.setChan c x).ports = s.ports := (rfl)
@[simp] theorem State.setChan_rollMask (s : State) (c : Nat) (x : Channel) : (s.setChan c x).rollMask = s.rollMask := (rfl)
@[simp] theorem State.setChan_rollCmd (s : State) (c : Nat) (x : Channel) : (s.setChan c x).rollCmd = s.rollCmd := (rfl)
@[simp] theorem State.setChan_bells (s : State) (c : Nat) (x : Channel) : (s.setChan c x).bells = s.bells := (rfl)
@[simp] theorem State.setChan_cmds (s : State) (c : Nat) (x : Channel) : (s.setChan c x).cmds = s.cmds := (rfl)
@[simp] theorem State.setChan_replies (s : State) (c : Nat) (x : Channel) : (s.setChan c x).replies = s.replies := (rfl)
@[simp] theorem State.setChan_nextCmd (s : State) (c : Nat) (x : Channel) : (s.setChan c x).nextCmd = s.nextCmd := (rfl)
@[simp] theorem State.setChan_peerMsg (s : State) (c : Nat) (x : Channel) : (s.setChan c x).peerMsg = s.peerMsg := (rfl)
@[simp] theorem State.setChan_peerSent (s : State) (c : Nat) (x : Channel) : (s.setChan c x).peerSent = s.peerSent := (rfl)
@[simp] theorem State.setChan_peerDone (s : State) (c : Nat) (x : Channel) : (s.setChan c x).peerDone = s.peerDone := (rfl)
@[simp] theorem State.setChan_roomNow (s : State) (c : Nat) (x : Channel) : (s.setChan c x).roomNow = s.roomNow := (rfl)
@[simp] theorem State.setChan_errRing (s : State) (c : Nat) (x : Channel) : (s.setChan c x).errRing = s.errRing := (rfl)
@[simp] theorem State.setChan_fw (s : State) (c : Nat) (x : Channel) : (s.setChan c x).fw = s.fw := (rfl)
@[simp] theorem State.setChan_nonce (s : State) (c : Nat) (x : Channel) : (s.setChan c x).nonce = s.nonce := (rfl)
@[simp] theorem State.setChan_half (s : State) (c : Nat) (x : Channel) : (s.setChan c x).half = s.half := (rfl)
@[simp] theorem State.setChan_sensors (s : State) (c : Nat) (x : Channel) : (s.setChan c x).sensors = s.sensors := (rfl)
@[simp] theorem State.setChan_fresh0 (s : State) (c : Nat) (x : Channel) : (s.setChan c x).fresh0 = s.fresh0 := (rfl)
@[simp] theorem State.setChan_fresh1 (s : State) (c : Nat) (x : Channel) : (s.setChan c x).fresh1 = s.fresh1 := (rfl)
@[simp] theorem State.setChan_badLines (s : State) (c : Nat) (x : Channel) : (s.setChan c x).badLines = s.badLines := (rfl)
@[simp] theorem State.setChan_dawnMs (s : State) (c : Nat) (x : Channel) : (s.setChan c x).dawnMs = s.dawnMs := (rfl)
@[simp] theorem State.setChan_testing (s : State) (c : Nat) (x : Channel) : (s.setChan c x).testing = s.testing := (rfl)
@[simp] theorem State.setChan_moving (s : State) (c : Nat) (x : Channel) : (s.setChan c x).moving = s.moving := (rfl)
@[simp] theorem State.setChan_deferred (s : State) (c : Nat) (x : Channel) : (s.setChan c x).deferred = s.deferred := (rfl)
@[simp] theorem State.setChan_wall (s : State) (c : Nat) (x : Channel) : (s.setChan c x).wall = s.wall := (rfl)
@[simp] theorem State.setChan_free (s : State) (c : Nat) (x : Channel) : (s.setChan c x).free = s.free := (rfl)
@[simp] theorem State.setChan_out (s : State) (c : Nat) (x : Channel) : (s.setChan c x).out = s.out := (rfl)
@[simp] theorem State.setChan_pending (s : State) (c : Nat) (x : Channel) : (s.setChan c x).pending = s.pending := (rfl)

/-! ### emit -/

@[simp] theorem State.emit_fuses (s : State) (o : Out) : (s.emit o).fuses = s.fuses := (rfl)
@[simp] theorem State.emit_pins (s : State) (o : Out) : (s.emit o).pins = s.pins := (rfl)
@[simp] theorem State.emit_office (s : State) (o : Out) : (s.emit o).office = s.office := (rfl)
@[simp] theorem State.emit_staged (s : State) (o : Out) : (s.emit o).staged = s.staged := (rfl)
@[simp] theorem State.emit_writer (s : State) (o : Out) : (s.emit o).writer = s.writer := (rfl)
@[simp] theorem State.emit_latch (s : State) (o : Out) : (s.emit o).latch = s.latch := (rfl)
@[simp] theorem State.emit_retained (s : State) (o : Out) : (s.emit o).retained = s.retained := (rfl)
@[simp] theorem State.emit_tiles (s : State) (o : Out) : (s.emit o).tiles = s.tiles := (rfl)
@[simp] theorem State.emit_stash (s : State) (o : Out) : (s.emit o).stash = s.stash := (rfl)
@[simp] theorem State.emit_stashErr (s : State) (o : Out) : (s.emit o).stashErr = s.stashErr := (rfl)
@[simp] theorem State.emit_mesh (s : State) (o : Out) : (s.emit o).mesh = s.mesh := (rfl)
@[simp] theorem State.emit_meshCred (s : State) (o : Out) : (s.emit o).meshCred = s.meshCred := (rfl)
@[simp] theorem State.emit_part0 (s : State) (o : Out) : (s.emit o).part0 = s.part0 := (rfl)
@[simp] theorem State.emit_part1 (s : State) (o : Out) : (s.emit o).part1 = s.part1 := (rfl)
@[simp] theorem State.emit_ports (s : State) (o : Out) : (s.emit o).ports = s.ports := (rfl)
@[simp] theorem State.emit_rollMask (s : State) (o : Out) : (s.emit o).rollMask = s.rollMask := (rfl)
@[simp] theorem State.emit_rollCmd (s : State) (o : Out) : (s.emit o).rollCmd = s.rollCmd := (rfl)
@[simp] theorem State.emit_chans (s : State) (o : Out) : (s.emit o).chans = s.chans := (rfl)
@[simp] theorem State.emit_bells (s : State) (o : Out) : (s.emit o).bells = s.bells := (rfl)
@[simp] theorem State.emit_cmds (s : State) (o : Out) : (s.emit o).cmds = s.cmds := (rfl)
@[simp] theorem State.emit_replies (s : State) (o : Out) : (s.emit o).replies = s.replies := (rfl)
@[simp] theorem State.emit_nextCmd (s : State) (o : Out) : (s.emit o).nextCmd = s.nextCmd := (rfl)
@[simp] theorem State.emit_peerMsg (s : State) (o : Out) : (s.emit o).peerMsg = s.peerMsg := (rfl)
@[simp] theorem State.emit_peerSent (s : State) (o : Out) : (s.emit o).peerSent = s.peerSent := (rfl)
@[simp] theorem State.emit_peerDone (s : State) (o : Out) : (s.emit o).peerDone = s.peerDone := (rfl)
@[simp] theorem State.emit_roomNow (s : State) (o : Out) : (s.emit o).roomNow = s.roomNow := (rfl)
@[simp] theorem State.emit_errRing (s : State) (o : Out) : (s.emit o).errRing = s.errRing := (rfl)
@[simp] theorem State.emit_fw (s : State) (o : Out) : (s.emit o).fw = s.fw := (rfl)
@[simp] theorem State.emit_nonce (s : State) (o : Out) : (s.emit o).nonce = s.nonce := (rfl)
@[simp] theorem State.emit_half (s : State) (o : Out) : (s.emit o).half = s.half := (rfl)
@[simp] theorem State.emit_sensors (s : State) (o : Out) : (s.emit o).sensors = s.sensors := (rfl)
@[simp] theorem State.emit_fresh0 (s : State) (o : Out) : (s.emit o).fresh0 = s.fresh0 := (rfl)
@[simp] theorem State.emit_fresh1 (s : State) (o : Out) : (s.emit o).fresh1 = s.fresh1 := (rfl)
@[simp] theorem State.emit_badLines (s : State) (o : Out) : (s.emit o).badLines = s.badLines := (rfl)
@[simp] theorem State.emit_dawnMs (s : State) (o : Out) : (s.emit o).dawnMs = s.dawnMs := (rfl)
@[simp] theorem State.emit_testing (s : State) (o : Out) : (s.emit o).testing = s.testing := (rfl)
@[simp] theorem State.emit_moving (s : State) (o : Out) : (s.emit o).moving = s.moving := (rfl)
@[simp] theorem State.emit_deferred (s : State) (o : Out) : (s.emit o).deferred = s.deferred := (rfl)
@[simp] theorem State.emit_wall (s : State) (o : Out) : (s.emit o).wall = s.wall := (rfl)
@[simp] theorem State.emit_free (s : State) (o : Out) : (s.emit o).free = s.free := (rfl)
@[simp] theorem State.emit_pending (s : State) (o : Out) : (s.emit o).pending = s.pending := (rfl)

/-! ### draw -/

@[simp] theorem State.draw_fuses (s : State) : s.draw.fuses = s.fuses := (rfl)
@[simp] theorem State.draw_pins (s : State) : s.draw.pins = s.pins := (rfl)
@[simp] theorem State.draw_office (s : State) : s.draw.office = s.office := (rfl)
@[simp] theorem State.draw_staged (s : State) : s.draw.staged = s.staged := (rfl)
@[simp] theorem State.draw_writer (s : State) : s.draw.writer = s.writer := (rfl)
@[simp] theorem State.draw_latch (s : State) : s.draw.latch = s.latch := (rfl)
@[simp] theorem State.draw_retained (s : State) : s.draw.retained = s.retained := (rfl)
@[simp] theorem State.draw_tiles (s : State) : s.draw.tiles = s.tiles := (rfl)
@[simp] theorem State.draw_stash (s : State) : s.draw.stash = s.stash := (rfl)
@[simp] theorem State.draw_stashErr (s : State) : s.draw.stashErr = s.stashErr := (rfl)
@[simp] theorem State.draw_mesh (s : State) : s.draw.mesh = s.mesh := (rfl)
@[simp] theorem State.draw_meshCred (s : State) : s.draw.meshCred = s.meshCred := (rfl)
@[simp] theorem State.draw_part0 (s : State) : s.draw.part0 = s.part0 := (rfl)
@[simp] theorem State.draw_part1 (s : State) : s.draw.part1 = s.part1 := (rfl)
@[simp] theorem State.draw_ports (s : State) : s.draw.ports = s.ports := (rfl)
@[simp] theorem State.draw_rollMask (s : State) : s.draw.rollMask = s.rollMask := (rfl)
@[simp] theorem State.draw_rollCmd (s : State) : s.draw.rollCmd = s.rollCmd := (rfl)
@[simp] theorem State.draw_chans (s : State) : s.draw.chans = s.chans := (rfl)
@[simp] theorem State.draw_bells (s : State) : s.draw.bells = s.bells := (rfl)
@[simp] theorem State.draw_cmds (s : State) : s.draw.cmds = s.cmds := (rfl)
@[simp] theorem State.draw_replies (s : State) : s.draw.replies = s.replies := (rfl)
@[simp] theorem State.draw_nextCmd (s : State) : s.draw.nextCmd = s.nextCmd := (rfl)
@[simp] theorem State.draw_peerMsg (s : State) : s.draw.peerMsg = s.peerMsg := (rfl)
@[simp] theorem State.draw_peerSent (s : State) : s.draw.peerSent = s.peerSent := (rfl)
@[simp] theorem State.draw_peerDone (s : State) : s.draw.peerDone = s.peerDone := (rfl)
@[simp] theorem State.draw_roomNow (s : State) : s.draw.roomNow = s.roomNow := (rfl)
@[simp] theorem State.draw_errRing (s : State) : s.draw.errRing = s.errRing := (rfl)
@[simp] theorem State.draw_fw (s : State) : s.draw.fw = s.fw := (rfl)
@[simp] theorem State.draw_nonce (s : State) : s.draw.nonce = s.nonce := (rfl)
@[simp] theorem State.draw_half (s : State) : s.draw.half = s.half := (rfl)
@[simp] theorem State.draw_sensors (s : State) : s.draw.sensors = s.sensors := (rfl)
@[simp] theorem State.draw_fresh0 (s : State) : s.draw.fresh0 = s.fresh0 := (rfl)
@[simp] theorem State.draw_fresh1 (s : State) : s.draw.fresh1 = s.fresh1 := (rfl)
@[simp] theorem State.draw_badLines (s : State) : s.draw.badLines = s.badLines := (rfl)
@[simp] theorem State.draw_dawnMs (s : State) : s.draw.dawnMs = s.dawnMs := (rfl)
@[simp] theorem State.draw_testing (s : State) : s.draw.testing = s.testing := (rfl)
@[simp] theorem State.draw_moving (s : State) : s.draw.moving = s.moving := (rfl)
@[simp] theorem State.draw_deferred (s : State) : s.draw.deferred = s.deferred := (rfl)
@[simp] theorem State.draw_wall (s : State) : s.draw.wall = s.wall := (rfl)
@[simp] theorem State.draw_out (s : State) : s.draw.out = s.out := (rfl)
@[simp] theorem State.draw_pending (s : State) : s.draw.pending = s.pending := (rfl)

/-! ### setReg -/

@[simp] theorem State.setReg_fuses (s : State) (r : Reg) (w : Word) : (s.setReg r w).fuses = s.fuses := (rfl)
@[simp] theorem State.setReg_pins (s : State) (r : Reg) (w : Word) : (s.setReg r w).pins = s.pins := (rfl)
@[simp] theorem State.setReg_staged (s : State) (r : Reg) (w : Word) : (s.setReg r w).staged = s.staged := (rfl)
@[simp] theorem State.setReg_writer (s : State) (r : Reg) (w : Word) : (s.setReg r w).writer = s.writer := (rfl)
@[simp] theorem State.setReg_latch (s : State) (r : Reg) (w : Word) : (s.setReg r w).latch = s.latch := (rfl)
@[simp] theorem State.setReg_retained (s : State) (r : Reg) (w : Word) : (s.setReg r w).retained = s.retained := (rfl)
@[simp] theorem State.setReg_tiles (s : State) (r : Reg) (w : Word) : (s.setReg r w).tiles = s.tiles := (rfl)
@[simp] theorem State.setReg_stash (s : State) (r : Reg) (w : Word) : (s.setReg r w).stash = s.stash := (rfl)
@[simp] theorem State.setReg_stashErr (s : State) (r : Reg) (w : Word) : (s.setReg r w).stashErr = s.stashErr := (rfl)
@[simp] theorem State.setReg_mesh (s : State) (r : Reg) (w : Word) : (s.setReg r w).mesh = s.mesh := (rfl)
@[simp] theorem State.setReg_meshCred (s : State) (r : Reg) (w : Word) : (s.setReg r w).meshCred = s.meshCred := (rfl)
@[simp] theorem State.setReg_part0 (s : State) (r : Reg) (w : Word) : (s.setReg r w).part0 = s.part0 := (rfl)
@[simp] theorem State.setReg_part1 (s : State) (r : Reg) (w : Word) : (s.setReg r w).part1 = s.part1 := (rfl)
@[simp] theorem State.setReg_ports (s : State) (r : Reg) (w : Word) : (s.setReg r w).ports = s.ports := (rfl)
@[simp] theorem State.setReg_rollMask (s : State) (r : Reg) (w : Word) : (s.setReg r w).rollMask = s.rollMask := (rfl)
@[simp] theorem State.setReg_rollCmd (s : State) (r : Reg) (w : Word) : (s.setReg r w).rollCmd = s.rollCmd := (rfl)
@[simp] theorem State.setReg_chans (s : State) (r : Reg) (w : Word) : (s.setReg r w).chans = s.chans := (rfl)
@[simp] theorem State.setReg_bells (s : State) (r : Reg) (w : Word) : (s.setReg r w).bells = s.bells := (rfl)
@[simp] theorem State.setReg_cmds (s : State) (r : Reg) (w : Word) : (s.setReg r w).cmds = s.cmds := (rfl)
@[simp] theorem State.setReg_replies (s : State) (r : Reg) (w : Word) : (s.setReg r w).replies = s.replies := (rfl)
@[simp] theorem State.setReg_nextCmd (s : State) (r : Reg) (w : Word) : (s.setReg r w).nextCmd = s.nextCmd := (rfl)
@[simp] theorem State.setReg_peerMsg (s : State) (r : Reg) (w : Word) : (s.setReg r w).peerMsg = s.peerMsg := (rfl)
@[simp] theorem State.setReg_peerSent (s : State) (r : Reg) (w : Word) : (s.setReg r w).peerSent = s.peerSent := (rfl)
@[simp] theorem State.setReg_peerDone (s : State) (r : Reg) (w : Word) : (s.setReg r w).peerDone = s.peerDone := (rfl)
@[simp] theorem State.setReg_roomNow (s : State) (r : Reg) (w : Word) : (s.setReg r w).roomNow = s.roomNow := (rfl)
@[simp] theorem State.setReg_errRing (s : State) (r : Reg) (w : Word) : (s.setReg r w).errRing = s.errRing := (rfl)
@[simp] theorem State.setReg_fw (s : State) (r : Reg) (w : Word) : (s.setReg r w).fw = s.fw := (rfl)
@[simp] theorem State.setReg_nonce (s : State) (r : Reg) (w : Word) : (s.setReg r w).nonce = s.nonce := (rfl)
@[simp] theorem State.setReg_half (s : State) (r : Reg) (w : Word) : (s.setReg r w).half = s.half := (rfl)
@[simp] theorem State.setReg_sensors (s : State) (r : Reg) (w : Word) : (s.setReg r w).sensors = s.sensors := (rfl)
@[simp] theorem State.setReg_fresh0 (s : State) (r : Reg) (w : Word) : (s.setReg r w).fresh0 = s.fresh0 := (rfl)
@[simp] theorem State.setReg_fresh1 (s : State) (r : Reg) (w : Word) : (s.setReg r w).fresh1 = s.fresh1 := (rfl)
@[simp] theorem State.setReg_badLines (s : State) (r : Reg) (w : Word) : (s.setReg r w).badLines = s.badLines := (rfl)
@[simp] theorem State.setReg_dawnMs (s : State) (r : Reg) (w : Word) : (s.setReg r w).dawnMs = s.dawnMs := (rfl)
@[simp] theorem State.setReg_testing (s : State) (r : Reg) (w : Word) : (s.setReg r w).testing = s.testing := (rfl)
@[simp] theorem State.setReg_moving (s : State) (r : Reg) (w : Word) : (s.setReg r w).moving = s.moving := (rfl)
@[simp] theorem State.setReg_deferred (s : State) (r : Reg) (w : Word) : (s.setReg r w).deferred = s.deferred := (rfl)
@[simp] theorem State.setReg_wall (s : State) (r : Reg) (w : Word) : (s.setReg r w).wall = s.wall := (rfl)
@[simp] theorem State.setReg_free (s : State) (r : Reg) (w : Word) : (s.setReg r w).free = s.free := (rfl)
@[simp] theorem State.setReg_out (s : State) (r : Reg) (w : Word) : (s.setReg r w).out = s.out := (rfl)
@[simp] theorem State.setReg_pending (s : State) (r : Reg) (w : Word) : (s.setReg r w).pending = s.pending := (rfl)

/-! ### setRegFld -/

@[simp] theorem State.setRegFld_fuses (s : State) (r : Reg) (hi lo v : Nat) : (s.setRegFld r hi lo v).fuses = s.fuses := (rfl)
@[simp] theorem State.setRegFld_pins (s : State) (r : Reg) (hi lo v : Nat) : (s.setRegFld r hi lo v).pins = s.pins := (rfl)
@[simp] theorem State.setRegFld_staged (s : State) (r : Reg) (hi lo v : Nat) : (s.setRegFld r hi lo v).staged = s.staged := (rfl)
@[simp] theorem State.setRegFld_writer (s : State) (r : Reg) (hi lo v : Nat) : (s.setRegFld r hi lo v).writer = s.writer := (rfl)
@[simp] theorem State.setRegFld_latch (s : State) (r : Reg) (hi lo v : Nat) : (s.setRegFld r hi lo v).latch = s.latch := (rfl)
@[simp] theorem State.setRegFld_retained (s : State) (r : Reg) (hi lo v : Nat) : (s.setRegFld r hi lo v).retained = s.retained := (rfl)
@[simp] theorem State.setRegFld_tiles (s : State) (r : Reg) (hi lo v : Nat) : (s.setRegFld r hi lo v).tiles = s.tiles := (rfl)
@[simp] theorem State.setRegFld_stash (s : State) (r : Reg) (hi lo v : Nat) : (s.setRegFld r hi lo v).stash = s.stash := (rfl)
@[simp] theorem State.setRegFld_stashErr (s : State) (r : Reg) (hi lo v : Nat) : (s.setRegFld r hi lo v).stashErr = s.stashErr := (rfl)
@[simp] theorem State.setRegFld_mesh (s : State) (r : Reg) (hi lo v : Nat) : (s.setRegFld r hi lo v).mesh = s.mesh := (rfl)
@[simp] theorem State.setRegFld_meshCred (s : State) (r : Reg) (hi lo v : Nat) : (s.setRegFld r hi lo v).meshCred = s.meshCred := (rfl)
@[simp] theorem State.setRegFld_part0 (s : State) (r : Reg) (hi lo v : Nat) : (s.setRegFld r hi lo v).part0 = s.part0 := (rfl)
@[simp] theorem State.setRegFld_part1 (s : State) (r : Reg) (hi lo v : Nat) : (s.setRegFld r hi lo v).part1 = s.part1 := (rfl)
@[simp] theorem State.setRegFld_ports (s : State) (r : Reg) (hi lo v : Nat) : (s.setRegFld r hi lo v).ports = s.ports := (rfl)
@[simp] theorem State.setRegFld_rollMask (s : State) (r : Reg) (hi lo v : Nat) : (s.setRegFld r hi lo v).rollMask = s.rollMask := (rfl)
@[simp] theorem State.setRegFld_rollCmd (s : State) (r : Reg) (hi lo v : Nat) : (s.setRegFld r hi lo v).rollCmd = s.rollCmd := (rfl)
@[simp] theorem State.setRegFld_chans (s : State) (r : Reg) (hi lo v : Nat) : (s.setRegFld r hi lo v).chans = s.chans := (rfl)
@[simp] theorem State.setRegFld_bells (s : State) (r : Reg) (hi lo v : Nat) : (s.setRegFld r hi lo v).bells = s.bells := (rfl)
@[simp] theorem State.setRegFld_cmds (s : State) (r : Reg) (hi lo v : Nat) : (s.setRegFld r hi lo v).cmds = s.cmds := (rfl)
@[simp] theorem State.setRegFld_replies (s : State) (r : Reg) (hi lo v : Nat) : (s.setRegFld r hi lo v).replies = s.replies := (rfl)
@[simp] theorem State.setRegFld_nextCmd (s : State) (r : Reg) (hi lo v : Nat) : (s.setRegFld r hi lo v).nextCmd = s.nextCmd := (rfl)
@[simp] theorem State.setRegFld_peerMsg (s : State) (r : Reg) (hi lo v : Nat) : (s.setRegFld r hi lo v).peerMsg = s.peerMsg := (rfl)
@[simp] theorem State.setRegFld_peerSent (s : State) (r : Reg) (hi lo v : Nat) : (s.setRegFld r hi lo v).peerSent = s.peerSent := (rfl)
@[simp] theorem State.setRegFld_peerDone (s : State) (r : Reg) (hi lo v : Nat) : (s.setRegFld r hi lo v).peerDone = s.peerDone := (rfl)
@[simp] theorem State.setRegFld_roomNow (s : State) (r : Reg) (hi lo v : Nat) : (s.setRegFld r hi lo v).roomNow = s.roomNow := (rfl)
@[simp] theorem State.setRegFld_errRing (s : State) (r : Reg) (hi lo v : Nat) : (s.setRegFld r hi lo v).errRing = s.errRing := (rfl)
@[simp] theorem State.setRegFld_fw (s : State) (r : Reg) (hi lo v : Nat) : (s.setRegFld r hi lo v).fw = s.fw := (rfl)
@[simp] theorem State.setRegFld_nonce (s : State) (r : Reg) (hi lo v : Nat) : (s.setRegFld r hi lo v).nonce = s.nonce := (rfl)
@[simp] theorem State.setRegFld_half (s : State) (r : Reg) (hi lo v : Nat) : (s.setRegFld r hi lo v).half = s.half := (rfl)
@[simp] theorem State.setRegFld_sensors (s : State) (r : Reg) (hi lo v : Nat) : (s.setRegFld r hi lo v).sensors = s.sensors := (rfl)
@[simp] theorem State.setRegFld_fresh0 (s : State) (r : Reg) (hi lo v : Nat) : (s.setRegFld r hi lo v).fresh0 = s.fresh0 := (rfl)
@[simp] theorem State.setRegFld_fresh1 (s : State) (r : Reg) (hi lo v : Nat) : (s.setRegFld r hi lo v).fresh1 = s.fresh1 := (rfl)
@[simp] theorem State.setRegFld_badLines (s : State) (r : Reg) (hi lo v : Nat) : (s.setRegFld r hi lo v).badLines = s.badLines := (rfl)
@[simp] theorem State.setRegFld_dawnMs (s : State) (r : Reg) (hi lo v : Nat) : (s.setRegFld r hi lo v).dawnMs = s.dawnMs := (rfl)
@[simp] theorem State.setRegFld_testing (s : State) (r : Reg) (hi lo v : Nat) : (s.setRegFld r hi lo v).testing = s.testing := (rfl)
@[simp] theorem State.setRegFld_moving (s : State) (r : Reg) (hi lo v : Nat) : (s.setRegFld r hi lo v).moving = s.moving := (rfl)
@[simp] theorem State.setRegFld_deferred (s : State) (r : Reg) (hi lo v : Nat) : (s.setRegFld r hi lo v).deferred = s.deferred := (rfl)
@[simp] theorem State.setRegFld_wall (s : State) (r : Reg) (hi lo v : Nat) : (s.setRegFld r hi lo v).wall = s.wall := (rfl)
@[simp] theorem State.setRegFld_free (s : State) (r : Reg) (hi lo v : Nat) : (s.setRegFld r hi lo v).free = s.free := (rfl)
@[simp] theorem State.setRegFld_out (s : State) (r : Reg) (hi lo v : Nat) : (s.setRegFld r hi lo v).out = s.out := (rfl)
@[simp] theorem State.setRegFld_pending (s : State) (r : Reg) (hi lo v : Nat) : (s.setRegFld r hi lo v).pending = s.pending := (rfl)

/-! ### setRegBit -/

@[simp] theorem State.setRegBit_fuses (s : State) (r : Reg) (n : Nat) (b : Bool) : (s.setRegBit r n b).fuses = s.fuses := (rfl)
@[simp] theorem State.setRegBit_pins (s : State) (r : Reg) (n : Nat) (b : Bool) : (s.setRegBit r n b).pins = s.pins := (rfl)
@[simp] theorem State.setRegBit_staged (s : State) (r : Reg) (n : Nat) (b : Bool) : (s.setRegBit r n b).staged = s.staged := (rfl)
@[simp] theorem State.setRegBit_writer (s : State) (r : Reg) (n : Nat) (b : Bool) : (s.setRegBit r n b).writer = s.writer := (rfl)
@[simp] theorem State.setRegBit_latch (s : State) (r : Reg) (n : Nat) (b : Bool) : (s.setRegBit r n b).latch = s.latch := (rfl)
@[simp] theorem State.setRegBit_retained (s : State) (r : Reg) (n : Nat) (b : Bool) : (s.setRegBit r n b).retained = s.retained := (rfl)
@[simp] theorem State.setRegBit_tiles (s : State) (r : Reg) (n : Nat) (b : Bool) : (s.setRegBit r n b).tiles = s.tiles := (rfl)
@[simp] theorem State.setRegBit_stash (s : State) (r : Reg) (n : Nat) (b : Bool) : (s.setRegBit r n b).stash = s.stash := (rfl)
@[simp] theorem State.setRegBit_stashErr (s : State) (r : Reg) (n : Nat) (b : Bool) : (s.setRegBit r n b).stashErr = s.stashErr := (rfl)
@[simp] theorem State.setRegBit_mesh (s : State) (r : Reg) (n : Nat) (b : Bool) : (s.setRegBit r n b).mesh = s.mesh := (rfl)
@[simp] theorem State.setRegBit_meshCred (s : State) (r : Reg) (n : Nat) (b : Bool) : (s.setRegBit r n b).meshCred = s.meshCred := (rfl)
@[simp] theorem State.setRegBit_part0 (s : State) (r : Reg) (n : Nat) (b : Bool) : (s.setRegBit r n b).part0 = s.part0 := (rfl)
@[simp] theorem State.setRegBit_part1 (s : State) (r : Reg) (n : Nat) (b : Bool) : (s.setRegBit r n b).part1 = s.part1 := (rfl)
@[simp] theorem State.setRegBit_ports (s : State) (r : Reg) (n : Nat) (b : Bool) : (s.setRegBit r n b).ports = s.ports := (rfl)
@[simp] theorem State.setRegBit_rollMask (s : State) (r : Reg) (n : Nat) (b : Bool) : (s.setRegBit r n b).rollMask = s.rollMask := (rfl)
@[simp] theorem State.setRegBit_rollCmd (s : State) (r : Reg) (n : Nat) (b : Bool) : (s.setRegBit r n b).rollCmd = s.rollCmd := (rfl)
@[simp] theorem State.setRegBit_chans (s : State) (r : Reg) (n : Nat) (b : Bool) : (s.setRegBit r n b).chans = s.chans := (rfl)
@[simp] theorem State.setRegBit_bells (s : State) (r : Reg) (n : Nat) (b : Bool) : (s.setRegBit r n b).bells = s.bells := (rfl)
@[simp] theorem State.setRegBit_cmds (s : State) (r : Reg) (n : Nat) (b : Bool) : (s.setRegBit r n b).cmds = s.cmds := (rfl)
@[simp] theorem State.setRegBit_replies (s : State) (r : Reg) (n : Nat) (b : Bool) : (s.setRegBit r n b).replies = s.replies := (rfl)
@[simp] theorem State.setRegBit_nextCmd (s : State) (r : Reg) (n : Nat) (b : Bool) : (s.setRegBit r n b).nextCmd = s.nextCmd := (rfl)
@[simp] theorem State.setRegBit_peerMsg (s : State) (r : Reg) (n : Nat) (b : Bool) : (s.setRegBit r n b).peerMsg = s.peerMsg := (rfl)
@[simp] theorem State.setRegBit_peerSent (s : State) (r : Reg) (n : Nat) (b : Bool) : (s.setRegBit r n b).peerSent = s.peerSent := (rfl)
@[simp] theorem State.setRegBit_peerDone (s : State) (r : Reg) (n : Nat) (b : Bool) : (s.setRegBit r n b).peerDone = s.peerDone := (rfl)
@[simp] theorem State.setRegBit_roomNow (s : State) (r : Reg) (n : Nat) (b : Bool) : (s.setRegBit r n b).roomNow = s.roomNow := (rfl)
@[simp] theorem State.setRegBit_errRing (s : State) (r : Reg) (n : Nat) (b : Bool) : (s.setRegBit r n b).errRing = s.errRing := (rfl)
@[simp] theorem State.setRegBit_fw (s : State) (r : Reg) (n : Nat) (b : Bool) : (s.setRegBit r n b).fw = s.fw := (rfl)
@[simp] theorem State.setRegBit_nonce (s : State) (r : Reg) (n : Nat) (b : Bool) : (s.setRegBit r n b).nonce = s.nonce := (rfl)
@[simp] theorem State.setRegBit_half (s : State) (r : Reg) (n : Nat) (b : Bool) : (s.setRegBit r n b).half = s.half := (rfl)
@[simp] theorem State.setRegBit_sensors (s : State) (r : Reg) (n : Nat) (b : Bool) : (s.setRegBit r n b).sensors = s.sensors := (rfl)
@[simp] theorem State.setRegBit_fresh0 (s : State) (r : Reg) (n : Nat) (b : Bool) : (s.setRegBit r n b).fresh0 = s.fresh0 := (rfl)
@[simp] theorem State.setRegBit_fresh1 (s : State) (r : Reg) (n : Nat) (b : Bool) : (s.setRegBit r n b).fresh1 = s.fresh1 := (rfl)
@[simp] theorem State.setRegBit_badLines (s : State) (r : Reg) (n : Nat) (b : Bool) : (s.setRegBit r n b).badLines = s.badLines := (rfl)
@[simp] theorem State.setRegBit_dawnMs (s : State) (r : Reg) (n : Nat) (b : Bool) : (s.setRegBit r n b).dawnMs = s.dawnMs := (rfl)
@[simp] theorem State.setRegBit_testing (s : State) (r : Reg) (n : Nat) (b : Bool) : (s.setRegBit r n b).testing = s.testing := (rfl)
@[simp] theorem State.setRegBit_moving (s : State) (r : Reg) (n : Nat) (b : Bool) : (s.setRegBit r n b).moving = s.moving := (rfl)
@[simp] theorem State.setRegBit_deferred (s : State) (r : Reg) (n : Nat) (b : Bool) : (s.setRegBit r n b).deferred = s.deferred := (rfl)
@[simp] theorem State.setRegBit_wall (s : State) (r : Reg) (n : Nat) (b : Bool) : (s.setRegBit r n b).wall = s.wall := (rfl)
@[simp] theorem State.setRegBit_free (s : State) (r : Reg) (n : Nat) (b : Bool) : (s.setRegBit r n b).free = s.free := (rfl)
@[simp] theorem State.setRegBit_out (s : State) (r : Reg) (n : Nat) (b : Bool) : (s.setRegBit r n b).out = s.out := (rfl)
@[simp] theorem State.setRegBit_pending (s : State) (r : Reg) (n : Nat) (b : Bool) : (s.setRegBit r n b).pending = s.pending := (rfl)

/-! ### setPart -/

@[simp] theorem State.setPart_fuses (s : State) (p : Bool) (x : Part) : (s.setPart p x).fuses = s.fuses := by cases p <;> rfl
@[simp] theorem State.setPart_pins (s : State) (p : Bool) (x : Part) : (s.setPart p x).pins = s.pins := by cases p <;> rfl
@[simp] theorem State.setPart_office (s : State) (p : Bool) (x : Part) : (s.setPart p x).office = s.office := by cases p <;> rfl
@[simp] theorem State.setPart_staged (s : State) (p : Bool) (x : Part) : (s.setPart p x).staged = s.staged := by cases p <;> rfl
@[simp] theorem State.setPart_writer (s : State) (p : Bool) (x : Part) : (s.setPart p x).writer = s.writer := by cases p <;> rfl
@[simp] theorem State.setPart_latch (s : State) (p : Bool) (x : Part) : (s.setPart p x).latch = s.latch := by cases p <;> rfl
@[simp] theorem State.setPart_retained (s : State) (p : Bool) (x : Part) : (s.setPart p x).retained = s.retained := by cases p <;> rfl
@[simp] theorem State.setPart_tiles (s : State) (p : Bool) (x : Part) : (s.setPart p x).tiles = s.tiles := by cases p <;> rfl
@[simp] theorem State.setPart_stash (s : State) (p : Bool) (x : Part) : (s.setPart p x).stash = s.stash := by cases p <;> rfl
@[simp] theorem State.setPart_stashErr (s : State) (p : Bool) (x : Part) : (s.setPart p x).stashErr = s.stashErr := by cases p <;> rfl
@[simp] theorem State.setPart_mesh (s : State) (p : Bool) (x : Part) : (s.setPart p x).mesh = s.mesh := by cases p <;> rfl
@[simp] theorem State.setPart_meshCred (s : State) (p : Bool) (x : Part) : (s.setPart p x).meshCred = s.meshCred := by cases p <;> rfl
@[simp] theorem State.setPart_ports (s : State) (p : Bool) (x : Part) : (s.setPart p x).ports = s.ports := by cases p <;> rfl
@[simp] theorem State.setPart_rollMask (s : State) (p : Bool) (x : Part) : (s.setPart p x).rollMask = s.rollMask := by cases p <;> rfl
@[simp] theorem State.setPart_rollCmd (s : State) (p : Bool) (x : Part) : (s.setPart p x).rollCmd = s.rollCmd := by cases p <;> rfl
@[simp] theorem State.setPart_chans (s : State) (p : Bool) (x : Part) : (s.setPart p x).chans = s.chans := by cases p <;> rfl
@[simp] theorem State.setPart_bells (s : State) (p : Bool) (x : Part) : (s.setPart p x).bells = s.bells := by cases p <;> rfl
@[simp] theorem State.setPart_cmds (s : State) (p : Bool) (x : Part) : (s.setPart p x).cmds = s.cmds := by cases p <;> rfl
@[simp] theorem State.setPart_replies (s : State) (p : Bool) (x : Part) : (s.setPart p x).replies = s.replies := by cases p <;> rfl
@[simp] theorem State.setPart_nextCmd (s : State) (p : Bool) (x : Part) : (s.setPart p x).nextCmd = s.nextCmd := by cases p <;> rfl
@[simp] theorem State.setPart_peerMsg (s : State) (p : Bool) (x : Part) : (s.setPart p x).peerMsg = s.peerMsg := by cases p <;> rfl
@[simp] theorem State.setPart_peerSent (s : State) (p : Bool) (x : Part) : (s.setPart p x).peerSent = s.peerSent := by cases p <;> rfl
@[simp] theorem State.setPart_peerDone (s : State) (p : Bool) (x : Part) : (s.setPart p x).peerDone = s.peerDone := by cases p <;> rfl
@[simp] theorem State.setPart_roomNow (s : State) (p : Bool) (x : Part) : (s.setPart p x).roomNow = s.roomNow := by cases p <;> rfl
@[simp] theorem State.setPart_errRing (s : State) (p : Bool) (x : Part) : (s.setPart p x).errRing = s.errRing := by cases p <;> rfl
@[simp] theorem State.setPart_fw (s : State) (p : Bool) (x : Part) : (s.setPart p x).fw = s.fw := by cases p <;> rfl
@[simp] theorem State.setPart_nonce (s : State) (p : Bool) (x : Part) : (s.setPart p x).nonce = s.nonce := by cases p <;> rfl
@[simp] theorem State.setPart_half (s : State) (p : Bool) (x : Part) : (s.setPart p x).half = s.half := by cases p <;> rfl
@[simp] theorem State.setPart_sensors (s : State) (p : Bool) (x : Part) : (s.setPart p x).sensors = s.sensors := by cases p <;> rfl
@[simp] theorem State.setPart_fresh0 (s : State) (p : Bool) (x : Part) : (s.setPart p x).fresh0 = s.fresh0 := by cases p <;> rfl
@[simp] theorem State.setPart_fresh1 (s : State) (p : Bool) (x : Part) : (s.setPart p x).fresh1 = s.fresh1 := by cases p <;> rfl
@[simp] theorem State.setPart_badLines (s : State) (p : Bool) (x : Part) : (s.setPart p x).badLines = s.badLines := by cases p <;> rfl
@[simp] theorem State.setPart_dawnMs (s : State) (p : Bool) (x : Part) : (s.setPart p x).dawnMs = s.dawnMs := by cases p <;> rfl
@[simp] theorem State.setPart_testing (s : State) (p : Bool) (x : Part) : (s.setPart p x).testing = s.testing := by cases p <;> rfl
@[simp] theorem State.setPart_moving (s : State) (p : Bool) (x : Part) : (s.setPart p x).moving = s.moving := by cases p <;> rfl
@[simp] theorem State.setPart_deferred (s : State) (p : Bool) (x : Part) : (s.setPart p x).deferred = s.deferred := by cases p <;> rfl
@[simp] theorem State.setPart_wall (s : State) (p : Bool) (x : Part) : (s.setPart p x).wall = s.wall := by cases p <;> rfl
@[simp] theorem State.setPart_free (s : State) (p : Bool) (x : Part) : (s.setPart p x).free = s.free := by cases p <;> rfl
@[simp] theorem State.setPart_out (s : State) (p : Bool) (x : Part) : (s.setPart p x).out = s.out := by cases p <;> rfl
@[simp] theorem State.setPart_pending (s : State) (p : Bool) (x : Part) : (s.setPart p x).pending = s.pending := by cases p <;> rfl

/-! ### Reading back -/

@[simp] theorem State.tile_setTile (s : State) (t : Nat) (x : Tile) : (s.setTile t x).tile t = x := Bank.get_set_same _ _ _ _
theorem State.tile_setTile_ne (s : State) (t u : Nat) (x : Tile) (h : u ≠ t) : (s.setTile t x).tile u = s.tile u :=
  Bank.get_set_ne _ _ _ h
@[simp] theorem State.port_setPort (s : State) (l : Nat) (x : Port) : (s.setPort l x).port l = x := Bank.get_set_same _ _ _ _
theorem State.port_setPort_ne (s : State) (l m : Nat) (x : Port) (h : m ≠ l) : (s.setPort l x).port m = s.port m :=
  Bank.get_set_ne _ _ _ h
@[simp] theorem State.chan_setChan (s : State) (c : Nat) (x : Channel) : (s.setChan c x).chan c = x := Bank.get_set_same _ _ _ _
theorem State.chan_setChan_ne (s : State) (c d : Nat) (x : Channel) (h : d ≠ c) : (s.setChan c x).chan d = s.chan d :=
  Bank.get_set_ne _ _ _ h
@[simp] theorem State.part_setPart (s : State) (p : Bool) (x : Part) : (s.setPart p x).part p = x := by cases p <;> rfl
theorem State.part_setPart_ne (s : State) (p q : Bool) (x : Part) (h : q ≠ p) : (s.setPart p x).part q = s.part q := by
  cases p <;> cases q <;> first | exact absurd rfl h | rfl
@[simp] theorem State.reg_setReg (s : State) (r : Reg) (w : Word) : (s.setReg r w).reg r = w := Bank.get_set_same _ _ _ _
theorem State.reg_setReg_ne (s : State) (r q : Reg) (w : Word) (h : q.addr ≠ r.addr) : (s.setReg r w).reg q = s.reg q :=
  Bank.get_set_ne _ _ _ h

/-! ### Other views of an untouched field -/

@[simp] theorem State.reg_setTile (s : State) (t : Nat) (x : Tile) (r : Reg) : (s.setTile t x).reg r = s.reg r := (rfl)
@[simp] theorem State.reg_setPort (s : State) (l : Nat) (x : Port) (r : Reg) : (s.setPort l x).reg r = s.reg r := (rfl)
@[simp] theorem State.reg_setChan (s : State) (c : Nat) (x : Channel) (r : Reg) : (s.setChan c x).reg r = s.reg r := (rfl)
@[simp] theorem State.reg_emit (s : State) (o : Out) (r : Reg) : (s.emit o).reg r = s.reg r := (rfl)
@[simp] theorem State.reg_draw (s : State) (r : Reg) : s.draw.reg r = s.reg r := (rfl)
@[simp] theorem State.reg_setPart (s : State) (p : Bool) (x : Part) (r : Reg) : (s.setPart p x).reg r = s.reg r := by
  cases p <;> rfl
@[simp] theorem State.tile_setReg (s : State) (r : Reg) (w : Word) (t : Nat) : (s.setReg r w).tile t = s.tile t := (rfl)
@[simp] theorem State.tile_setPort (s : State) (l : Nat) (x : Port) (t : Nat) : (s.setPort l x).tile t = s.tile t := (rfl)
@[simp] theorem State.tile_emit (s : State) (o : Out) (t : Nat) : (s.emit o).tile t = s.tile t := (rfl)
@[simp] theorem State.tile_draw (s : State) (t : Nat) : s.draw.tile t = s.tile t := (rfl)
@[simp] theorem State.tile_setPart (s : State) (p : Bool) (x : Part) (t : Nat) : (s.setPart p x).tile t = s.tile t := by
  cases p <;> rfl
@[simp] theorem State.port_setReg (s : State) (r : Reg) (w : Word) (l : Nat) : (s.setReg r w).port l = s.port l := (rfl)
@[simp] theorem State.port_setTile (s : State) (t : Nat) (x : Tile) (l : Nat) : (s.setTile t x).port l = s.port l := (rfl)
@[simp] theorem State.part_setReg (s : State) (r : Reg) (w : Word) (p : Bool) : (s.setReg r w).part p = s.part p := (rfl)
@[simp] theorem State.part_setTile (s : State) (t : Nat) (x : Tile) (p : Bool) : (s.setTile t x).part p = s.part p := (rfl)
@[simp] theorem State.part_setPort (s : State) (l : Nat) (x : Port) (p : Bool) : (s.setPort l x).part p = s.part p := (rfl)

end Sys2Proof.Machine
end

