-- ==== Sys2Proof/Laws/Mem.lean ====
section
/-! SUPPORT. Desk, shelf and stash memory: every memory operation keeps the canonical form, and what a record or a mark leaves
alone in the tiles. -/

set_option Elab.async false

namespace Sys2Proof.Machine

/-! ### Records and marks -/

/-- An error record leaves the tiles and the stash alone. -/
theorem State.logErr_mem (s : State) (e : ErrEv) : (s.logErr e).tiles = s.tiles ∧ (s.logErr e).stash = s.stash := by
  unfold State.logErr
  extract_lets b ring s1 s2
  have h : s2.tiles = s.tiles ∧ s2.stash = s.stash := ⟨(rfl), (rfl)⟩
  clear_value s2
  split
  · exact h
  · exact h

@[simp] theorem State.logErr_tile (s : State) (e : ErrEv) (t : Nat) : (s.logErr e).tile t = s.tile t := by
  unfold State.tile; rw [(s.logErr_mem e).1]
@[simp] theorem State.logErr_stash (s : State) (e : ErrEv) : (s.logErr e).stash = s.stash := (s.logErr_mem e).2
@[simp] theorem State.tileErr_tile (s : State) (c : Ctx) (code cls loc : Nat) (syn : Bytes) (t : Nat) :
    (s.tileErr c code cls loc syn).tile t = s.tile t := s.logErr_tile _ t
@[simp] theorem State.tileErr_stash (s : State) (c : Ctx) (code cls loc : Nat) (syn : Bytes) :
    (s.tileErr c code cls loc syn).stash = s.stash := s.logErr_stash _
@[simp] theorem State.tile_setRegFld (s : State) (r : Reg) (hi lo v t : Nat) : (s.setRegFld r hi lo v).tile t = s.tile t := (rfl)

/-! ### The canonical form -/

/-- At reset nothing is listed. -/
theorem reset_memWf : State.reset.memWf := by
  refine ⟨fun t => ?_, Bank.wf_nil _⟩
  have : State.reset.tile t = {} := (rfl)
  rw [this]; exact ⟨Bank.wf_nil _, Bank.wf_nil _⟩

/-- Memories that did not change stay in form. -/
theorem State.memWf_of_eq {s u : State} (h : s.memWf) (ht : ∀ t, u.tile t = s.tile t) (hs : u.stash = s.stash) : u.memWf :=
  ⟨fun t => by rw [ht t]; exact h.1 t, hs ▸ h.2⟩

/-- A tile written with memories in form. -/
theorem State.memWf_setTile {s : State} (h : s.memWf) (t : Nat) {x : Tile} (hd : Memory.wf x.desk) (hs : Memory.wf x.shelf) :
    (s.setTile t x).memWf := by
  refine ⟨fun u => ?_, h.2⟩
  by_cases e : u = t
  · subst e; simpa using ⟨hd, hs⟩
  · rw [State.tile_setTile_ne _ _ _ _ e]; exact h.1 u

theorem State.memWf_setReg {s : State} (h : s.memWf) (r : Reg) (w : Word) : (s.setReg r w).memWf :=
  State.memWf_of_eq h (fun _ => rfl) rfl

theorem State.memWf_setRegFld {s : State} (h : s.memWf) (r : Reg) (hi lo v : Nat) : (s.setRegFld r hi lo v).memWf :=
  State.memWf_setReg h r _

theorem State.memWf_draw {s : State} (h : s.memWf) : s.draw.memWf := State.memWf_of_eq h (fun _ => rfl) rfl

theorem State.memWf_logErr {s : State} (h : s.memWf) (e : ErrEv) : (s.logErr e).memWf :=
  State.memWf_of_eq h (s.logErr_tile e) (s.logErr_stash e)

theorem State.memWf_tileErr {s : State} (h : s.memWf) (c : Ctx) (code cls loc : Nat) (syn : Bytes) :
    (s.tileErr c code cls loc syn).memWf := State.memWf_logErr h _

theorem State.memWf_markTile {s : State} (h : s.memWf) (t cause : Nat) : (s.markTile t cause).memWf :=
  State.memWf_setTile h t (h.1 t).1 (h.1 t).2

theorem State.memWf_foldl {α : Type} (f : State → α → State) (l : List α) {s : State} (h : s.memWf)
    (hf : ∀ a x, a.memWf → (f a x).memWf) : (l.foldl f s).memWf := by
  induction l generalizing s with
  | nil => exact h
  | cons x l ih => exact ih (hf _ _ h)

theorem State.memWf_rangeFault {s : State} (h : s.memWf) (c : Ctx) (shelf : Bool) (addr : Nat) : (s.rangeFault c shelf addr).memWf :=
  State.memWf_tileErr (State.memWf_markTile h _ _) _ _ _ _ _

theorem State.memWf_rangeCheck {s : State} (h : s.memWf) (c : Ctx) (shelf : Bool) (accs : List (Nat × Nat)) :
    (s.rangeCheck c shelf accs).memWf := by
  unfold State.rangeCheck
  split
  · exact State.memWf_rangeFault h _ _ _
  · exact h

theorem State.memWf_wordRead {s : State} (h : s.memWf) (c : Ctx) (shelf : Bool) (addr : Nat) (bad : Bool) :
    (s.wordRead c shelf addr bad).memWf := by
  unfold State.wordRead
  extract_lets k x w s1 f s2 y u1 u2 u3 u4
  have h1 : s1.memWf := State.memWf_draw (State.memWf_tileErr h _ _ _ _ _)
  clear_value s1
  have h2 : s2.memWf := by
    unfold s2
    split <;> exact State.memWf_setRegFld h1 _ _ _ _
  clear_value s2
  have g1 : u1.memWf := State.memWf_setTile h c.t (h.1 c.t).1 (h.1 c.t).2
  clear_value u1
  have g2 : u2.memWf := State.memWf_draw (State.memWf_tileErr g1 _ _ _ _ _)
  clear_value u2
  have g4 : u4.memWf := State.memWf_setReg (State.memWf_setReg g2 _ _) _ _
  clear_value u4
  split
  · exact h
  · split
    · exact State.memWf_setTile h2 c.t (h2.1 c.t).1 (h2.1 c.t).2
    · split
      · exact State.memWf_markTile g4 _ _
      · exact g4

/-- A read leaves the memories in form. -/
theorem State.memWf_readMem {s : State} (h : s.memWf) (c : Ctx) (shelf : Bool) (addr n : Nat) :
    (s.readMem c shelf addr n).2.memWf := by
  refine State.memWf_rangeCheck ?_ _ _ _
  unfold State.readCore
  dsimp only
  split
  · exact h
  · exact State.memWf_foldl _ _ h fun _ _ ha => State.memWf_wordRead ha _ _ _ _

theorem State.memWf_readSegs {s : State} (h : s.memWf) (c : Ctx) (segs : List (Nat × Nat)) : (s.readSegs c segs).2.memWf :=
  State.memWf_foldl _ _ h fun _ _ ha => State.memWf_wordRead ha _ _ _ _

theorem State.memWf_cleanWord {s : State} (h : s.memWf) (t k : Nat) : (s.cleanWord t k).memWf :=
  State.memWf_setTile h t (h.1 t).1 (h.1 t).2

theorem State.memWf_coverWord {s : State} (h : s.memWf) (c : Ctx) (shelf : Bool) (w : Nat) (whole : Bool) :
    (s.coverWord c shelf w whole).memWf := by
  unfold State.coverWord
  dsimp only
  split
  · exact State.memWf_cleanWord h _ _
  · split
    · exact State.memWf_cleanWord (State.memWf_wordRead h _ _ _ _) _ _
    · exact State.memWf_wordRead h _ _ _ _

theorem State.memWf_coverWords {s : State} (h : s.memWf) (c : Ctx) (shelf : Bool) (addr n : Nat) :
    (s.coverWords c shelf addr n).memWf :=
  State.memWf_foldl _ _ h fun _ _ ha => State.memWf_coverWord ha _ _ _ _

/-- An engine's write leaves the memories in form as it cleans the words that it reaches. -/
theorem State.memWf_coverHalves {s : State} (h : s.memWf) (t : Nat) (shelf : Bool) (hs : List Nat) :
    (s.coverHalves t shelf hs).memWf :=
  State.memWf_foldl _ _ h fun _ _ ha => by
    split
    · exact State.memWf_coverWord ha _ _ _ _
    · exact ha

theorem State.memWf_putMem {s : State} (h : s.memWf) (t : Nat) (shelf : Bool) (addr : Nat) (b : Bytes) :
    (s.putMem t shelf addr b).memWf := by
  cases shelf
  · exact State.memWf_setTile h _ (Bank.wf_putBytes (h.1 t).1 _ _) (h.1 t).2
  · exact State.memWf_setTile h _ (h.1 t).1 (Bank.wf_putBytes (h.1 t).2 _ _)

theorem State.memWf_writeCore {s : State} (h : s.memWf) (c : Ctx) (shelf : Bool) (addr : Nat) (b : Bytes) :
    (s.writeCore c shelf addr b).memWf := by
  unfold State.writeCore
  dsimp only
  split
  · exact h
  · exact State.memWf_putMem (State.memWf_coverWords h _ _ _ _) _ _ _ _

/-- A write leaves the memories in form. -/
theorem State.memWf_writeMem {s : State} (h : s.memWf) (c : Ctx) (shelf : Bool) (addr : Nat) (b : Bytes) :
    (s.writeMem c shelf addr b).memWf := State.memWf_rangeCheck (State.memWf_writeCore h _ _ _ _) _ _ _

theorem State.memWf_writeSegs {s : State} (h : s.memWf) (c : Ctx) (segs : List (Nat × Bytes)) : (s.writeSegs c segs).memWf :=
  State.memWf_foldl _ _ h fun _ _ ha => State.memWf_writeCore ha _ _ _ _

theorem State.memWf_poison {s : State} (h : s.memWf) (t : Nat) (shelf : Bool) (addr n : Nat) : (s.poison t shelf addr n).memWf :=
  State.memWf_setTile h _ (h.1 t).1 (h.1 t).2

theorem State.memWf_closedFault {s : State} (h : s.memWf) (c : Ctx) (addr n : Nat) : (s.closedFault c addr n).memWf := by
  unfold State.closedFault
  split
  · exact h
  · exact State.memWf_foldl _ _ h fun _ _ ha => State.memWf_tileErr (State.memWf_markTile ha _ _) _ _ _ _ _

theorem State.memWf_writeShelf {s : State} (h : s.memWf) (c : Ctx) (addr : Nat) (b : Bytes) : (s.writeShelf c addr b).memWf :=
  State.memWf_closedFault (State.memWf_writeMem h c true addr b) _ _ _

theorem State.memWf_writeLocal {s : State} (h : s.memWf) (c : Ctx) (shelf : Bool) (addr : Nat) (b : Bytes) :
    (s.writeLocal c shelf addr b).memWf := by
  cases shelf
  · exact State.memWf_writeMem h _ _ _ _
  · exact State.memWf_writeShelf h _ _ _

theorem State.memWf_stashLine {s : State} (h : s.memWf) (line : Nat) (p : Option Bool) : (s.stashLine line p).2.memWf := by
  unfold State.stashLine
  split
  · exact h
  · split
    · exact State.memWf_of_eq (State.memWf_draw (State.memWf_logErr (State.memWf_setRegFld h _ _ _ _) _)) (fun _ => rfl) rfl
    · exact State.memWf_draw (State.memWf_logErr (State.memWf_setReg h _ _) _)

/-- A read of stash lines leaves the memories in form. -/
theorem State.memWf_readStash {s : State} (h : s.memWf) (phys lines : Nat) (p : Option Bool) :
    (s.readStash phys lines p).2.2.memWf := by
  unfold State.readStash
  dsimp only
  suffices ∀ (l : List Nat) (a : List Bool × State), a.2.memWf →
      (l.foldl (fun (acc : List Bool × State) i =>
        (acc.1 ++ [(acc.2.stashLine ((phys + 64 * i) / 64) p).1], (acc.2.stashLine ((phys + 64 * i) / 64) p).2)) a).2.memWf from
    this _ _ h
  intro l
  induction l with
  | nil => exact fun _ ha => ha
  | cons x l ih => exact fun a ha => ih _ (State.memWf_stashLine ha _ _)

/-- The reads of the page table leave the memories in form. -/
theorem State.memWf_walk {s : State} (h : s.memWf) (p : Bool) (as : List Nat) : (s.walk p as).memWf := by
  unfold State.walk
  induction (as.map (tableLine p)).eraseDups generalizing s with
  | nil => exact h
  | cons x l ih => exact ih (State.memWf_stashLine h _ _)

/-- A write of stash lines leaves the memories in form. -/
theorem State.memWf_writeStash {s : State} (h : s.memWf) (phys : Nat) (b : Bytes) : (s.writeStash phys b).memWf :=
  ⟨h.1, Bank.wf_putBytes h.2 _ _⟩

end Sys2Proof.Machine
end

