-- ==== Sys2Proof/Laws/MemWide.lean ====
section
/-! SUPPORT. The operations that move whole ranges of memory keep the canonical form: the load engine's bytes, page copies, the page
table, the eraser's and the reset's zeros, the save slots of a pre-emption. -/

set_option Elab.async false

namespace Sys2Proof.Machine

/-- A slice of a memory is in form wherever it lands. -/
theorem Bank.wf_slice {m : Bank Byte} (h : Bank.wf zeroByte m) (lo hi dst : Nat) : Bank.wf zeroByte (Bank.slice m lo hi dst) := by
  have hf := Bank.wf_filter h fun e => decide (lo ≤ e.1) && decide (e.1 < hi)
  refine ⟨?_, ?_⟩
  · refine List.pairwise_map.2 (hf.1.imp_of_mem fun {x y} hx _ hxy => ?_)
    have hx' := (List.mem_filter.1 hx).2
    have : lo ≤ x.1 := of_decide_eq_true (Bool.and_eq_true_iff.1 hx').1
    show x.1 - lo + dst < y.1 - lo + dst
    omega
  · intro e he
    obtain ⟨x, hx, rfl⟩ := List.mem_map.1 he
    exact hf.2 x hx

/-- The load engine's byte. -/
theorem State.memWf_putByte {s : State} (h : s.memWf) (p : Bool) (l : Lesson) (e : Placement) (a : Nat) (b : Byte) :
    (s.putByte p l e a b).memWf := by
  unfold State.putByte
  split
  · split
    · exact State.memWf_putMem h _ _ _ _
    · exact h
  · dsimp only
    split
    · exact ⟨h.1, Bank.wf_set h.2 _ _⟩
    · exact h

/-- Stash bytes at zero. -/
theorem State.memWf_zeroStash {s : State} (h : s.memWf) (lo hi : Nat) : (s.zeroStash lo hi).memWf := ⟨h.1, Bank.wf_clear h.2 _ _⟩

/-- A page table entry. -/
theorem State.memWf_loadPage {s : State} (h : s.memWf) (p : Bool) (e : Nat × Bool) : (s.loadPage p e).memWf := by
  unfold State.loadPage
  split
  · exact ⟨h.1, Bank.wf_putBytes h.2 _ _⟩
  · exact h

/-- A fold that carries the state second keeps the form where each step does. -/
theorem State.memWf_foldl_snd {α β : Type} (f : β × State → α → β × State) (l : List α) {b : β × State} (h : b.2.memWf)
    (hf : ∀ a x, a.2.memWf → (f a x).2.memWf) : (l.foldl f b).2.memWf := by
  induction l generalizing b with
  | nil => exact h
  | cons x l ih => exact ih (hf _ _ h)

/-- Copied pages of stash memory. -/
theorem State.memWf_copyPages {s : State} (h : s.memWf) (p : Bool) (src dst n : Nat) : (s.copyPages p src dst n).2.memWf := by
  refine State.memWf_foldl_snd _ _ h fun acc i ha => ?_
  split
  · next a b _ _ =>
    extract_lets r old s1
    have hr : r.2.memWf := State.memWf_foldl_snd _ _ (State.memWf_walk ha _ _) fun q line hq => State.memWf_stashLine hq _ _
    clear_value r
    refine State.memWf_foldl _ _ ⟨hr.1, Bank.wf_copy hr.2 _ _ _ _⟩ fun z e hz => ⟨hz.1, Bank.wf_putBytes hz.2 _ _⟩
  · exact ha

/-- A memory after its bytes were all put in a bank that is in form. -/
theorem Bank.wf_foldl {α : Type} (f : Bank Byte → α → Bank Byte) (l : List α) {m : Bank Byte} (h : Bank.wf zeroByte m)
    (hf : ∀ a x, Bank.wf zeroByte a → Bank.wf zeroByte (f a x)) : Bank.wf zeroByte (l.foldl f m) := by
  induction l generalizing m with
  | nil => exact h
  | cons x l ih => exact ih (hf _ _ h)

/-- Save slots at zero. -/
theorem State.memWf_zeroSlots {s : State} (h : s.memWf) (f : Nat) : (s.zeroSlots f).memWf :=
  State.memWf_foldl _ _ h fun _ _ ha => State.memWf_zeroStash ha _ _

/-- The save slots of a pre-emption. -/
theorem State.memWf_writeSlots {s : State} (h : s.memWf) (p : Bool) : (s.writeSlots p).memWf :=
  ⟨(State.memWf_zeroSlots h _).1,
    Bank.wf_foldl _ _ (State.memWf_zeroSlots h _).2 fun _ _ ha => Bank.wf_setAll _ (Bank.wf_setAll _ ha)⟩

/-- The memories of a tile that comes back from its save slot. -/
theorem State.memWf_withImages {s : State} (h : s.memWf) (t : Nat) (x : Tile) :
    Memory.wf (s.withImages t x).desk ∧ Memory.wf (s.withImages t x).shelf :=
  ⟨Bank.wf_slice h.2 _ _ _, Bank.wf_slice h.2 _ _ _⟩

end Sys2Proof.Machine
end

