-- ==== Sys2Proof/Tests/Slice0.lean ====
section
/-! SUPPORT. Tests: ill-formed commands that WellFormed refuses, words of the encoding tables written out, single steps, and for
the statements a concrete state and operands that meet their hypotheses. -/

set_option Elab.async false


namespace Sys2Proof.Tests

open Sys2Proof Sys2Proof.Machine

/-! ### Helpers -/

/-- A state with registers set. -/
def regs (l : List (Reg × Word)) (s : State) : State := l.foldl (fun acc e => acc.setReg e.1 e.2) s

/-- Partition 0 has every field and its bells run; the part is ready, with the hosts and management up. -/
def live : State := regs [(.secPartmap, 0xF), (.bellStat false, 0x80000000), (.testStat, 0x80000000)]
  { pins := { mgmt := true, hostA := true, hostB := true, pgoodN := false, resetN := true } }

/-- Where the tests issue: tile 0. -/
def at0 : Issue := ⟨0, 0⟩

/-- A vector instruction v1 ← v2 op v3 over one register. -/
def va0 : VArgs := ⟨1, 2, 3, 0, 0, 0, 0, 0⟩

/-- The state after a command, or the state itself. -/
def after (c : Instr) (s : State) : State :=
  match exec c s with
  | .next t => t
  | _ => s

/-- A lesson of one part on a 48 × 46 grid. -/
def les : Lesson := { (default : Lesson) with cols := 46, parts := 1, periods := 10, digest := List.replicate 48 1 }

/-- The live state with that lesson loaded. -/
def taught : State := live.setPart false { lesson := some les }

/-! ### Ill-formed commands -/

theorem illformed_tile : (Instr.add ⟨2500, 0⟩ va0).wf = false ∧ (Instr.add ⟨2499, 0⟩ va0).wf = true := by decide
theorem illformed_stream : (Instr.meshFlitArrival 0 16).wf = false ∧ (Instr.meshFlitArrival 0 15).wf = true := by decide
theorem illformed_port : (Instr.linkSilenceTimeout 20).wf = false ∧ (Instr.linkSilenceTimeout 19).wf = true := by decide
theorem illformed_lane : (Instr.laneFailure 0 5).wf = false ∧ (Instr.laneFailure 0 4).wf = true := by decide
theorem illformed_queue : (Instr.meshCreditReturn true 0 192).wf = false ∧ (Instr.meshCreditReturn true 0 191).wf = true := by
  decide
theorem illformed_slot : (Instr.frameSlot 0 0 78).wf = false ∧ (Instr.frameSlot 0 0 77).wf = true := by decide
theorem illformed_channel : (Instr.dmaHostTimeout 512).wf = false ∧ (Instr.dmaHostTimeout 511).wf = true := by decide
theorem illformed_ring : (Instr.cmdCtail .hostA false 256 0).wf = false ∧ (Instr.cmdCtail .hostA false 255 0).wf = true := by decide
theorem illformed_hole : (Instr.claim .hostA 0 64).wf = false ∧ (Instr.claim .hostA 0 63).wf = true := by decide
theorem illformed_lines : (Instr.scrubLine 0 16384 0).wf = false ∧ (Instr.scrubLine 0 0 65536).wf = false ∧
    (Instr.scrubLine 0 16383 65535).wf = true := by decide
theorem illformed_stash_line : (Instr.stashScrub 0x60000000).wf = false ∧ (Instr.stashScrub 0x5FFFFFFF).wf = true := by decide
theorem illformed_monitor : (Instr.monitorReady 6).wf = false ∧ (Instr.monitorReady 5).wf = true := by decide
theorem illformed_stage : (Instr.powerStageFault 8 0 0).wf = false ∧ (Instr.powerStageFault 7 0 0).wf = true := by decide
theorem illformed_sensor : (Instr.sensorReport 4 1 0).wf = false ∧ (Instr.sensorReport 5 8 0).wf = false ∧
    (Instr.sensorReport 5 7 0).wf = true := by decide
theorem illformed_connection : (Instr.storageConnectionFailure 16).wf = false ∧ (Instr.storageConnectionFailure 15).wf = true := by
  decide
theorem illformed_address : (Instr.registerWrite .hostA 0x1000000 0 15).wf = false ∧
    (Instr.registerWrite .hostA 0xFFFFFC 0 15).wf = true := by decide
theorem illformed_items : (Instr.dawnTestComplete (List.replicate 8 1) 0 [] [] 0).wf = false ∧
    (Instr.dawnTestComplete [] 0 [(0, 5)] [] 0).wf = false ∧ (Instr.duskTestComplete [] 0 [] [2500]).wf = false ∧
    (Instr.dawnTestComplete (List.replicate 7 1) 0 [(19, 4)] [2499] 0).wf = true := by decide
theorem illformed_requester : (Instr.getVersion .principal []).wf = false ∧ (Instr.getVersion .mgmt []).wf = true := by decide
theorem illformed_packet : (Instr.identify { (default : Packet) with issuer := .hostA, params := [] }).wf = false ∧
    (Instr.identify { (default : Packet) with issuer := .hostA, ring := 256, params := List.replicate 56 0 }).wf = false ∧
    (Instr.identify { (default : Packet) with issuer := .monitor, params := List.replicate 56 0 }).wf = false ∧
    (Instr.identify { (default : Packet) with issuer := .hostA, params := List.replicate 56 0 }).wf = true := by decide
theorem illformed_operands : (Instr.laneCeWindow 0 [0]).wf = false ∧ (Instr.bell false 2500 0 0 0).wf = false ∧
    (Instr.bell false 0xFFFF 0 0 0).wf = true ∧ (Instr.waveRegionCopyComplete false 0 64 true).wf = false ∧
    (Instr.cmdRhead .hostA false 256 0).wf = false := by decide

/-! ### Words of the encoding tables (R72, R97, R99, R132, R217, R241) -/

/-- VX.FP ADD, v1 ← v2 + v3: 0x20 at [63:58], function 0, vd 1 at [51:47], va 2 at [46:42], vb 3 at [41:37]. -/
theorem word_add : wordInstr at0 1 (0x20 * 2 ^ 58 + 2 ^ 47 + 2 * 2 ^ 42 + 3 * 2 ^ 37) = some (.add at0 va0) := by decide +kernel
/-- VX.CTL SIMM: scalar 5 at [40:37] takes the low 32 bits. -/
theorem word_simm : wordInstr at0 1 (0x2C * 2 ^ 58 + 2 ^ 52 + 5 * 2 ^ 37 + 0xDEADBEEF) = some (.simm at0 5 0xDEADBEEF) := by
  decide +kernel
/-- MX.RUN: format 4 at [57:54], start at [52], swap at [51], rows 7 at [49:44], source 1 at [43:42], address at [41:22]. -/
theorem word_run : wordInstr at0 0 (0x31 * 2 ^ 58 + 4 * 2 ^ 54 + 2 ^ 52 + 2 ^ 51 + 7 * 2 ^ 44 + 2 ^ 42 + 0x400 * 2 ^ 22 + 9) =
    some (.mxRun at0 ⟨4, false, true, true, 7, 1, 0x400, 9⟩) := by decide +kernel
/-- MM.WAIT: counter 2 at [57:56], consume at [55], n at [15:0]; a reserved bit set spells none. -/
theorem word_wait : wordInstr at0 2 (0x3A * 2 ^ 58 + 2 * 2 ^ 56 + 2 ^ 55 + 300) = some (.mmWait at0 ⟨2, true, 300⟩) ∧
    wordInstr at0 2 (0x3A * 2 ^ 58 + 2 ^ 16) = none := by decide +kernel
/-- ED.SEAL: function 3 at [57:55], region 33 at [53:48]. -/
theorem word_seal : wordInstr at0 2 (0x3C * 2 ^ 58 + 3 * 2 ^ 55 + 33 * 2 ^ 48) = some (.edSeal at0 ⟨33, 0, 0⟩) := by decide +kernel
/-- MM.TXFER: direction 1 (receive) at [57], 3 flits at [56:49], desk line 17 at [48:35], stream 4 at [34:31]. -/
theorem word_trecv : wordInstr at0 2 (0x3D * 2 ^ 58 + 2 ^ 57 + 3 * 2 ^ 49 + 17 * 2 ^ 35 + 4 * 2 ^ 31) =
    some (.trecv at0 ⟨3, 17, 4, false⟩) := by decide +kernel
/-- The table gives no command bits. -/
theorem no_table_word : decodeTableWord 32 5 = none ∧ live.withFetchWord 32 5 = live := by decide +kernel
/-! ### Witnesses: the step, the gate and the vector pipe -/

theorem wit_StepRunsFrontCommand : ({ live with pending := [.pps, .powerOn] } : State).pending = Instr.pps :: [.powerOn] ∧
    live.pending = [] := by decide +kernel

/-- Tile 0 stalls on a wait. -/
def stalled : State := live.setTile 0 { stall := some (.mmWait at0 ⟨0, false, 1⟩) }

theorem wit_TileInstructionGate : issueOf (.add at0 va0) = some at0 ∧ issueOf (.add ⟨2500, 0⟩ va0) = some ⟨2500, 0⟩ ∧
    wordOk (.add at0 va0) = true ∧ wordOk (.fround at0 { va0 with g := 0x1C0000 }) = false ∧
    State.reset.tileLive 0 = false ∧ stalled.tileLive 0 = true ∧ (stalled.tile 0).stalled = true := by decide +kernel

theorem live_ready : live.Ready 0 := ⟨by decide, by decide +kernel, by decide +kernel⟩

theorem wit_VectorFloatArithmetic : live.Ready at0.tile ∧ fpOk va0 = true ∧ trOk va0 = true :=
  ⟨live_ready, by decide +kernel, by decide +kernel⟩

theorem wit_VectorIntegerAndConversion : live.Ready at0.tile ∧ intOk va0 = true ∧ wordOk (.iota at0 { va0 with g := 65535 }) = true ∧
    wordOk (.mov at0 va0) = true ∧ wordOk (.bcast at0 { va0 with g := 63 }) = true ∧ wordOk (.fround at0 va0) = true ∧
    wordOk (.f2i at0 va0) = true ∧ wordOk (.i2f at0 va0) = true ∧ wordOk (.srnd at0 va0) = true ∧
    live.tilePart at0.tile = some false := ⟨live_ready, by decide +kernel⟩

theorem wit_VectorComparesAndPermutes : live.Ready at0.tile ∧ cmpOk va0 = true ∧
    cmpOk { va0 with vd := 4, cnt := 1 } = true ∧ wordOk (.sel at0 { va0 with mask := 7 }) = true ∧ wordOk (.perm at0 va0) = true := ⟨live_ready, by decide +kernel⟩

/-- The live state with VL of tile 0 at n. -/
def withVl (n : BitVec 7) : State := live.setTile 0 { eng := { vl := n } }

theorem wit_VectorScalarsAndCodes : live.Ready at0.tile ∧ (withVl 63).Ready at0.tile ∧
    wordOk (.sget at0 { va0 with g := 63 }) = true ∧ wordOk (.sput at0 { va0 with g := 63 }) = true ∧
    63 ∈ (live.tile 0).eng.active 0 ∧ 63 ∉ ((withVl 63).tile 0).eng.active 0 ∧ (64 : BitVec 32).toNat ≤ 64 ∧
    (live.tile 0).eng.vl.toNat ≤ 64 ∧ wordOk (.emax at0 va0) = true ∧ wordOk (.emaxl at0 va0) = true :=
  ⟨live_ready, ⟨by decide, by decide +kernel, by decide +kernel⟩, by decide +kernel⟩

theorem wit_VectorTreeSums : live.Ready at0.tile ∧ (withVl 0).Ready at0.tile ∧ fpOk va0 = true ∧ ((withVl 0).tile 0).eng.vl = 0 ∧
    (live.tile 0).eng.vl ≠ 0 := ⟨live_ready, ⟨by decide, by decide +kernel, by decide +kernel⟩, by decide +kernel⟩

/-- Start = 1, destination register 2, source register 1, scalar anchor. -/
def vg : VArgs := { va0 with g := 0x168000, cnt := 0 }

/-- An engine with VL = 1 and lane 0 of grid register `gSrc vg` recorded on codes 127 and 127. -/
def gridEng : Engine where
  vl := 1
  v := [(128, 0x3F800000)]
  s := [(14, 127), (15, 127)]
  q := [(64 * gSrc vg, { rcd := true, ca := 127, cb := 127, chunk := 5, terms := 1 })]

/-- The live state with that engine in tile 0. -/
def gridded : State := live.setTile 0 { eng := gridEng }

theorem wit_VectorGridSumsAndFolds : gridded.Ready at0.tile ∧ (withVl 0).Ready at0.tile ∧ (gridded.tile 0).eng.vl.toNat ≤ 64 ∧
    wordOk (.gadd at0 vg) = true ∧ wordOk (.gsq at0 vg) = true ∧ wordOk (.gdot at0 vg) = true ∧ wordOk (.gfold at0 { vg with vd := 0 }) = true ∧
    (gridded.tile 0).eng.active vg.mask.toNat = [0] ∧ ((withVl 0).tile 0).eng.active vg.mask.toNat = [] ∧ gStart vg = true ∧
    (let g := (gridded.tile 0).eng.grid (gSrc vg) 0; g.rcd = true ∧ g.ca = 127 ∧ g.cb = 127) ∧ wordOk (.grnd at0 vg) = true :=
  ⟨⟨by decide, by decide +kernel, by decide +kernel⟩, ⟨by decide, by decide +kernel, by decide +kernel⟩, by decide +kernel⟩

/-- The sums of one lane from the anchor. -/
theorem wit_GridLaneSums : gStart vg = true ∧ vCount vg = 1 ∧
    anchorOf (gridCodes vg (gridded.tile 0).eng 4 0).1 (gridCodes vg (gridded.tile 0).eng 4 0).2 = some 0 ∧
    anchorOf (gridCodes vg (gridded.tile 0).eng 2 0).1 (gridCodes vg (gridded.tile 0).eng 2 0).2 = some 0 ∧
    anchorOf (gridCodes vg (gridded.tile 0).eng 3 0).1 (gridCodes vg (gridded.tile 0).eng 3 0).2 = some 0 ∧
    (gridTerm vg (gridded.tile 0).eng 2 0 0).opnd = some (8388608, -23) ∧
    (gridTerm vg (gridded.tile 0).eng 3 0 0).opnd = some (8388608 * 8388608, -46) ∧
    (gridTerm vg (gridded.tile 0).eng 4 0 0).opnd = some (0, -172) ∧
    8388608 * 2 ^ (-23 - (0 - 78) : Int).toNat / 2 ^ (-(-23 - (0 - 78)) : Int).toNat < 2 ^ 79 ∧
    8388608 * 8388608 * 2 ^ (-46 - (0 - 78) : Int).toNat / 2 ^ (-(-46 - (0 - 78)) : Int).toNat < 2 ^ 80 := by decide +kernel

/-! ### Witnesses: streams, records, the matrix pipe -/

/-- Streams of grid tile (0, 0): 0 to stream 3 of tile (0, 1), 1 into the gate of queue binding 5. -/
def lesStreams : Lesson := { les with
  streams := [⟨0, 0, 0, false, 0, 1, 0, 3⟩, ⟨0, 0, 1, true, 0, 0, 5, 0⟩], queues := [⟨5, true, 7, 0, 0, 0, 2, 0⟩] }

/-- The live state with that lesson, two flits waiting on stream 3 of tile 0, and one credit left on stream 0. -/
def streaming : State := (live.setPart false { lesson := some lesStreams }).setTile 0
  { inb := [(3, [⟨List.replicate 64 1, 7⟩, ⟨List.replicate 64 2, 7⟩])], outCred := [(0, 1)] }

theorem wit_TileStreams : streaming.streamBind 0 0 = some ⟨0, 0, 0, false, 0, 1, 0, 3⟩ ∧ streaming.tilePart 0 = some false ∧
    streaming.lesson false = some lesStreams ∧ streaming.physTile 46 0 1 = some 1 ∧
    Bank.get fullCredit (streaming.tile 0).outCred 0 = 1 ∧
    streaming.streamBind 0 1 = some ⟨0, 0, 1, true, 0, 0, 5, 0⟩ ∧
    (lesStreams.queues.find? fun q => q.idx == 5) = some ⟨5, true, 7, 0, 0, 0, 2, 0⟩ ∧
    streaming.bindPort false ⟨5, true, 7, 0, 0, 0, 2, 0⟩ = some 17 ∧ streaming.streamBind 0 2 = none ∧
    (streaming.port 17).late = [] ∧ (streaming.tile 0).got = [] ∧
        (Bank.get (fun _ => []) (streaming.tile 0).inb 3).length = 2 := by decide +kernel

theorem streaming_ready : streaming.Ready 0 := ⟨by decide, by decide +kernel, by decide +kernel⟩

theorem wit_VectorRecordsAndStreams : streaming.Ready at0.tile ∧ (streaming.tile 0).eng.vl.toNat ≤ 64 ∧
    wordOk (.gout at0 { va0 with g := 0 }) = true ∧ wordOk (.gin at0 { va0 with g := 3 }) = true ∧
    wordOk (.vxLdStream at0 { va0 with g := 3 }) = true ∧ wordOk (.vxStStream at0 { va0 with vd := 0 }) = true ∧
    streaming.CanSend 0 0 1 ∧ streaming.CanSend 0 1 64 ∧ (streaming.takeFlits 0 3 2).1.isSome = true ∧
        (streaming.takeFlits 0 3 3).1 = none := by
  have near : streaming.CanSend 0 0 1 := by
    intro b hb
    have e : streaming.streamBind 0 0 = some ⟨0, 0, 0, false, 0, 1, 0, 3⟩ := by decide +kernel
    obtain rfl : (⟨0, 0, 0, false, 0, 1, 0, 3⟩ : StreamBind) = b := Option.some.inj (e.symm.trans hb)
    exact ⟨fun _ => by decide +kernel, fun h => Bool.noConfusion h⟩
  have far : streaming.CanSend 0 1 64 := by
    intro b hb
    have e : streaming.streamBind 0 1 = some ⟨0, 0, 1, true, 0, 0, 5, 0⟩ := by decide +kernel
    obtain rfl : (⟨0, 0, 1, true, 0, 0, 5, 0⟩ : StreamBind) = b := Option.some.inj (e.symm.trans hb)
    refine ⟨fun h => Bool.noConfusion h, fun _ p l q port _ hl hq hp => ?_⟩
    cases p
    · obtain rfl : lesStreams = l := Option.some.inj hl
      have eq : (lesStreams.queues.find? fun q => q.idx == 5) = some ⟨5, true, 7, 0, 0, 0, 2, 0⟩ := by decide +kernel
      obtain rfl : (⟨5, true, 7, 0, 0, 0, 2, 0⟩ : QueueBind) = q := Option.some.inj (eq.symm.trans hq)
      obtain rfl : 17 = port := by
        have ep : streaming.bindPort false ⟨5, true, 7, 0, 0, 0, 2, 0⟩ = some 17 := by decide +kernel
        exact Option.some.inj (ep.symm.trans hp)
      decide +kernel
    · cases hl
  refine ⟨streaming_ready, ?_, ?_, ?_, ?_, ?_, near, far, ?_⟩ <;> decide +kernel

theorem wit_VectorLoadsAndStores : live.Ready at0.tile ∧ (live.tile 0).eng.vl.toNat ≤ 64 ∧ wordOk (.vxLdDesk at0 va0) = true ∧
    wordOk (.vxStDesk at0 { va0 with vd := 0 }) = true ∧ wordOk (.vxStDesk at0 { va0 with vd := 0, g := 0x14000 }) = true ∧
    mForm va0 = 0 ∧ mSide { va0 with g := 0x14000 } = 1 :=
  ⟨live_ready, by decide +kernel⟩

theorem wit_VectorRegisterFrame : live.Ready at0.tile ∧ (∃ u, exec (.add at0 va0) live = .next u) ∧
    Instr.add at0 va0 ∈ [Instr.add at0 va0] ∧ (∃ u, exec (.perm at0 va0) live = .next u) ∧ live.tilePart 0 ≠ some true :=
  ⟨live_ready, ⟨_, rfl⟩, by simp, ⟨_, rfl⟩, by decide +kernel⟩

theorem wit_SidecarMoves : live.Ready at0.tile ∧ sideOk va0 = true ∧ streaming.Ready at0.tile ∧
    (streaming.takeFlits 0 3 1).1.isSome = true := ⟨live_ready, by decide +kernel, streaming_ready, by decide +kernel⟩

theorem wit_TallyAdditions : (marker : BitVec 64) ≠ 0 ∧ (2 ^ 63 - 1 : BitVec 64) ≠ marker ∧
    2 ^ 63 - 1 < ((2 ^ 63 - 1 : BitVec 64).toInt + (1 : BitVec 64).toInt).natAbs ∧
    ((2 ^ 63 - 1 : BitVec 64).toInt + (0 : BitVec 64).toInt).natAbs ≤ 2 ^ 63 - 1 ∧
    [(2 ^ 63 - 1 : Int)].length ≤ 2 ^ 0 ∧ (∀ v ∈ [(2 ^ 63 - 1 : Int)], v.natAbs ≤ 2 ^ (63 - 0) - 1) ∧ 0xFFFF8 + 8 ≤ 0x100000 := by
  decide +kernel

/-- The live state with tally grid entry 0 of tile 0 valid, G = 0 and k = 2. -/
def tallied : State := live.setReg (.tileTgrid 0 0) 0x80040000

theorem tallied_ready : tallied.Ready 0 := ⟨by decide, by decide +kernel, by decide +kernel⟩

theorem wit_TallyInDesk : tallied.Ready at0.tile ∧ live.Ready at0.tile ∧ (tallied.tile 0).eng.vl.toNat ≤ 64 ∧
    wordOk (.tadd at0 va0) = true ∧ wordOk (.tcvt at0 va0) = true ∧ (tgrid (tallied.reg (.tileTgrid 0 (tallyEntry va0)))).1 = true ∧
    (tgrid (live.reg (.tileTgrid 0 (tallyEntry va0)))).1 = false := ⟨tallied_ready, live_ready, by decide +kernel⟩

theorem wit_VectorMxfp4Lines : live.Ready at0.tile ∧ wordOk (.mxq at0 { va0 with mask := 0 }) = true ∧
    ((live.tile 0).eng.active 0).filter (fun l => l / 32 == 1) ≠ [] ∧
    ((withVl 8).tile 0).eng.active 0 = [0, 1, 2, 3, 4, 5, 6, 7] := ⟨live_ready, by decide +kernel⟩

theorem wit_MatrixLoads : live.Ready at0.tile ∧ fmtCode 0 = true ∧ fmtCode 4 = true := ⟨live_ready, by decide +kernel⟩

/-- A run of 64 rows from desk address 0. -/
def run0 : RunArgs := ⟨0, false, true, false, 63, 0, 0, 0⟩

/-- The live state with a loaded block in tile 0, of the normal port or of the cross-read one, and a row hold. -/
def loaded (cross : Bool) : State := tallied.setTile 0
  { arr := { active := { loaded := true, cross := cross }, hold := some ⟨0, List.replicate 64 []⟩ } }

theorem loaded_ready (c : Bool) : (loaded c).Ready 0 := by
  cases c <;> exact ⟨by decide, by decide +kernel, by decide +kernel⟩

theorem wit_MatrixRunElements (cross : Bool) : (loaded cross).Ready at0.tile ∧ wordOk (.mxRun at0 run0) = true ∧
    wordOk (.crossReadRun at0 run0) = true ∧ fmtOf run0.fmt.toNat = some .bf16 ∧
    ((loaded cross).tile 0).arr.active.loaded = true ∧ pairOk 0 run0.fmt.toNat = true ∧
    (((loaded cross).tile 0).arr.grp false).kind ≠ some true ∧ ((loaded cross).tile 0).arr.inject = false ∧
    (let r := (loaded cross).readRows ((loaded cross).ctx at0 (opBytes 0x31 0 0)) false 0 64 40 (some 0)
     r.1.isSome = true ∧ (r.2.tile 0).arr = ((loaded cross).tile 0).arr ∧ (r.1.getD []).length = 64) := by
  refine ⟨loaded_ready cross, ?_⟩
  cases cross <;> decide +kernel

theorem wit_MatrixElementArithmetic : anchorOf 1 254 = some 1 ∧
    (3 * 5 : Int).natAbs * 2 ^ (0 + 0 - (1 - 78) : Int).toNat / 2 ^ (-(0 + 0 - (1 - 78)) : Int).toNat < 2 ^ 81 ∧
    (1 * 1 : Int).natAbs * 2 ^ (0 + 0 - (1 - 78) : Int).toNat / 2 ^ (-(0 + 0 - (1 - 78)) : Int).toNat < 2 ^ 80 ∧
    ({ terms := 32768 } : Elem).diff = 0 ∧ ({ terms := 32768 } : Elem).chunk.toInt.natAbs ≤ 32768 * 2 ^ 80 ∧
    ({ terms := 32768 } : Elem).total.toInt.natAbs ≤ 2 ^ 126 := by decide +kernel

theorem wit_TallyRunElements : (loaded false).Ready at0.tile ∧ wordOk (.tallyRun at0 run0) = true ∧ run0.start = true ∧
    fmtOf run0.fmt.toNat = some .bf16 ∧ run0.fmt.toNat ≤ 2 ∧ ((loaded false).tile 0).arr.hold = some ⟨0, List.replicate 64 []⟩ ∧
    ((loaded false).tile 0).arr.inject = false ∧ (tgrid ((loaded false).reg (.tileTgrid 0 (run0.side.toNat % 16)))).1 = true ∧
    (let r := (loaded false).readRows ((loaded false).ctx at0 (opBytes 0x31 0 0)) false 0 64 40 none
     (r.1.getD []).length = 64 ∧ (r.2.tile 0).arr = ((loaded false).tile 0).arr ∧ r.2.office = (loaded false).office) := by
  refine ⟨loaded_ready false, ?_⟩
  decide +kernel

/-- The live state with group A of tile 0 a tally group whose first element is recorded. -/
def tallyGroup : State := live.setTile 0
  { arr := { grpA := { kind := some true, elems := [(0, { rcd := .grid (some 0) 0 2, chunk := 3, terms := 1 })] } } }

theorem wit_MatrixOutputs : live.Ready at0.tile ∧ tallyGroup.Ready at0.tile ∧ ((live.tile 0).arr.grp false).kind ≠ some true ∧
    (∃ f : OutArgs, ∃ g, outOk f = true ∧ fmtOf f.fmt.toNat = some g ∧ f.dst = 0) ∧
    outOk ⟨0, false, false, 63, 0, 1, 3, 0, false⟩ = true ∧ outOk ⟨4, false, false, 63, 0, 2, 12, 0, false⟩ = true ∧
    ((tallyGroup.tile 0).arr.grp false).kind = some true ∧ outOk ⟨0, false, false, 63, 0, 0, 0, 0, false⟩ = true ∧
    outOk ⟨0, false, false, 63, 1, 0, 0, 0, false⟩ = true ∧
    (((tallyGroup.tile 0).arr.grp false).el 0).rcd = .grid (some 0) 0 2 :=
  ⟨live_ready, ⟨by decide, by decide +kernel, by decide +kernel⟩, by decide +kernel,
    ⟨⟨0, false, false, 63, 0, 0, 0, 0, false⟩, .bf16, by decide +kernel⟩, by decide +kernel⟩

/-- The live state with six zero flits waiting on stream 3 of tile 0. -/
def sixFlits : State := live.setTile 0 { inb := [(3, List.replicate 6 ⟨List.replicate 64 0, 7⟩)] }

theorem wit_PartialsAndTallyTransfers : sixFlits.Ready at0.tile ∧
    (let fl := (sixFlits.takeFlits 0 3 6).1.getD []
     fl.length = 6 ∧ field ((fl.drop 0).take 6).flatten 381 1 = 0) ∧ ((live.tile 0).arr.grp false).kind = none ∧
    (sixFlits.takeFlits 0 3 1).1.isSome = true :=
  ⟨⟨by decide, by decide +kernel, by decide +kernel⟩, by decide +kernel⟩
/-! ### Witnesses: memories, the stash, editions, the mesh -/

theorem wit_AccessesBeyondMemory : 0 < [(1 : Byte), 2].length ∧ memSize false < 0xFFFFF + [(1 : Byte), 2].length ∧
    0xFFFFF + 0 < memSize false ∧ ¬ 0xFFFFF + 1 < memSize false ∧ memSize true < 0x3FFFFF + 2 := by decide +kernel

/-- A move of two lines from shelf address 0 to desk address 0, or back. -/
def mv0 : MoveArgs := ⟨false, 1, 0, 0⟩

/-- The live state with region 0 of tile 0 valid on shelf page 0 and closed. -/
def region0 : State := live.setReg (.tileRegion 0 0) 0x80080000

theorem region0_ready : region0.Ready 0 := ⟨by decide, by decide +kernel, by decide +kernel⟩

theorem wit_MemoryMoves : region0.Ready at0.tile ∧ region0.regBit (.tileRegion 0 0) 31 = true ∧
    region0.regBit (.tileRegcnt 0 0) 31 = false ∧ region0.regFld (.tileRegion 0 0) 9 0 * 4096 < 64 * mv0.shelf.toNat + 64 ∧
    64 * mv0.shelf.toNat < (region0.regFld (.tileRegion 0 0) 9 0 + region0.regFld (.tileRegion 0 0) 29 19) * 4096 ∧
    ({ mv0 with clear := true } : MoveArgs).clear = true :=
  ⟨region0_ready, by decide +kernel⟩

/-- A read of one line at partition-relative address 0 into desk address 0, raising counter 1. -/
def rq0 : StashReq := { write := false, shelf := false, laddr := 0, saddr := [0], ctr := some 1, data := none }

/-- Partition 0 with one tenant page, mapped writable at relative page 0, and a request waiting in tile 0. -/
def paged (q : List StashReq) : State :=
  { (regs [(.secPagebase false, 0x40000), (.secPagecnt false, 1)] live).setTile 0 { queue := q } with
    stash := Bank.putBytes [] 0x03C0000000 (toLE 8 (2 ^ 63 + 2 ^ 62 + 0x40000)) }

theorem paged_ready : (paged []).Ready 0 := ⟨by decide, by decide +kernel, by decide +kernel⟩

theorem wit_StashRequests : (paged []).Ready at0.tile ∧ (paged []).tilePart at0.tile = some false ∧
    ((paged []).tile 0).queue.length < 32 ∧ 32 ≤ ((paged (List.replicate 32 rq0)).tile 0).queue.length ∧
    ((paged [rq0]).tile 0).queue = rq0 :: [] ∧ ((paged [rq0]).tile 0).unqueued = [] ∧ ((paged [rq0]).tile 0).qFenced = false ∧
    rq0.fetch = none ∧ rq0.saddr.map (fun a => (paged [rq0]).translate false a rq0.write) = [0x400000000].map some ∧
    (∀ a ∈ [0x400000000], a % 64 = 0 ∧ (paged [rq0]).lineErr (a / 64) = 0) ∧
    (let q : StashReq := { rq0 with write := true, data := some (List.replicate 64 9) }
     (paged [q]).tilePart 0 = some false ∧ ((paged [q]).tile 0).queue = q :: [] ∧ q.ctr = some 1 ∧
     q.saddr.map (fun a => (paged [q]).translate false a q.write) = [0x400000000].map some ∧ [0x400000000].Nodup ∧
     (paged [q]).lineErr (0x400000000 / 64) = 0) ∧
    (paged [rq0]).translate false 65536 false = none := by
  refine ⟨paged_ready, ?_⟩
  decide +kernel

theorem wit_TokenWaits : live.Ready at0.tile ∧ (0 : BitVec 16).toNat ≤ (live.reg (.tileToken 0 0)).toNat ∧
    (live.reg (.tileToken 0 0)).toNat < (1 : BitVec 16).toNat ∧ (live.tile 0).stalled = false ∧
    (stalled.tile 0).stall = some (.mmWait at0 ⟨0, false, 1⟩) ∧ (stalled.tile 0).unsent = [] ∧ (stalled.tile 0).unqueued = [] ∧
    (stalled.tile 0).fetching = false ∧ (stalled.tile 0).held = [] ∧ stalled.tileLive 0 = true := ⟨live_ready, by decide +kernel⟩

/-- Record 5 of one line, desk address 0. -/
def ast0 : StashArgs := ⟨false, 5, 0, 0⟩

/-- Tile 0 with a plan region of 64 lines in shelf memory at its base and a spill segment of 1024 lines; `used` lines of the
region and `spill` lines of the segment are taken, and record 5 has directory entry `e`. -/
def stashing (used spill : Nat) (e : List (Nat × DirEnt)) : State :=
  { (regs [(.tileAplan 0, 0x80000001), (.tileAspillb 0, 0), (.tileAspills 0, 1)] (paged [])).setTile 0
      { planPtr := used, spillPtr := spill, dir := e } with
    stash := Bank.putBytes (paged []).stash 0x400000000 ((paged []).spillHeader false 0 5 1) }

theorem stashing_ready : (stashing 0 0 []).Ready 0 := ⟨by decide, by decide +kernel, by decide +kernel⟩

theorem wit_ActivationStash : (stashing 0 0 []).Ready at0.tile ∧ (stashing 0 0 []).tilePart 0 = some false ∧
    ((stashing 63 0 []).tile 0).planPtr + 1 ≤ ((stashing 63 0 []).planRegion 0).2.2 ∧
    ((stashing 64 1022 []).planRegion 0).2.2 < ((stashing 64 1022 []).tile 0).planPtr + 1 ∧
    ((stashing 64 1022 []).tile 0).spillPtr + 1 + 1 ≤ ((stashing 64 1022 []).spillSeg 0).2 ∧
    ((stashing 64 1023 []).spillSeg 0).2 < ((stashing 64 1023 []).tile 0).spillPtr + 1 + 1 ∧
    (Bank.get noDir ((stashing 1 0 [(5, ⟨false, 0, 1⟩)]).tile 0).dir 5).lines = 1 ∧
    (Bank.get noDir ((stashing 0 0 []).tile 0).dir 5).lines ≠ 1 ∧
    (∀ s ∈ [stashing 63 0 [], stashing 64 1022 [], stashing 64 1023 [], stashing 1 0 [(5, ⟨false, 0, 1⟩)]],
      s.tileLive 0 = true ∧ (s.tile 0).stalled = false) ∧
    (let s := stashing 64 2 [(5, ⟨true, 0, 1⟩)]
     s.tileLive 0 = true ∧ (s.tile 0).stalled = false ∧ s.tilePart 0 = some false ∧
     (Bank.get noDir (s.tile 0).dir 5).spilled = true ∧ (s.tile 0).queue = [] ∧
     (List.range 2).map (fun i => s.translate false (0 + 64 * i) false) = [0x400000000, 0x400000040].map some ∧
     (∀ y ∈ [0x400000000, 0x400000040], y % 64 = 0 ∧ s.lineErr (y / 64) = 0) ∧
     Bank.bytes s.stash 0x400000000 16 = (s.spillHeader false 0 5 1).take 16 ∧
     -- the last read of that record at the front of the queue
     ∃ q ∈ fetchReqs ast0 ⟨true, 0, 1⟩, q.ctr = none ∧ q.fetch = some (some ast0) ∧
       (∀ y ∈ q.saddr, (s.translate false y q.write).isSome = true) ∧
       (let u := s.setTile 0 { s.tile 0 with queue := [q] }
        (u.tile 0).queue = q :: [] ∧ (u.tile 0).unqueued = [] ∧ (u.tile 0).qFenced = false ∧ u.tilePart 0 = some false)) :=
  ⟨stashing_ready, by decide +kernel⟩

/-- Region 0, slot 1. -/
def ed0 : EdArgs := ⟨0, 1, 0⟩

/-- Region 0 valid with the given count register and edition 7; slot 1 live on region 0 with edition 7 where `held`. -/
def edited (cnt : Word) (held : Bool) : State :=
  regs ([(.tileRegcnt 0 0, cnt), (.tileReged 0 0, 7), (.tileEdslot 0 1, 7)] ++
    if held then [(.tileEdslotr 0 1, 0x80000000)] else []) region0

theorem edited_ready (h : Bool) : (edited 1 h).Ready 0 := by
  cases h <;> exact ⟨by decide, by decide +kernel, by decide +kernel⟩

theorem wit_EditionInstructions : (edited 1 false).Ready at0.tile ∧ (edited 1 true).Ready at0.tile ∧ edOk ed0 = true ∧
    edOpenOk ⟨0, 0, 0⟩ = true ∧ wordOk (.edSet at0 ⟨0, 1, 3⟩) = true ∧
    (edited 1 false).regionValid 0 0 = true ∧ (edited 1 false).slotLive 0 1 = false ∧ (edited 1 false).regionOpen 0 0 = false ∧
    (edited 65534 false).regionCount 0 0 < 65535 ∧ (edited 65535 false).regionCount 0 0 = 65535 ∧
    (edited 1 false).edition 0 0 = (edited 1 false).reg (.tileEdslot 0 1) ∧
    (edited 1 false).edition 0 0 ≠ ((edited 1 false).setReg (.tileEdslot 0 1) 8).reg (.tileEdslot 0 1) ∧
    (edited 0x80000000 false).regionOpen 0 0 = true ∧ (edited 1 false).regionValid 0 1 = false ∧
    (edited 1 true).slotLive 0 1 = true ∧ (edited 1 true).regionCount 0 0 ≠ 0 ∧ (edited 1 true).regFld (.tileEdslotr 0 1) 5 0 = 0 ∧
    (edited 1 true).reg (.tileEdslot 0 1) = (edited 1 true).edition 0 0 ∧
    ((edited 1 true).setReg (.tileEdslot 0 1) 8).reg (.tileEdslot 0 1) ≠ ((edited 1 true).setReg (.tileEdslot 0 1) 8).edition 0 0 ∧
    ((edited 65535 false).setReg (.tileEdslot 0 1) 8).slotLive 0 1 = false ∧
    ((edited 1 true).part false).wave = none ∧ (edited 0 false).regionCount 0 0 = 0 ∧
    (edited 1 false).rebuilding false = false :=
  ⟨edited_ready _, edited_ready _, by decide +kernel⟩

/-- A flit on its way to stream 2 of tile 1, another to tile 0, and credits on their way back. -/
def meshed : State :=
  { live with mesh := [(0, 2, ⟨[1], 7⟩), (1, 2, ⟨[2], 7⟩)], meshCred := [(tileSender 1 2, 3), (gateSender 19 191, 1)] }

theorem wit_MeshFlitsAndCredits : meshed.mesh = [(0, 2, ⟨[1], 7⟩)] ++ (1, 2, ⟨[2], 7⟩) :: [] ∧
    (∀ e ∈ [((0, 2, ⟨[1], 7⟩) : Nat × Nat × Flit)], ¬ (e.1 = 1 ∧ e.2.1 = 2)) ∧
    (∀ e ∈ meshed.mesh, ¬ (e.1 = 2499 ∧ e.2.1 = 15)) ∧
    Bank.get (fun _ => 0) meshed.meshCred (tileSender 1 2) ≠ 0 ∧ Bank.get (fun _ => 0) meshed.meshCred (tileSender 0 0) = 0 ∧
    Bank.get (fun _ => 0) meshed.meshCred (gateSender 19 191) ≠ 0 := by decide +kernel
/-! ### Witnesses: bells, frames, marks, recalls, tile tests -/

/-- Three idle lesson periods of two parts on two grid columns: seat 1 is near on port 0 through queue binding 5, which carries
stream 2 of grid tile
(0, 0), and slot 77 of quantum 3 of period 0 sends two flits of it. -/
def lesPair : Lesson := { les with
  cols := 2, parts := 2, periods := 3, queues := [⟨5, false, 5, 1, 0, 0, 2, 0⟩], slots := [⟨5, false, 77, 0, 3, 2⟩] }

/-- The live state with that lesson and port 0 up. -/
def paired : State := (live.setPart false { lesson := some lesPair }).setReg (.linkStat 0) 0x30000000

/-- The same with a stalled tile. -/
def pairedStall : State := paired.setTile 0 { stall := some (.mmWait at0 ⟨0, false, 1⟩), wait := { cause := 2, cyc := 100 } }

/-- Where no tile stalls, what holds the bell is not a tile. -/
theorem find_stalled_none (s : State) (ts : List Nat) (h : ∀ t, (s.tile t).stalled = false) :
    (ts.find? fun t => (s.tile t).stalled) = none := List.find?_eq_none.mpr fun t _ => by simp [h t]

theorem held_by_tile (s : State) (p : Bool) (l : Lesson) (t : Nat)
    (h : (s.liveTiles p).find? (fun t => (s.tile t).stalled) = some t) : s.holdCause p l = some (s.tile t).wait := by
  unfold State.holdCause
  rw [h]

theorem not_held (s : State) (p : Bool) (l : Lesson) (h : ∀ t, (s.tile t).stalled = false) (hg : ∀ c, s.gateWait p l c = none)
    (hm : ∀ c, s.mirrorWait p c = none) (hw : ∀ c, s.switchWait p c = none) (hc : (s.commits p l && !s.marksHeld p l (s.step64 p - 1)) = false)
    (hn : ((s.part p).idx + 1) % l.periods ≠ l.firstUpdate) : s.holdCause p l = none := by
  simp only [State.holdCause, find_stalled_none s _ h, hg, hm, hw, hc, hn, false_and, if_false, Bool.false_eq_true]

theorem paired_not_held : paired.holdCause false lesPair = none :=
  not_held _ _ _ (fun _ => rfl) (fun _ => rfl) (fun _ => rfl) (fun _ => rfl) (by decide +kernel) (by decide +kernel)

theorem late_not_held : (paired.setReg (.bellStat false) 0xC0000000).holdCause false lesPair = none :=
  not_held _ _ _ (fun _ => rfl) (fun _ => rfl) (fun _ => rfl) (fun _ => rfl) (by decide +kernel) (by decide +kernel)

theorem stalled_held : pairedStall.holdCause false lesPair = some { cause := 2, cyc := 100 } := by
  have h : (pairedStall.liveTiles false).find? (fun t => (pairedStall.tile t).stalled) = some 0 := by
    have e : (pairedStall.tiles.map (·.1)).filter (fun t => decide (pairedStall.tilePart t = some false)) = [0] := by decide +kernel
    unfold State.liveTiles
    rw [e, List.singleton_append, List.eraseDups_cons]
    exact List.find?_cons_of_pos (by decide +kernel)
  rw [held_by_tile _ _ _ 0 h]
  decide +kernel

theorem wit_BellsAndHoldover : State.reset.running false = false ∧ paired.lesson false = some lesPair ∧ paired.running false = true ∧
    pairedStall.lesson false = some lesPair ∧ pairedStall.running false = true ∧
    paired.regBit (.bellStat false) 30 = false ∧
    (let s := paired.setReg (.bellStat false) 0xC0000000
     s.running false = true ∧ s.lesson false = some lesPair ∧
     s.regBit (.bellStat false) 30 = true ∧ (s.part false).holdQ = 0) ∧
    (let s := (paired.setReg (.bellHoldmax false) 2).setPart false { holdQ := 2 }
     s.running false = true ∧ (s.part false).noMax = false ∧ s.regFld (.bellHoldmax false) 23 0 = 2 ∧ (s.part false).holdQ = 2) ∧
    (paired.part false).holdQ < paired.regFld (.bellHoldmax false) 23 0 ∧ (paired.part false).inRecess = false ∧
    -- an ordinary bell of the pair: index 0 to index 1
    (paired.rebuilding false = false ∧ ((paired.part false).idx + 1) % lesPair.periods = 1 ∧ lesPair.planFlag 2 0 = false ∧
      paired.staged = [] ∧ (paired.part false).preReq = none ∧ paired.fw.act = none) ∧
    -- tiles of the partition with and without a memory instruction in flight
    (paired.tilePart 0 = some false ∧ (paired.tile 0).memBusy = false ∧
      (let x : Tile := { stall := some (.mmWait at0 ⟨0, false, 1⟩), memStall := true }
       ((paired.setTile 0 x).tile 0).memBusy = true ∧ (paired.setTile 0 x).tilePart 0 = some false)) := by decide +kernel

/-- The pair in a rebuild whose derivation period is index 1, with or without a stalled tile. -/
def rebuildBell (stall : Bool) : State :=
  let s := (paired.setPart false { lesson := some { lesPair with deriv := [1] }, rcl := some ⟨6, 1, false, .rebuild, 0, false⟩ }).setReg
    (.bellStat false) 0
  if stall then s.setTile 0 { stall := some (.mmWait at0 ⟨0, false, 1⟩) } else s

/-- The rebuild with partition 0 changed. -/
def rebuildPart (f : Part → Part) : State := (rebuildBell false).setPart false (f ((rebuildBell false).part false))

theorem wit_RebuildBells : (rebuildBell false).running false = false ∧ (rebuildBell false).rebuilding false = true ∧
    ((({ lesPair with deriv := [1] } : Lesson).deriv.find? fun i => decide (((rebuildBell false).part false).idx < i)) = some 1) ∧
    (∀ n ∈ (rebuildBell false).liveTiles false, ((rebuildBell false).tile n).stalled = false) ∧
    (let s := rebuildPart fun x => { x with held := true }
     s.lesson false = some { lesPair with deriv := [1] } ∧ s.rebuilding false = true ∧ (s.part false).held = true ∧
     (s.part false).holdQ = 0 ∧ (s.part false).healPos = none) ∧
    ((rebuildPart fun x => { x with held := true, holdQ := 3 }).part false).holdQ ≠ 0 ∧
    ((rebuildPart fun x => { x with healPos := some 0 }).part false).healPos.isSome = true ∧
    (({ lesPair with deriv := [1] } : Lesson).deriv.find? fun i => decide (((rebuildPart fun x => { x with idx := 1 }).part false).idx < i))
      = none ∧
    ∃ n ∈ (rebuildBell true).liveTiles false, ((rebuildBell true).tile n).stalled = true := by
  refine ⟨by decide +kernel, by decide +kernel, by decide +kernel, fun _ _ => rfl, by decide +kernel, by decide +kernel,
    by decide +kernel, by decide +kernel, 0, ?_, by decide +kernel⟩
  unfold State.liveTiles
  refine List.mem_eraseDups.mpr (List.mem_append_left _ ?_)
  decide +kernel

/-- A lesson that mirrors: queue 191 toward seat 1. -/
def lesMirror : Lesson := { lesPair with queues := [⟨5, false, 191, 1, 0, 0, 2, 0⟩] }

theorem wit_CommitTurnsBank : lesMirror.mirrors = true ∧
    (paired.setReg (.checkMirror false) 0x40000).regFld (.checkMirror false) 31 16 = 4 ∧ (8 : BitVec 64).toNat % 4 = 0 := by
  decide +kernel

/-- The pair in the commit period of step 1, every level-4 mark of it held, with a halt asked for or not. -/
def lesCommit : Lesson := { lesPair with plan := [(0, 4), (0, 0), (0, 0)] }
def committing (halt : Bool) : State :=
  let s := paired.setReg (.checkStepLo false) 2
  s.setPart false {
    lesson := some lesCommit
    haltReq := halt
    level4 := (List.range 3).map fun i => { period := s.pnumOf false 3 1 i } }

/-- The pair in the last period of a step, with a tally tensor on watch number 5. -/
def lesStep : Lesson := { lesPair with tensors := [{ (default : TensorEnt) with kind := 3, k := 2, watch := 5 }] }
def stepping : State := paired.setPart false { lesson := some lesStep, idx := 2 }

/-- The pair with period lengths of class 0 and of class 1 staged. -/
def bellStaged (n : Nat) (w : Word) : State := { paired with staged := [((Reg.bellPeriod false n).addr, w)] }

theorem committing_not_held (h : Bool) : (committing h).holdCause false lesCommit = none := by
  cases h <;> exact not_held _ _ _ (fun _ => rfl) (fun _ => rfl) (fun _ => rfl) (fun _ => rfl) (by decide +kernel) (by decide +kernel)

theorem stepping_not_held : stepping.holdCause false lesStep = none :=
  not_held _ _ _ (fun _ => rfl) (fun _ => rfl) (fun _ => rfl) (fun _ => rfl) (by decide +kernel) (by decide +kernel)

theorem bellStaged_not_held (w : Bool) : (bellStaged 0 (if w then 1 else 0)).holdCause false lesPair = none := by
  cases w <;> exact not_held _ _ _ (fun _ => rfl) (fun _ => rfl) (fun _ => rfl) (fun _ => rfl) (by decide +kernel) (by decide +kernel)

theorem wit_StepBells :
    (∀ h ∈ [false, true], (committing h).lesson false = some lesCommit ∧ (committing h).running false = true ∧
      (committing h).rebuilding false = false ∧ (committing h).regBit (.bellStat false) 30 = false ∧ (committing h).fw.act = none ∧
      lesCommit.planFlag 2 ((committing h).part false).idx = true ∧ (committing h).cstep64 false + 2 = (committing h).step64 false ∧
      (committing h).staged = [] ∧ ((committing h).part false).haltReq = h ∧
      (((committing h).part false).idx + 1) % lesCommit.periods ≠ 0 ∧ ((committing h).part false).preReq = none) ∧
    (stepping.lesson false = some lesStep ∧ stepping.running false = true ∧ stepping.rebuilding false = false ∧
      lesStep.planFlag 2 2 = false ∧ ((stepping.part false).idx + 1) % lesStep.periods = 0 ∧ (stepping.part false).remap = [] ∧
      0 ∈ stepping.lessonTiles false ∧ ((lesStep.tensors.filter fun y => y.kind == 3)[0]?).isSome = true ∧
      (lesStep.tensors.filter fun y => y.kind == 3)[15]? = none) ∧
    ((paired.setPart false { paired.part false with preReq := some 1 }).part false).preReq = some 1 ∧
    (∀ e ∈ [bellStaged 0 0, bellStaged 0 1], e.held (.bellCommit false) = false ∧ e.staged ≠ [] ∧ e.running false = true ∧
      e.lesson false = some lesPair ∧
      ∀ y ∈ e.staged, (Reg.bellPeriod false 0).addr ≤ y.1 ∧ y.1 < (Reg.bellWork false 0).addr) ∧
    (bellStaged 0 0).bellSetOk false = true ∧ (bellStaged 0 1).bellSetOk false = false ∧ lesPair.classOf 1 < 16 := by decide +kernel

/-- A data frame for queue 5 of port 0 with the running job's digest, period and attempt. -/
def frame0 : Frame where
  digest := paired.lessonDigest false
  period := paired.pnum false
  kind := 0
  queue := 4101
  seq := 0
  attempt := BitVec.ofNat 8 (paired.attempt false)
  seat := 1
  payload := List.replicate 256 0

theorem wit_DataFrames : frame0.digest = paired.lessonDigest false ∧ frame0.attempt.toNat = paired.attempt false ∧
    ({ frame0 with digest := 0 } : Frame).digest ≠ paired.lessonDigest false ∧
    staleAttempt (paired.attempt false) 255 = true ∧ newerAttempt (paired.attempt false) 1 = true ∧
    (frame0.period - paired.pnum false).toNat = 0 ∧ (2 ^ 47 - 1 - paired.pnum false : BitVec 48).toNat < 2 ^ 47 ∧
    2 ^ 47 ≤ (2 ^ 47 - paired.pnum false : BitVec 48).toNat ∧
    (lesPair.queues.find? fun q => q.row != 0xFF && q.q == (frame0.queue.toNat - 4096) % 192 && paired.bindPort false q == some 0
      && queuePort frame0.queue.toNat == 0) = some ⟨5, false, 5, 1, 0, 0, 2, 0⟩ ∧
    (lesPair.queues.all fun q => !(q.row != 0xFF && q.q == (4102 - 4096) % 192 && paired.bindPort false q == some 0
      && queuePort 4102 == 0)) = true ∧
    paired.physTile lesPair.cols 0 0 = some 0 ∧
    (flitsIn 0 (lesPair.rxFlits ⟨5, false, 5, 1, 0, 0, 2, 0⟩ (paired.part false).idx 0) (padTo 256 frame0.payload)).length ≤
      Bank.get fullCredit (paired.port 0).gateCred 5 ∧
    (paired.unhand 0 frame0).carries 0 = true ∧ (paired.unhand 1 frame0).carries 1 = false ∧
    (paired.unhand 0 frame0).forwardTo 0 frame0 = none ∧ (paired.unhand 0 frame0).rxPort 0 frame0 = 0 ∧
    (paired.unhand 0 frame0).portPart 0 = some false ∧ (paired.unhand 0 frame0).lessonRuns false = true ∧
    (let s := regs [(.linkRelay 17, 0xC0000000)] paired
     let f : Frame := { frame0 with queue := 4096 + 17 * 192 }
     (s.unhand 0 f).carries 0 = true ∧ (s.unhand 0 f).forwardTo 0 f = some 17) ∧
    -- one credit less than the frame has flits; a stopped job; a port that no lesson names
    Bank.get fullCredit ((paired.setPort 0 { gateCred := [(5, 1)] }).port 0).gateCred 5 <
      (flitsIn 0 (lesPair.rxFlits ⟨5, false, 5, 1, 0, 0, 2, 0⟩ 0 0) (padTo 256 frame0.payload)).length ∧
    ((paired.setReg (.bellStat false) 0).running false = false ∧ (paired.setReg (.bellStat false) 0).rebuilding false = false ∧
      (paired.setReg (.bellStat false) 0).lessonRuns false = false) ∧
    (let s := (live.setReg (.linkStat 0) 0x30000000).unhand 0 frame0
     s.carries 0 = true ∧ s.forwardTo 0 frame0 = none ∧ s.rxPort 0 frame0 = 0 ∧ s.portPart 0 = none) ∧
    (paired.restoring false = false ∧ (paired.port 0).late = []) ∧
    -- ports in reset; a credit frame on its own queue, on another, of a later attempt
    (State.reset.portsOut = false ∧ paired.portsOut = true) ∧
    (let f : Frame := { frame0 with queue := 4096 }
     (paired.unhand 0 f).rxPort 0 f = 0 ∧ f.digest = (paired.unhand 0 f).lessonDigest false ∧
     f.attempt.toNat = (paired.unhand 0 f).attempt false ∧ frame0.queue.toNat ≠ 4096 + 192 * 0 ∧
     newerAttempt ((paired.unhand 0 f).attempt false) ({ f with attempt := 1 } : Frame).attempt.toNat = true) := by decide +kernel

/-- A frame of queue q of port 0 outside any period, of the pair's lesson. -/
def lateFrame (q : BitVec 13) : Frame := { frame0 with queue := q, period := 0, attempt := 0 }

theorem wit_RestoresAndReshards :
    (let s := (paired.setPart false { lesson := some lesPair, rcl := some ⟨6, 1, false, .hold, 0, false⟩ })
     (lateFrame (4096 + 191)).digest = s.lessonDigest false ∧ (lateFrame (4096 + 191)).attempt.toNat = s.attempt false ∧
     s.restoring false = true ∧ (lateFrame (4096 + 191)).queue.toNat = 4096 + 192 * 0 + 191) ∧
    (let s := { paired.setReg (.bellStat false) 0 with cmds := [⟨1, .hostA, 0, 0x205, 0, false, some false, 0⟩] }
     let u := s.unhand 0 (lateFrame (4096 + 190))
     u.carries 0 = true ∧ u.forwardTo 0 (lateFrame (4096 + 190)) = none ∧ u.rxPort 0 (lateFrame (4096 + 190)) = 0 ∧
     u.portPart 0 = some false ∧ u.lessonRuns false = false ∧ (u.cmdOf 0x0205 (some false)).isSome = true ∧
     ((lateFrame (4096 + 190)).queue.toNat - 4096) % 192 = 190 ∧ (lateFrame (4096 + 190)).digest = u.lessonDigest false ∧
     ({ lateFrame (4096 + 190) with digest := 0 } : Frame).digest ≠ u.lessonDigest false) := by
  decide +kernel

/-- A mark frame of partition 0 that seat 1 sends, and a recall notice. -/
def mark0 (notice : Bool) : Frame := paired.markFrame false { period := paired.pnum false, notice := notice, seat := 1 }

theorem wit_MarksAndNotices (b : Bool) : paired.portsOut = true ∧ (paired.unhand 0 (mark0 b)).carries 0 = true ∧
    (paired.unhand 1 (mark0 b)).carries 1 = false ∧
    (paired.unhand 0 (mark0 b)).forwardTo 0 (mark0 b) = none ∧ (paired.unhand 0 (mark0 b)).rxPort 0 (mark0 b) = 0 ∧
    (paired.unhand 0 (mark0 b)).portPart 0 = some false ∧ (paired.unhand 0 (mark0 b)).lesson false = some lesPair ∧
    (paired.unhand 0 (mark0 b)).lessonRuns false = true ∧ markTarget (mark0 b) = some false ∧
    markTarget { mark0 b with queue := 7937 } ≠ some false ∧
    (mark0 b).digest = (paired.unhand 0 (mark0 b)).lessonDigest false ∧
    (mark0 b).attempt.toNat = (paired.unhand 0 (mark0 b)).attempt false ∧
    (markOf 0 (padTo 48 (mark0 b).payload)).notice = b ∧ ((paired.unhand 0 (mark0 b)).part false).rcl = none ∧
    ({ mark0 b with digest := 0 } : Frame).digest ≠ (paired.unhand 0 (mark0 b)).lessonDigest false ∧
    newerAttempt ((paired.unhand 0 (mark0 b)).attempt false) ({ mark0 b with attempt := 1 } : Frame).attempt.toNat = true ∧
    staleAttempt ((paired.unhand 0 (mark0 b)).attempt false) ({ mark0 b with attempt := 255 } : Frame).attempt.toNat = true ∧
    (let s := (paired.setReg (.bellStat false) 0).unhand 0 (mark0 b)
     s.portPart 0 = some false ∧ s.lesson false = some lesPair ∧ s.lessonRuns false = false) := by cases b <;> decide +kernel

/-- A recall in the given phase. -/
def rcl0 (ph : RecallPhase) (halt failed : Bool) : Recall := ⟨6, 1, halt, ph, 0, failed⟩

/-- The live state with that recall. -/
def recalled (ph : RecallPhase) (halt failed : Bool) : State :=
  (paired.setPart false { lesson := some lesPair, rcl := some (rcl0 ph halt failed) }).setReg (.bellStat false) 0

/-- The principal's restart, started. -/
def restart : Activation := ⟨none, 0, 0, false, false, false, false, false, true, true⟩

/-- The pair with its bells stopped, partition 0 changed, and a restart of the principal under way. -/
def stopped (f : Part → Part) (a : Option Activation) : State :=
  { (paired.setPart false (f { lesson := some lesPair })).setReg (.bellStat false) 0 with fw := { act := a } }

theorem wit_Recalls : paired.lesson false = some lesPair ∧ paired.running false = true ∧ (paired.part false).rcl = none ∧
    ((recalled .agreement false false).part false).rcl = some (rcl0 .agreement false false) ∧
    (rcl0 .agreement false false).phase = .agreement ∧ (rcl0 .hold false false).phase = .hold ∧
    (recalled .agreement false false).lesson false = some lesPair ∧
    (recalled .rebuild false false).regBit (.secPstat false) 29 = false ∧
    ((recalled .rebuild false false).setReg (.secPstat false) 0x20000000).regBit (.secPstat false) 29 = true ∧
    ((recalled .agreement false false).setReg (.checkMirror false) 0).regFld (.checkMirror false) 31 16 = 0 ∧
    ((recalled .agreement false false).part false).flip = none ∧
    -- causes met in the pause of a firmware change, on a pre-empted partition, and with nothing to recall
    (let s := stopped (fun x => { x with fwStop := true }) none
     s.running false = false ∧ (s.part false).rcl = none ∧ (s.part false).fwStop = true ∧ (s.part false).heldNote = none) ∧
    ((stopped (fun x => { x with fwStop := true, heldNote := some (1, 2, false) }) none).part false).heldNote = some (1, 2, false) ∧
    (let s := (stopped id (some restart)).setReg (.secPstat false) 0x20000000
     (s.part false).fwStop = false ∧ s.regBit (.secPstat false) 29 = true ∧ s.fwPaused = true) ∧
    ((stopped id none).fwPaused = false ∧ ((stopped id none).part false).fwStop = false ∧
      (stopped id none).regBit (.secPstat false) 29 = false ∧ ((stopped id none).part false).saving = none) ∧
    (rcl0 .rebuild false false).phase ≠ .agreement ∧
    ({ recalled .rebuild false false with fw := { act := some restart } } : State).fwPaused = true := by decide +kernel

/-- A notice that arrives during an agreement. -/
theorem wit_NoticeInAgreement : (let s := (recalled .agreement false false).unhand 0 (mark0 true)
    s.carries 0 = true ∧ s.forwardTo 0 (mark0 true) = none ∧ s.rxPort 0 (mark0 true) = 0 ∧ s.portPart 0 = some false ∧
    s.lesson false = some lesPair ∧ s.lessonRuns false = true ∧ (mark0 true).digest = s.lessonDigest false ∧
    (mark0 true).attempt.toNat = s.attempt false ∧ (s.part false).rcl = some (rcl0 .agreement false false)) := by decide +kernel

/-- Where no word is bad there is no frozen region to restore. -/
theorem restoreFrozen_clean (s : State) (p : Bool) (l : Lesson) (h : ∀ t, (s.tile t).errs = []) : s.restoreFrozen p l = s := by
  have hp : ∀ t, s.poisonedFrozen t = [] := fun t => by simp [State.poisonedFrozen, h]
  unfold State.restoreFrozen
  generalize s.lessonTiles p = ts
  induction ts with
  | nil => rfl
  | cons t ts ih => rw [List.foldl_cons, hp t]; exact ih

theorem wit_RecallEnds (h f : Bool) :
    (let s := (recalled .rebuild h f).restoreFrozen false lesPair
     s.copying false f = false) ∧
    ((({ recalled .rebuild h f with part0 := { (recalled .rebuild h f).part0 with healPos := some 0 } } : State).restoreFrozen false
      lesPair).copying false f = true) ∧
    ((recalled .rebuild h f).part false).rcl = some (rcl0 .rebuild h f) ∧
    (recalled .rebuild h f).lesson false = some lesPair ∧ (recalled .rebuild h f).regBit (.secPstat false) 29 = false ∧
    ((recalled .rebuild h f).restoreFrozen false lesPair).stops false (rcl0 .rebuild h f) = false ∧
    (((recalled .rebuild h f).setReg (.checkRecall false) 0xFF010000).restoreFrozen false lesPair).stops false
      (rcl0 .rebuild h f) = true := by
  rw [restoreFrozen_clean _ _ _ fun _ => rfl, restoreFrozen_clean _ _ _ fun _ => rfl, restoreFrozen_clean _ _ _ fun _ => rfl]
  cases h <;> cases f <;> decide +kernel

/-- Port 0 with n flits at the gate of queue 5. -/
def gated (n : Nat) : State := paired.setPort 0 { gate := [(5, List.replicate n ⟨List.replicate 64 1, 0⟩)] }

theorem wit_FrameSlotsAndMirror : (gated 2).portPart 0 = some false ∧ (gated 2).lesson false = some lesPair ∧
    (gated 2).carries 0 = true ∧
    ((gated 2).part false).further = false ∧ (gated 2).restoring false = false ∧ ((gated 2).port 0).switching = none ∧
    (gated 2).running false = true ∧ ((gated 2).port 0).late = [] ∧
    (lesPair.slots.find? fun b => !b.recv && b.slot == 77 && b.quantum == 3 && b.period == ((gated 2).part false).idx
      && lesPair.queues.any (fun q => q.idx == b.idx && (gated 2).bindPort false q == some 0)) = some ⟨5, false, 77, 0, 3, 2⟩ ∧
    (lesPair.queues.find? fun q => q.idx == 5) = some ⟨5, false, 5, 1, 0, 0, 2, 0⟩ ∧ ((5 : Nat) ≠ 191) ∧
    2 ≤ (Bank.get noFlits ((gated 2).port 0).gate 5).length ∧ (Bank.get noFlits ((gated 1).port 0).gate 5).length < 2 ∧
    (gated 2).portsOut = true ∧ State.reset.portsOut = false ∧
    Bank.get fullLink (((gated 2).setPort 0 { (gated 2).port 0 with credits := [(5, 0)] }).port 0).credits 5 = 0 ∧
    Bank.get fullLink ((gated 2).port 0).credits 5 ≠ 0 ∧ (gated 2).txPort 0 = 0 ∧
    (gated 1).portPart 0 = some false ∧ (gated 1).carries 0 = true ∧ (gated 1).running false = true ∧
    ((gated 2).setReg (.linkStat 0) 0).carries 0 = false ∧
    (((gated 2).setPart false { lesson := some lesPair, further := true }).part false).further = true ∧
    ((gated 2).setReg (.bellStat false) 0).running false = false ∧ ((gated 2).setReg (.bellStat false) 0).restoring false = false ∧
    (paired.part false).flip = none ∧ (paired.part false).refill = false ∧
    (let s := (paired.setPart false { flip := some 8 }).setReg (.checkMirror false) 0x4000
     (s.part false).flip ≠ none ∧ s.regBit (.checkMirror false) 14 = true) ∧
    ((paired.setPart false { refill := true }).part false).refill = true ∧
    (paired.copyPages false 0 0 0).1 = false := by decide +kernel

/-- A lesson whose queue 191 toward seat 1 mirrors one tensor of 32 elements, 448 bytes, with a slot for it. -/
def lesStream : Lesson := { lesMirror with
  slots := [⟨5, false, 77, 0, 3, 4⟩], tensors := [{ (default : TensorEnt) with n := 0, kind := 0 }]
  places := [{ (default : Placement) with tensor := 0, role := 2, nrows := 1, ncols := 32 }] }

/-- The pair on it, its stream going out at byte `pos`, with `c` credits of queue 191. -/
def mirroring (on : Bool) (pos c : Nat) : State :=
  (((paired.setPart false { lesson := some lesStream, txPos := pos }).setReg (.checkMirror false) (if on then 0x18000 else 0x10000)).setPort
    0 { credits := [(191, c)] })

theorem wit_MirrorSlots : ∀ pos ∈ [0, 192, 256, 448], ∀ c ∈ [0, 1], (let s := mirroring true pos c
    s.portPart 0 = some false ∧ s.carries 0 = true ∧ (s.part false).further = false ∧ s.running false = true ∧
    s.restoring false = false ∧ s.lesson false = some lesStream ∧
    (lesStream.slots.find? fun b => !b.recv && b.slot == 77 && b.quantum == 3 && b.period == (s.part false).idx
      && lesStream.queues.any (fun q => q.idx == b.idx && s.bindPort false q == some 0)) = some ⟨5, false, 77, 0, 3, 4⟩ ∧
    (lesStream.queues.find? fun q => q.idx == 5) = some ⟨5, false, 191, 1, 0, 0, 2, 0⟩ ∧ (s.port 0).late = [] ∧
    s.regBit (.checkMirror false) 15 = true ∧ (mirroring false pos c).regBit (.checkMirror false) 15 = false ∧
    (s.part false).txPos = pos ∧ lesStream.mirrorBytes = 448 ∧ Bank.get fullLink (s.port 0).credits 191 = c ∧
    (s.port (s.txPort 0)).switching = none ∧ (s.readLines false (s.bankBase false + pos) 256).2.1 = []) := by decide +kernel
/-! ### Witnesses: pigeonholes, links, roll calls, command packets -/

/-- Whether a packet passes what `State.Runs` asks. -/
def runsB (s : State) (c : Instr) : Bool :=
  match packetRow c with
  | some (k, r, x) => s.takes k && (pktCheck k r).isNone &&
      (x || (match pktHost k with | some h => s.openTo h | none => true))
  | none => false

theorem runs_of {s : State} {c : Instr} (h : runsB s c = true) : s.Runs c := by
  unfold runsB at h
  split at h
  · next k r x e =>
    simp only [Bool.and_eq_true, Bool.or_eq_true, Option.isNone_iff_eq_none] at h
    refine ⟨k, r, x, e, h.1.1, h.1.2, h.2.imp id fun hx p hp => ?_⟩
    rw [hp] at hx
    exact hx
  · cases h

/-- Every command of a list passes. -/
theorem runs_all {s : State} {cs : List Instr} (h : cs.all (runsB s) = true) : ∀ c ∈ cs, s.Runs c :=
  fun c m => runs_of (List.all_eq_true.mp h c m)

/-- Whether an access passes what `State.Reaches` asks. -/
def reachesB (s : State) (who : Issuer) (r : Reg) (write : Bool) : Bool :=
  s.served who && !s.foreign who r.addr write && decide (regAt r.addr = some r) &&
    (match windowAt r.addr with | some t => !s.winBusy t | none => true)

theorem reaches_of {s : State} {who : Issuer} {r : Reg} {w : Bool} (h : reachesB s who r w = true) : s.Reaches who r w := by
  unfold reachesB at h
  simp only [Bool.and_eq_true, Bool.not_eq_true', decide_eq_true_eq] at h
  refine ⟨h.1.1.1, h.1.1.2, h.1.2, fun t e => ?_⟩
  have hw := h.2
  rw [e] at hw
  simpa using hw

/-- Every access of a list reaches its register. -/
theorem reaches_all {l : List (State × Issuer × Reg × Bool)} (h : (l.all fun e => reachesB e.1 e.2.1 e.2.2.1 e.2.2.2) = true) :
    ∀ e ∈ l, e.1.Reaches e.2.1 e.2.2.1 e.2.2.2 :=
  fun e m => reaches_of (List.all_eq_true.mp h e m)

/-- A packet of management (false) or of host A on ring 0 (true). -/
def pk (host : Bool) (op len : Nat) (args : Bytes) (data : Option Bytes := none) : Packet :=
  ⟨if host then .hostA else .mgmt, 0, BitVec.ofNat 16 op, 0, 0, BitVec.ofNat 16 len, padTo 56 args, data⟩

/-- Command ring 0 of host A is enabled, with 256 entries, one of them waiting, and 256 replies. -/
def served (s : State) : State := regs [(.cmdRctl false 0, 0xA2000000), (.cmdCtail false 0, 1)] s

/-- The live state served, with both partitions on two fields each. -/
def both : State := served (live.setReg .secPartmap 0xC3)

/-- Pigeonhole 3 belongs to partition 0 and takes messages of peers; 4 is claimed by function 2 of host A; 5 is sent by it. -/
def holes : State := regs [(.pigeonOwn 3, 0x80000000), (.pigeonOwn 4, 0x80800000), (.linkStat 0, 0x30000000)] (served live)

/-- A peer's message for a pigeonhole, and a reply to tag 9. -/
def peerMsg (g : Nat) : Frame := ⟨0, 0, 6, BitVec.ofNat 13 (8000 + g), 0, 0, 1, padTo 256 [1, 0, 9]⟩
def peerAns : Frame := ⟨0, 0, 6, 7938, 0, 0, 1, padTo 256 [2, 0, 9, 0, 0]⟩

/-- Function 2 of host A holds pigeonhole 4, and has sent it where `go`. -/
def claimed (go : Bool) : State :=
  let s := after (.claim .hostA 2 4) holes
  if go then after (.go .hostA 2 4) s else s

theorem wit_Pigeonholes : State.reset.portsOut = false ∧ holes.portsOut = true ∧ (holes.unhand 1 (peerMsg 4)).carries 1 = false ∧
    (holes.unhand 0 (peerMsg 4)).forwardTo 0 (peerMsg 4) = none ∧
    (let s := holes.setReg (.linkRelay 17) 0xC0000000
     (s.unhand 0 (peerMsg 4)).carries 0 = true ∧ (s.unhand 0 (peerMsg 4)).forwardTo 0 (peerMsg 4) = some 17) ∧
    (({ holes with peerSent := [9] } : State).unhand 0 peerAns).forwardTo 0 peerAns = none ∧ 8000 ≤ (peerMsg 63).queue.toNat ∧ (peerMsg 63).queue.toNat < 8064 ∧
    field (padTo 256 (peerMsg 4).payload) 0 1 = 1 ∧ (holes.unhand 0 (peerMsg 4)).carries 0 = true ∧
    (holes.unhand 0 (peerMsg 3)).regBit (.pigeonOwn 3) 23 = false ∧ (holes.unhand 0 (peerMsg 4)).regBit (.pigeonOwn 4) 31 = true ∧
    (holes.unhand 0 (peerMsg 4)).regBit (.pigeonOwn 4) 23 = true ∧ (holes.unhand 0 (peerMsg 4)).pigeonClaimed 4 = false ∧
    ((claimed false).unhand 0 (peerMsg 4)).pigeonClaimed 4 = true ∧
    peerAns.queue.toNat = 7938 ∧ field (padTo 256 peerAns.payload) 0 1 = 2 ∧
    (holes.linkState 0 = 3 ∧ holes.linkState 1 ≠ 3 ∧ holes.txPort 0 = 0 ∧ holes.portPart 0 = none ∧ (holes.port 0).switching = none ∧
      (let own : Frame := { peerMsg 4 with payload := padTo 256 [1, 0, 9, 0, 16] }
       field (padTo 256 own.payload) 4 1 ≠ 0 ∧ field (padTo 256 own.payload) 4 1 ≤ 16)) ∧
    (9 : BitVec 16) ∈ ({ holes with peerSent := [9] } : State).peerSent ∧ (9 : BitVec 16) ∉ holes.peerSent ∧
    (({ holes with peerSent := [9] } : State).unhand 0 peerAns).carries 0 = true := by decide +kernel

theorem wit_PigeonholeOwners :
    (∀ e ∈ [(holes, Issuer.hostA, Reg.pigeonSend 4, true), (claimed false, .hostA, .pigeonSend 4, true),
      (claimed true, .mgmt, .pigeonTake 4, true)], e.1.Reaches e.2.1 e.2.2.1 e.2.2.2) ∧
    (holes.regBit (.pigeonOwn 4) 31 = true ∧ holes.pigeonClaimed 4 = false ∧ (claimed false).pigeonClaimed 4 = true ∧
      (claimed false).isClaimant .hostA 2 4 = true ∧ (claimed false).isClaimant .hostB 2 4 = false ∧
      (claimed false).pigeonGo 4 = false ∧ (claimed true).pigeonGo 4 = true) :=
  ⟨reaches_all (by decide +kernel), by decide +kernel⟩

/-- The next block on port 0, and a repeat request of block 7. -/
def blk (n : Nat) : Block := ⟨0, BitVec.ofNat 12 n, 0, List.replicate 640 0⟩

/-- Port 0 is up and keeps block 7, with a trained spare. -/
def linkUp : State := regs [(.linkStat 0, 0x38000000)] (paired.setPort 0 { sent := [blk 7] })

theorem wit_LinkLayer : State.reset.portsOut = false ∧ linkUp.portsOut = true ∧
    2048 ≤ (4095 - (linkUp.port 0).txSeq : BitVec 12).toNat ∧
    (8 - (linkUp.port 0).txSeq : BitVec 12).toNat < 2048 ∧ (∀ b ∈ (linkUp.port 0).sent, b.seq ≠ 8) ∧ linkUp.linkState 0 = 3 ∧
        linkUp.linkState 1 = 0 ∧ linkUp.linkState 0 ≠ 0 ∧ (blk 0).type = 0 ∧ (blk 0).seq = (linkUp.port 0).rxTop ∧
    (linkUp.port 0).rxTop = (linkUp.port 0).rxSeq ∧
    Bank.get (fun _ => none) (linkUp.port 0).reorder ((linkUp.port 0).rxSeq + 1).toNat = none ∧
    (linkUp.port 0).bads = [] ∧ Bank.get noFails (linkUp.port 0).fails (linkUp.port 0).rxTop.toNat < 7 ∧
    ((linkUp.port 0).sent.find? fun b => b.seq == 7) = some (blk 7) ∧ (∀ b ∈ (linkUp.port 0).sent, b.seq ≠ 4095) ∧
    (linkUp.port 0).switching = none ∧ linkUp.portUp 0 = true ∧ linkUp.portUp 1 = false ∧
    -- seven failures of the next block, a lane switch under way, a link-control block
    7 ≤ Bank.get noFails ((linkUp.setPort 0 { fails := [(0, 7)] }).port 0).fails 0 ∧
    ((linkUp.setPort 0 { switching := some (2, false) }).port 0).switching ≠ none ∧ ({ blk 0 with type := 2 } : Block).type = 2 := by
  decide +kernel

/-- Port 0 with the lane map of a training on all five lanes. -/
def mapped : State := linkUp.setReg (.linkLanemap 0) (trainedMap 0 0x1F)

theorem wit_LaneSwitches : (∃ lane, lane < 5 ∧ lane ≠ mapped.spareLane 0 ∧ mapped.laneSlot 0 lane ≠ none) ∧ mapped.hasSpare 0 = true ∧
    (mapped.port 0).switching = none ∧ (mapped.port 0).degraded = none ∧
    (∃ lane, lane < 5 ∧ (mapped.setReg (.linkStat 0) 0x30000000).laneSlot 0 lane ≠ none) ∧
    (mapped.setReg (.linkStat 0) 0x30000000).hasSpare 0 = false ∧
    (∀ c ∈ [0, 1, 2, 3, 2048], c ≤ mapped.regFld .linkLanethr 15 0) ∧
    ((mapped.setPort 0 { switching := some (2, true) }).port 0).switching = some (2, true) := by
  refine ⟨⟨0, ?_⟩, ?_, ?_, ?_, ⟨0, ?_⟩, ?_⟩ <;> decide +kernel

/-- A campus of one room whose entries name no serial. -/
def plan1 : Bytes := [0x42, 0x56, 0x32, 0x43, 0x41, 0x4D, 0x50, 0x53, 1, 0, 1, 1, 1] ++ List.replicate (51 + 288) 0

/-- The live state with that plan. -/
def planned : State := { live with retained := { plan := plan1 } }

/-- The part of seat 1 of this room, on the other end of port 0. -/
def goodPeer : Peer := ⟨farEnd 0, 1, 0, 0, 0x41, 0, [], planned.planDigest, none⟩

/-- Port 0 in state st of its roll call with that peer recorded. -/
def rolling (st : Word) : State :=
  (planned.setReg (.linkStat 0) (st * 0x10000000)).setPort 0 { peer := some goodPeer, verdictSent := true, probes := 62 }

theorem wit_RollCalls : (rolling 2).portsOut = true ∧ State.reset.portsOut = false ∧ (rolling 2).portPart 0 = none ∧
    ((rolling 2).port 0).ownDelay = none ∧ (((rolling 2).setPort 17 { ownDelay := some 0 }).port 17).ownDelay ≠ none ∧ laneCount 7 < 4 ∧ 4 ≤ laneCount 0xF ∧ (rolling 2).linkState 0 = 2 ∧ (rolling 1).linkState 0 = 1 ∧
    ((rolling 2).port 0).peer = some goodPeer ∧ ((rolling 2).port 0).probes < 63 ∧
    ((rolling 2).port 0).verdictSent = true ∧ planOk plan1 = true ∧ (rolling 2).judge 0 { goodPeer with verdict := none } = 0 ∧
    ((rolling 0).setReg (.linkStat 17) 0x04000000).regBit (.linkStat 17) 26 = true ∧
    (let s : State := { rolling 2 with rollMask := 1 }
     ∃ l ∈ (List.range 20).filter (bit s.rollMask.toNat), s.linkState l = 1 ∨ s.linkState l = 2) ∧
    (let s : State := { rolling 3 with rollMask := 1 }
     (∀ l ∈ (List.range 20).filter (bit s.rollMask.toNat), s.linkState l ≠ 1 ∧ s.linkState l ≠ 2) ∧ s.rollCmd = none) := by
  refine ⟨by decide, by decide, ?_⟩
  decide +kernel

/-- IDENTIFY of management, of host A, with a flag outside R296, with a parameter length, and with a parameter byte. -/
theorem wit_CommandPackets : both.takes (pk false 0x101 0 []) = true ∧ both.takes (pk true 0x101 0 []) = true ∧
    State.reset.takes (pk true 0x101 0 []) = false ∧ (pk true 0x102 0 []).opcode.toNat ≠ 0x101 ∧
    (pk true 0x101 1 []).plen.toNat ≠ 0 ∧ ({ pk true 0x101 0 [] with flags := 4 } : Packet).flags.toNat % 256 / 4 ≠ 0 ∧
    (pk true 0x101 0 []).flags.toNat < 4 ∧ pktTail (pk true 0x101 0 [1]) 0 = some 8 ∧ pktTail (pk true 0x101 0 []) 0 = none ∧
    pktHost (pk true 0x201 17 []) = some false ∧
    (both.setPart false { closed := true }).openTo false = false ∧ both.hostUp false = true ∧ both.hostUp true = true ∧
    pktHost (pk false 0x101 0 []) = none ∧
    (({ both with cmds := [⟨1, .mgmt, 0, 0x110, 0, false, none, 0⟩] } : State).cmd 1).isSome = true := by decide +kernel

/-- Arguments of READ_RING: ring 0, first index 0, at most 4 entries, to host address 64. -/
def rdArgs : Bytes := padTo 8 [0] ++ toLE 4 4 ++ toLE 4 0 ++ toLE 8 64

theorem wit_StatusCommands : (∀ c ∈ [Instr.identify (pk true 0x101 0 []), .partState (pk true 0x102 0 []),
    .testResults (pk false 0x802 0 []), .fwStatus (pk true 0x703 0 []), .editionStatus (pk true 0x303 0 []),
    .readSensors (pk true 0x502 0 []), .powerLimit (pk false 0x118 2 (toLE 2 600)), .powerLimit (pk false 0x118 2 (toLE 2 2201)),
    .debugChallenge (pk false 0x602 0 []), .reportCard (pk true 0x601 40 (toLE 8 64)),
    .reportCard (pk false 0x601 40 (toLE 8 64))], both.Runs c) := runs_all (by decide +kernel)

/-- A fenced part with management up. -/
def fencedPart : State := let s := both.fencePartAll; { s with pins := { s.pins with mgmt := true } }

theorem wit_ReadRing : (∀ c ∈ [Instr.readRing (pk false 0x501 24 (padTo 8 [1] ++ toLE 4 4 ++ toLE 4 0 ++ toLE 8 64))],
      fencedPart.Runs c) ∧ fencedPart.pins.fenced = true ∧ (∀ c ∈ [Instr.readRing (pk true 0x501 24 rdArgs),
          .readRing (pk false 0x501 24 rdArgs)], both.Runs c) ∧
    (let k := pk true 0x501 24 rdArgs
     pktSet k 9 12 = none ∧ pktSet k 20 24 = none ∧ pktArg k 8 1 ≤ 6 ∧ pktArg k 12 4 < (both.ringOf (pktOwn k) 0).2 ∧
         1 ≤ pktArg k 16 4 ∧
     pktArg k 16 4 ≤ 65536 ∧ pktArg k 24 8 % 64 = 0 ∧ both.hostUp (pktPort k) = true) :=
  ⟨runs_all (by decide +kernel), by decide +kernel, runs_all (by decide +kernel), by decide +kernel⟩
/-! ### Witnesses: management, lessons, weights, firmware -/

/-- Both partitions on two fields, no bells, host ring 0 enabled, partition pages assigned. -/
def idle : State := served (regs [(.secPartmap, 0xC3), (.bellStat false, 0), (.testStat, 0x80000000)] live)

theorem wit_PartitionManagement : (∀ c ∈ [Instr.resetPartition (pk false 0x110 1 [1]), .clearRetained (pk false 0x111 0 []),
      .assignPartitions (pk false 0x112 2 [3, 12]), .eraserPass (pk false 0x113 1 [0])], idle.Runs c) ∧
    pktPart (pk false 0x110 1 [1]) = some true ∧ pktPart (pk false 0x113 1 [0]) = some false ∧
    idle.erasing true = false ∧ idle.running false = false ∧ idle.running true = false ∧
    (∀ f, f < 4 → ¬ (bit 3 f = true ∧ bit 12 f = true)) ∧ idle.anyLesson = false ∧
    idle.mayAssign false (idle.partFields false) 3 = true ∧ idle.mayAssign true (idle.partFields true) 12 = true ∧
    (idle.setReg (.secPstat false) 0x40000000).erasing false = true :=
  ⟨runs_all (by decide +kernel), by decide +kernel⟩

/-- Arguments of LOAD_CAMPUS_PLAN for a plan of 352 bytes. -/
def planArgs : Bytes := toLE 8 0 ++ toLE 4 352

/-- An image of one room and one logical part, which holds one trainable parameter: a tensor table and a memory plan. -/
def image1 : Bytes :=
  padTo 128 (List.replicate 16 0 ++ toLE 4 1) ++ padTo 128 (toLE 4 2 ++ toLE 4 256) ++
  (toLE 2 3 ++ toLE 2 0xFFFF ++ toLE 6 288 ++ toLE 6 64) ++ (toLE 2 7 ++ toLE 2 0 ++ toLE 6 352 ++ toLE 6 112) ++
  List.replicate 64 0 ++ padTo 64 (toLE 8 0 ++ toLE 4 1) ++ padTo 48 ([0, 0,
      2] ++ List.replicate 13 0 ++ toLE 8 1 ++ toLE 8 0 ++ toLE 8 1)

/-- A standby: seat 16 with that image. -/
def standing : State := (idle.setReg .officeStrap 16).setPart false { image := image1 }

theorem wit_CampusAndSeats : (∀ c ∈ [Instr.loadCampusPlan (pk false 0x114 12 planArgs (some plan1)), .rollCall (pk false 0x115 4 [1]),
      .shutdown (pk false 0x117 0 [])], idle.Runs c) ∧ (∀ c ∈ [Instr.substitute (pk false 0x116 1 [0] (some []))], standing.Runs c) ∧
    (let k := pk false 0x114 12 planArgs (some plan1)
     pktArg k 8 8 % 64 = 0 ∧ pktArg k 16 4 = (plan1.take (pktArg k 16 4)).length ∧ pktArg k 16 4 ≤ 147520) ∧ idle.anyLesson = false ∧
    pktArg (pk false 0x115 4 [0xFF, 0xFF, 0xF]) 8 4 < 2 ^ 20 ∧ idle.rollMask = 0 ∧ idle.rollCmd = none ∧
    idle.portsOut = true ∧ (let s := idle.setReg .testStat 0x60000000
      runsB s (.rollCall (pk false 0x115 4 [1])) = true ∧ s.portsOut = false) ∧
    (lessonOf image1 0 false).mirrorBytes = 14 ∧ standing.seat = substituteOf 0 ∧ standing.standbyPart = some false ∧
        (standing.part false).subst = [] ∧
    standing.recalling false = false ∧ standing.farTaken (standing.part false).image = false ∧
    (∀ o ∈ [false, true], ∀ e ∈ (standing.part o).subst, e.2 ≠ standing.seat) ∧
    standing.logicalPart 0 (field (standing.part false).image 16 4) ((field (standing.part false).image 10 2).testBit 1) = some 0 :=
  ⟨runs_all (by decide +kernel), runs_all (by decide +kernel), by decide +kernel⟩

/-- Bus address 64 and length 256, as LESSON_LOAD and the others take them. -/
def busArgs : Bytes := toLE 8 64 ++ toLE 8 256

/-- The idle part with the lesson of one part loaded. -/
def lessoned : State := idle.setPart false { lesson := some les }

/-- An entry of a re-shard table: 64 bytes of tile (0, 0)'s shelf memory to tile (0, 1)'s. -/
def shardEnt : Permute := permuteOf (List.replicate 32 0)

theorem wit_LessonAndReshard : (∀ c ∈ [Instr.lessonLoad (pk true 0x201 17 busArgs (some [])), .lessonHalt (pk true 0x203 0 []),
      .lessonHalt (pk false 0x203 0 []), .lessonUnload (pk true 0x204 0 []), .setScalar (pk true 0x401 16 ([63, 0, 0,
          0] ++ toLE 4 5 ++ [1])),
      .lessonStart (pk true 0x202 8 [7]),
      .reshard (pk true 0x205 16 (toLE 8 64 ++ toLE 4 0 ++ toLE 4 (lessoned.lessonDigest false).toNat) (some []))],
      lessoned.Runs c) ∧
    (let k := pk true 0x201 17 busArgs (some [])
     pktArg k 24 1 < 2 ∧ pktArg k 8 8 % 64 = 0) ∧
    lessoned.lessonRuns false = false ∧ lessoned.recalling false = false ∧ (lessoned.part false).loading = none ∧
    ((lessoned.setPart false { loading := some ([], false, 1) }).setPart false {}).lessonBad false [] false = some (1, {}) ∧
    (lessoned.part false).lesson = some les ∧ (lessoned.part false).saved = none ∧ lessoned.chanUses false [1, 2, 3] = false ∧
    lessoned.chanUses false [2, 3] = false ∧ (lessoned.part false).failedSets = [] ∧ (lessoned.part false).reshard = none ∧
    lessoned.regFld (.checkMirror false) 31 16 ≤ 1 ∧ (lessoned.part false).preReq = none ∧ lessoned.fw.act = none ∧
    paired.lessonRuns false = true ∧ pktSet (pk true 0x401 16 ([63, 0, 0, 0] ++ toLE 4 5 ++ [1])) 9 12 = none ∧
    lessoned.step64 false < BitVec.ofNat 64 (pktArg (pk true 0x401 16 ([63, 0, 0, 0] ++ toLE 4 5 ++ [1])) 16 8) ∧
    lessoned.cmdOf 0x0205 (some false) = none ∧ digest32 les.digest = BitVec.ofNat 32 (lessoned.lessonDigest false).toNat ∧
    lessoned.tableOk false les [] = true ∧ lessoned.physTile les.cols 0 0 = some 0 ∧ lessoned.physTile les.cols 0 1 = some 1 ∧
    lessoned.tilePart 1 = some false ∧ 0x3FFFFF + [(5 : Byte)].length ≤ 0x400000 :=
  ⟨runs_all (by decide +kernel), by decide +kernel⟩

/-- An entry of 64 bytes that port 0 brought in one frame, and the same before the frame has come. -/
theorem wit_Arrivals : (let a : Arrival := ⟨0, 0, 0, 0, 64, List.replicate 64 5⟩
    ({ shardIn := [(0, 0, padTo 256 a.data)] } : Part).shardDone [a] = true ∧ ({} : Part).shardDone [a] = false ∧
    ({} : Part).shardDone [] = true) := by decide +kernel

/-- A re-shard that is not completed. -/
def sharding (up : Bool) : State :=
  { paired with cmds := [⟨1, .hostA, 0, 0x205, 0, false, some false, 0⟩] }.setReg (.linkStat 0) (if up then 0x30000000 else 0)

theorem wit_ReshardEnds : (∃ c, (sharding true).cmdOf 0x0205 (some false) = some c) ∧ (sharding true).lesson false = some lesPair ∧
    ((sharding true).namedPorts false).all (sharding true).portUp = true ∧
    ((sharding false).namedPorts false).all (sharding false).portUp = false := by
  refine ⟨⟨_, (rfl)⟩, ?_⟩
  decide +kernel
/-- A tensor of eight fp32 elements in one row, number 0. -/
def ten0 : TensorEnt := ⟨0, 0xFFFF, 0, 4, 0, 0, 8, 1, 8, 0, 0, 0, 0, 0, 0, 0, 0⟩

/-- A lesson of that tensor, placed in the shelf memory of grid tile (0, 0). -/
def lesTen : Lesson := { les with tensors := [ten0], places := [⟨0, 0, 1, 0, 0, 0, 0, 1, 0, 8, 0⟩] }

/-- The idle part with it, storage connection 0 up on port 0, and the given load. -/
def storing (w : Option WLoad) : State := (idle.setPart false { lesson := some lesTen, load := w }).setReg (.dmaLdconn 0) 0x80000000

/-- A manifest of one set and one entry: tensor 0, connection 0. -/
def manifest0 : Bytes := [0x42, 0x56, 0x32, 0x57, 0x4C, 0x4F, 0x41, 0x44, 1, 0, 1, 0, 1] ++ List.replicate 163 0

/-- That entry. -/
def ent0 : LoadEnt := ⟨0, 0, false, 0, 0, 0, 0, 0, 0, false⟩

/-- A load of it with nothing read, and one with nothing to read. -/
def load0 : WLoad := ⟨1, [[1]], [ent0], false, 0, 0, [], [], [], []⟩
def load1 : WLoad := ⟨1, [], [], false, 0, 0, [], [], [], []⟩

/-- Arguments of WEIGHT_LOAD: manifest address, length, mode, staging base. -/
def wlArgs (stage : Bool) : Bytes := toLE 8 64 ++ toLE 4 176 ++ [if stage then 1 else 0]

/-- A wave whose region 3 of tile 5 is open, and one that stages. -/
def waving : State := (storing none).setPart false { lesson := some lesTen, wave := some ⟨9, true, [(0, 5, 3, 0)], [(5, 3)]⟩ }

theorem wit_WeightLoadsAndStorage : (∀ c ∈ [Instr.weightLoad (pk true 0x301 24 (wlArgs false) (some manifest0)),
      .weightLoad (pk true 0x301 24 (wlArgs true) (some manifest0))], (storing none).Runs c) ∧
    (∀ c ∈ [Instr.editionSwitch (pk true 0x302 4 [1])], ((storing none).setReg (.checkEdwave false) 0x40000000).Runs c) ∧
    (let k := pk true 0x301 24 (wlArgs true) (some manifest0)
     pktOwn k = false ∧ pktSet k 21 24 = none ∧ pktArg k 8 8 % 64 = 0 ∧ pktArg k 20 1 = 1 ∧ pktArg k 24 8 % 65536 = 0 ∧
     pktArg k 16 4 = manifest0.length) ∧
    ((storing none).part false).lesson = some lesTen ∧ ((storing none).part false).stagedEd = none ∧
    ((storing none).part false).wave = none ∧ ((storing none).part false).load = none ∧ (storing none).lessonRuns false = false ∧
    (storing none).recalling false = false ∧ (storing none).manifestOk false lesTen manifest0 = true ∧
    manifestEnts manifest0 = [ent0] ∧ (storing none).regBit (.dmaLdconn 0) 31 = true ∧
    (∀ e ∈ manifestSets manifest0, (storing none).regBit (.dmaLdconn e.conn) 31 = true) ∧
    ((storing (some load0)).part false).load = some load0 ∧ load0.ents[0]? = some ent0 ∧ lesTen.tensor 0 = some ten0 ∧
    0 ∈ entLeaves lesTen load0 ent0 ∧ leafBytes ten0 (lesTen.shape ent0) ent0 (leafAt (lesTen.shape ent0) ent0 0) = 4 ∧
    entsDone lesTen load1 = load1.ents.length ∧ (storing (some load1)).badSidecar false lesTen load1 = none ∧
    BitVec.ofNat 32 (pktArg (pk true 0x302 4 [1]) 8 4) = (storing none).reg (.checkEdptr false) + 1 ∧
    (waving.part false).wave = some ⟨9, true, [(0, 5, 3, 0)], [(5, 3)]⟩ ∧ waving.regBit (.secPstat false) 29 = false ∧
    (waving.readImages false lesTen ((waving.regionCopies false lesTen 5 3).map (·.2)).eraseDups).1 = [] :=
  ⟨runs_all (by decide +kernel), runs_all (by decide +kernel), by decide +kernel⟩

/-- A storage connection record of 64 bytes: connection 15, partition 1, port 1, up or closed. -/
def connRec (up : Bool) : Bytes := padTo 64 [15, 1, 1, if up then 1 else 0]

theorem wit_StorageRecords : (connRec true).length = 64 ∧ live.pins.mgmt = true ∧ State.reset.pins.mgmt = false ∧
    field (connRec true) 0 1 = 15 ∧ zeroAt (connRec true) 40 24 = true ∧ live.connBusy 15 = false ∧
    (live.setReg .secPortown 0x200000).regBit .secPortown 21 = true ∧ live.erasing true = false ∧
    (storing (some load0)).connBusy 0 = true := by decide +kernel

/-- A part whose partition 0 recalls, holds for a substitution, saves, or is saved. -/
def savedPart : State := ({ idle.setPart false { lesson := some les, saved := some ⟨[(3, { slip := 4 })], [], []⟩ } with
  cmds := [⟨1, .mgmt, 0, 0x405, 0, false, some false, 0⟩] }).setReg (.secPstat false) 0x20000000

theorem wit_StepControl : (∀ c ∈ [Instr.mgmtRecall (pk false 0x402 1 [1]), .preempt (pk false 0x404 1 [0]),
      .resume (pk false 0x403 0 []), .resumePartition (pk false 0x405 1 [0])], (served taught).Runs c) ∧
    (∀ c ∈ [Instr.resume (pk false 0x403 0 [])], (recalled .hold false true).Runs c) ∧
    pktArg (pk false 0x402 1 [1]) 8 1 < 2 ∧ pktPart (pk false 0x404 1 [0]) = some false ∧
    ((served taught).lesson false).isSome = true ∧ (served taught).lessonRuns false = true ∧
    (served taught).regFld (.secPstat false) 30 28 = 0 ∧ ((served taught).part false).preReq = none ∧
    ((served taught).part false).saving = none ∧ (served taught).slotPermanent false = false ∧
    (recalled .hold false true).holding false = true ∧ (recalled .hold false true).holding true = false ∧
    (recalled .hold false true).lesson false = some lesPair ∧ (served taught).holding false = false ∧
    ((taught.setPart false { saving := some 4 }).part false).saving = some 4 ∧
    (taught.setPart false { saving := some 4 }).chansRun false = false ∧
    ((taught.setPart false { saving := some 4 }).setReg (.dmaChstat 0) 0x10000000).chansRun false = true ∧
    (savedPart.cmdOf 0x0405 (some false)).isSome = true ∧ (savedPart.part false).saved = some ⟨[(3, { slip := 4 })], [], []⟩ ∧
    savedPart.lesson false = some les ∧ savedPart.regBit (.secPstat false) 29 = true ∧ taught.cmdOf 0x0405 (some false) = none ∧
    -- a restoration that streams, a pass of the other partition, an open region of a wave
    (let s := recalled .hold false true
     let u := s.setPart false { s.part false with restores := [(0, 1, 2)] }
     runsB u (.resume (pk false 0x403 0 [])) = true ∧ (!(u.part false).restores.isEmpty && !u.unanswered false) = true ∧
     (!(s.part false).restores.isEmpty && !s.unanswered false) = false) ∧
    (let s := (served taught).setReg (.secPstat true) 0x40000000
     runsB s (.preempt (pk false 0x404 1 [0])) = true ∧ s.erasing true = true ∧ (served taught).erasing true = false) ∧
    (let s := taught.setPart false { saving := some 4, wave := some ⟨9, true, [(0, 5, 3, 0)], [(5, 3)]⟩ }
     s.waveCopies false = true ∧ (s.setReg (.checkEdwave false) 0x20000000).waveCopies false = false) ∧
    (∀ n ∈ taught.partTiles false, (taught.tile n).errs = []) ∧
    -- a hold whose ports are all up, and one whose port is not
    (paired.substituted false = true ∧ (paired.setReg (.linkStat 0) 0).substituted false = false) ∧
    -- the save slots, whole and with an uncorrectable line
    (bit (savedPart.partFields false) 0 = true ∧ saveSlot 0 ≤ 64 * (saveSlot 0 / 64) ∧
      (savedPart.readSlots false).1 = false ∧
      (({ savedPart with stashErr := [(saveSlot 0 / 64, 2)] } : State).readSlots false).1 = true) :=
  ⟨runs_all (by decide +kernel), runs_all (by decide +kernel), by decide +kernel⟩

/-- FW_WRITE of 16 bytes from host A: address, length, source, port, flags. -/
def fwArgs : Bytes := toLE 8 64 ++ toLE 4 16 ++ [0, 1, 15, 0]

/-- An activation or a fallback in which `w` bells have still to stop, or whose principal has started. -/
def acting (fallback w started : Bool) : State :=
  { idle with fw := { act := some ⟨some 3, 0, 0, w, w, false, false, fallback, false, started⟩ } }

theorem wit_FirmwareUpdate : (∀ c ∈ [Instr.fwWrite (pk false 0x701 16 fwArgs (some (List.replicate 16 0))),
      .fwActivate (pk false 0x702 16 [])], (idle.setReg (.fwSlot true) 0x40000000).Runs c) ∧
    (let k := pk false 0x701 16 fwArgs (some (List.replicate 16 0))
     pktArg k 20 1 = 0 ∧ pktArg k 21 1 ≤ 1 ∧ pktArg k 22 1 ≤ 15 ∧ pktArg k 23 1 = 0 ∧ pktArg k 8 8 % 64 = 0 ∧ pktArg k 16 4 ≤ 16) ∧
    idle.fwBusy = false ∧ ({ idle with fw := { writing := some (1, [1]) } } : State).fw.writing = some (1, [1]) ∧
    idle.slotState (!idle.runSlot) ≠ 1 ∧ (idle.setReg (.fwSlot (!idle.runSlot)) 0x20000000).slotState (!idle.runSlot) = 1 ∧
    idle.fw.act = none ∧ (acting false true false).fwPaused = false ∧ (acting false false true).fwPaused = true ∧
    idle.running false = false ∧ idle.running true = false ∧ (idle.setReg (.bellStat true) 0x80000000).running true = true ∧
    idle.bundleOutcome (idle.slot (!idle.runSlot)) ≠ 0 ∧ idle.recalling false = false ∧ idle.recalling true = false ∧
    runsB ((idle.setReg (.fwSlot true) 0x20000000).setReg (.bellStat true) 0x80000000) (.fwActivate (pk false 0x702 16 [])) = true ∧
    runsB (idle.setReg (.fwSlot true) 0x20000000) (.fwActivate (pk false 0x702 16 [])) = true ∧
    (acting false false true).regFld .fwMonstat 11 0 ≠ 0xAAA ∧
    ((acting false false true).setReg .fwMonstat 0xAAA).regFld .fwMonstat 11 0 = 0xAAA ∧ idle.mayConfirm = false ∧
    (regs [(.fwStat, 0xC000003C), (.fwMonstat, 0xAAA)] idle).mayConfirm = true ∧
    (idle.setReg .fwStat 0xC000003C).regFld .fwStat 31 30 = 3 := by
  refine ⟨runs_all (by decide +kernel), ?_⟩
  decide +kernel
/-! ### Witnesses: timeouts, attestation, registers, the DMA engine, sensors, starts -/

/-- A command of number 1 outstanding with an opcode. -/
def owing (op : BitVec 16) : State := { idle with cmds := [⟨1, .mgmt, 0, op, 0, false, some false, 0⟩] }

theorem wit_CommandsThatEnd : idle.cmd 1 = none ∧
    (((owing 0x0110).cmd 1).isSome = true ∧ ((owing 0x0604).cmd 1).isSome = true) ∧
    ((((owing 0x0404).setPart false { preReq := some 1 }).part false).preReq = some 1 ∧ ((owing 0x0404).part false).preReq ≠ some 1 ∧
      ((owing 0x0404).cmd 1).isSome = true) ∧ (owing 0x0201).cmd 1 = some ⟨1, .mgmt, 0, 0x0201, 0, false, some false, 0⟩ ∧
    (owing 0x0117).cmd 1 = some ⟨1, .mgmt, 0, 0x0117, 0, false, some false, 0⟩ ∧
    (let s := live.setReg .testStat 0x70000000
     s.pins.fenced = false ∧ 6 ≤ s.phase ∧ s.phase ≤ 9 ∧ ¬ (s.phase = 6 ∧ s.erasing true = true)) ∧
         State.reset.phase < 6 := by decide +kernel

/-- SPDM requests of R357 with the version bytes that fit. -/
theorem wit_AttestationAndDebug : live.spdmTakes .mgmt = true ∧ live.spdmTakes .hostA = true ∧ State.reset.spdmTakes .mgmt = false ∧
    field [0x10, 0x84, 0, 0] 0 1 = 0x10 ∧ field [0x12, 0xE1, 0, 0] 1 1 = 0xE1 ∧
    field ([0x12, 0x82, 0, 0] ++ toLE 2 0 ++ toLE 2 64) 6 2 = 64 ∧ field [0x12, 0x82, 1, 0] 2 1 % 16 ≠ 0 ∧
    field ([0x12, 0x83, 0, 0] ++ List.replicate 32 0) 1 1 = 0x83 ∧ field [0x12, 0xE0, 0, 0xFF] 3 1 = 0xFF ∧
    field [0x11, 0xE0, 0, 0] 0 1 ≠ 0x12 := by decide +kernel

/-- R356: a closed port offers BYPASS and IDCODE alone while RESET_N is high; scope 0 opens all of it, scope 1 nothing more. -/
theorem test_tap :
    [TapUse.bypass, .idcode, .boundary, .full].map live.tapOffers = [true, true, !live.pins.resetN, false] ∧
    State.reset.tapOffers .boundary = true ∧
    (live.setReg .secDebug 0x81000000).tapOffers .full = true ∧ (live.setReg .secDebug 0x82000000).tapOffers .full = false := by
  decide +kernel

theorem wit_DebugCommands : (∀ c ∈ [Instr.debugUnlock (pk false 0x603 56 [7, 0]), .debugUnlock (pk false 0x603 56 [7, 1]),
      .ownerKeyBurn (pk false 0x604 48 (List.replicate 48 5))], idle.Runs c) ∧ pktSet (pk false 0x603 56 [7, 1]) 10 16 = none ∧
    (let s := { idle with nonce := some 5, half := some ((7 : Byte), List.replicate 48 0) }
     s.nonce = some 5 ∧ s.half = some (7, List.replicate 48 0)) ∧
    (idle.setReg .secDebug 0x82000000).regBit .secDebug 31 = true ∧ (idle.setReg .secDebug 0x82000000).regBit .secDebug 25 = true ∧
    idle.fuses.owner = none ∧ idle.regBit .secDebug 31 = false :=
  ⟨runs_all (by decide +kernel), by decide +kernel⟩

theorem wit_RegisterWrites : State.reset.served .hostA = false ∧ live.served .hostA = true ∧
    live.foreign .hostA (Reg.bellStat true).addr true = true ∧ live.foreign .hostA (Reg.checkSeedLo false).addr true = false ∧
    regAt (Reg.checkSeedLo false).addr = some (.checkSeedLo false) ∧ regAt 0xFFFFFC = none ∧ windowAt 0xFFFFFC = none ∧
    (Reg.bellHoldmax false).info.busy = false ∧ commitOf (Reg.bellHoldmax false) = none ∧
    (Reg.bellPeriod false 0).info.st ≠ 0 ∧ commitOf (.bellPeriod false 0) = some (.bellCommit false) := by decide +kernel

theorem wit_RegisterCommits :
    (∀ e ∈ [(live, Issuer.hostA, Reg.bellCommit false, true), (live, .mgmt, .linkCommit, true), (live, .hostB, .watchCommit true,
        true),
      (live, .mgmt, .pigeonCommit, true), (live, .mgmt, .powerLimit, true), (live.setReg .fwMonstat 0xAAA, .mgmt, .tileMxinj 2499,
          true)],
      e.1.Reaches e.2.1 e.2.2.1 e.2.2.2) ∧ windowAt (Reg.bellCommit false).addr = none ∧ (live.tile 5).fenced = false ∧
    ((live.setTile 5 { fenced := true }).tile 5).fenced = true :=
  ⟨reaches_all (by decide +kernel), by decide +kernel⟩

/-- The live state, its monitors ready, with a word staged for a register. -/
def staging (r : Reg) (w : Word) : State := { live.setReg .fwMonstat 0xAAA with staged := [(r.addr, w)] }

theorem wit_StagedSets :
    (∀ e ∈ [(staging (.bellPeriod false 0) 0, Issuer.hostA, Reg.bellCommit false, true), (staging (.bellPeriod false 0) 1, .mgmt,
        .bellCommit false, true), (staging .secPortown 0, .mgmt, .secCommit, true), (staging (.secPagecnt false) 1, .mgmt,
            .secCommit, true),
        (live, .monitor, .secCommit, true), (staging (.tileAplan 7) 1, .mgmt, .tileCommit 7, true), (live.setReg .fwMonstat 0xAAA,
            .mgmt, .tileCommit 7, true)],
      e.1.Reaches e.2.1 e.2.2.1 e.2.2.2) ∧
    (staging (.bellPeriod false 0) 0).stagedIn (Reg.bellPeriod false 0).addr (Reg.bellWork false 0).addr ≠ [] ∧
    (staging (.bellPeriod false 0) 0).bellSetOk false = true ∧ (staging (.bellPeriod false 0) 1).bellSetOk false = false ∧
    (staging .secPortown 0).stagedIn 0x90000 0xA0000 ≠ [] ∧ (staging .secPortown 0).secOk = true ∧
    (staging (.secPagecnt false) 1).secOk = false ∧
    (staging (.tileAplan 7) 1).stagedIn (0x100000 + 0x1000 * 7) (0x100000 + 0x1000 * 7 + 0x1000) ≠ [] ∧
    live.stagedIn (0x100000 + 0x1000 * 7) (0x100000 + 0x1000 * 7 + 0x1000) = [] ∧ (live.tile 7).dir = [] ∧
    (((staging (.tileAplan 7) 1).setTile 7 { dir := [(5, ⟨false, 0, 1⟩)] }).tile 7).dir ≠ [] :=
  ⟨reaches_all (by decide +kernel), by decide +kernel⟩

theorem wit_CommandRingsAndReads :
    (∀ e ∈ [(live, Issuer.hostA, Reg.cmdDoorbell false, true), (live, .hostB, .cmdCtail true 255, true), (live, .hostA,
        .cmdRhead false 0, true),
      (live, .hostA, .cmdRctl false 255, true), (live, .hostA, .checkStepLo false, false), (live, .hostA, .checkStepHi false, false),
      (live, .mgmt, .dmaStat, false), (live.setReg .fwMonstat 0xAAA, .mgmt, .tileToken 2499 3, false)],
      e.1.Reaches e.2.1 e.2.2.1 e.2.2.2) ∧
    ownsQueue .hostA 0 = true ∧ ownsQueue .hostA 1024 = true ∧ ownsQueue .hostA 512 = false ∧ ownsQueue .mgmt 8064 = true ∧
    highOf (.checkStepLo false) = some (.checkStepHi false) ∧ highOf .officeId = none ∧ isHigh .officeId = false ∧
    State.reset.served .hostA = false ∧ live.foreign .hostA (Reg.bellStat true).addr false = true ∧ regAt 0xFFFFFC = none ∧
    field ([0x10, 1, 16, 0] ++ toLE 4 0xFFFFC0) 0 1 = 0x10 ∧ mgmtStatus ([0x10, 1, 16, 0] ++ toLE 4 0xFFFFC0) = 0 ∧
    mgmtStatus ([0x10, 1, 16, 0] ++ toLE 4 0xFFFFC4) = 1 ∧ mgmtStatus ([0x10, 2, 1, 0] ++ toLE 8 0) = 0 ∧
    -- an empty ring, and one that holds a packet; a host without its port, and one in its eraser pass; the high word beside the low one
    ((served live).ringEmpty 0 = false ∧ (let s := (served live).setReg (.cmdCtail false 0) 0
      s.ringEmpty 0 = true ∧ s.regBit (.cmdRctl false 0) 31 = true ∧
      s.regFld (.cmdChead false 0) 11 0 = s.regFld (.cmdCtail false 0) 11 0 % ringSize (s.regFld (.cmdRctl false 0) 29 26))) ∧
    (State.reset.hostUp false = false ∧ (let s := live.setReg (.secPstat false) 0x40000000
      s.served .hostA = false ∧ s.hostUp false = true)) ∧
    ((Reg.checkStepLo false).addr + 4 = (Reg.checkStepHi false).addr ∧ live.served .monitor = true ∧
      live.foreign .monitor (Reg.checkStepHi false).addr false = false) ∧
    (∀ r ∈ [Reg.linkStat 0, .linkLanemap 0], highOf r = none ∧ isHigh r = false ∧ reachesB live .mgmt r false = true) ∧
    (Reg.linkStat 0).addr + 4 = (Reg.linkLanemap 0).addr ∧
    mgmtStatus ([0x10, 1, 17, 0] ++ toLE 4 0) = 3 ∧ mgmtStatus [0x10, 3, 1, 0] = 2 :=
  ⟨reaches_all (by decide +kernel), by decide +kernel⟩

/-- A 64-byte descriptor of operation `op` from shelf address 0 of tile (0, 0) to desk address 0x40. -/
def desc0 (op : Byte) : Descriptor := ⟨op, 0, if op = 1 then 0 else 3, 2, 64, 1, 0, 9, 0, 0x40, 0, 0, 0, 0⟩

/-- A FENCE descriptor. -/
def fence0 : Descriptor := ⟨3, 0, 0, 0, 0, 1, 0, 9, 0, 0, 0, 0, 0, 0⟩

/-- Channel 0 (partition 0) enabled, in state st, holding `x`. -/
def channel (st : Word) (x : Channel) : State :=
  (regs [(.dmaChctl 0, 0x80000000), (.dmaChstat 0, st * 0x10000000)] lessoned).setChan 0 x

theorem wit_DmaChannels : (∀ e ∈ [(channel 0 {}, Issuer.hostA, Reg.dmaChstartHi 0, true), (channel 1 {}, .hostA, .dmaChctl 0, true)],
      e.1.Reaches e.2.1 e.2.2.1 e.2.2.2) ∧
    (channel 0 {}).regBit (.dmaChstat 0) 27 = false ∧ ((channel 0 {}).setReg (.dmaChstat 0) 0x08000000).regBit (.dmaChstat 0) 27 = true ∧
    (channel 0 {}).chState 0 = 0 ∧ (channel 1 {}).chState 0 = 1 ∧ (channel 3 {}).chState 0 = 3 ∧
    (channel 0 {}).regBit (.dmaChctl 0) 31 = true ∧ ((channel 0 {}).setDoorbell 1024 true).doorbell 1024 = true ∧
    (channel 0 {}).chanHeld 0 = false ∧
    (let x := (channel 1 { cur := some (desc0 0), done := true, moved := 64 }).chan 0
     x.cur = some (desc0 0) ∧ x.done = true ∧ x.paused = false ∧ x.off = false ∧ x.halt = false) ∧
    (channel 1 { cur := some (desc0 0) }).regBit (.dmaChctl 0) 29 = false :=
  ⟨reaches_all (by decide +kernel), by decide +kernel⟩

theorem wit_DmaEngine : (channel 1 {}).chState 0 = 1 ∧ ((channel 1 {}).chan 0).cur = none ∧ (channel 1 {}).regBit (.dmaChctl 0) 29 = false ∧
    (channel 1 {}).hostUp ((channel 1 {}).chanHost 0) = true ∧ (channel 1 {}).chcur 0 % 64 = 0 ∧
    ((channel 1 {}).dmaCheck false (desc0 0) = none ∧ (channel 1 {}).dmaCheck false (desc0 1) = none ∧
      (channel 1 {}).dmaCheck false (desc0 2) = none) ∧ (channel 1 {}).dmaCheck false fence0 = none ∧
    dOp (desc0 2) = 2 ∧ dFillCmp (desc0 2) = false ∧ (channel 1 {}).dmaTile false (desc0 0).dst.toNat = some 0 ∧
    (channel 1 {}).dmaTile false (desc0 0).src.toNat = some 0 ∧ ((channel 1 {}).tile 0).errs = [] ∧ chanPart 0 = false ∧
    (channel 1 {}).dmaCheck false { desc0 0 with length := 65 } = some (1, 0, 0) := by decide +kernel

/-- The channel's partition with one tenant page, mapped writable at relative page 0. -/
def dmaPaged : State :=
  let s := regs [(.secPagebase false, 0x40000), (.secPagecnt false, 1)] (channel 1 {})
  { s with stash := Bank.putBytes [] 0x03C0000000 (toLE 8 (2 ^ 63 + 2 ^ 62 + 0x40000)) }

/-- A descriptor of two lines from one space to another, in n groups. -/
def descOf (op src dst : BitVec 8) (n : BitVec 16) : Descriptor :=
  { desc0 0 with b0 := op, srcsp := src, dstsp := dst, length := 128, count := n, dst := 0, sstride := 256, dstride := 128 }

theorem wit_DmaData :
    -- host, tile and stash sources and destinations, all accepted
    (∀ d ∈ [descOf 1 0 0 1, descOf 0 3 0 1, descOf 0 1 0 1, { descOf 0 0 0 1 with src := 4096 }, descOf 1 0 1 1, descOf 0 0 1 1, descOf 0 0 2 1,
        descOf 0 1 2 1, descOf 2 0 2 1, descOf 1 0 2 2, descOf 0 3 2 2], dmaPaged.dmaCheck false d = none ∧ dLinkOnly d = false) ∧
    (∀ d ∈ [descOf 1 0 2 2, descOf 0 3 2 2], ∀ i, i < d.count.toNat → dmaPaged.dmaTile false (dDst d i) = some 0) ∧
    (∀ i, i < 2 → dmaPaged.dmaTile false (dSrc (descOf 0 3 2 2) i) = some 0) ∧
    (∀ i, i < 2 → ∀ k, k < 2 → i < k → bits (dDst (descOf 0 3 2 2) i) 21 0 + 128 ≤ bits (dDst (descOf 0 3 2 2) k) 21 0) ∧
    dmaPaged.translate false 64 true = some 0x400000040 ∧ dmaPaged.translate false 0 true = some 0x400000000 ∧
    dmaPaged.lineErr (tableLine false 0) = 0 ∧ dmaPaged.lineErr (0x400000040 / 64) = 0 ∧
    dmaPaged.chState 0 = 1 ∧ (dmaPaged.chan 0).cur = none ∧ dFillCmp (descOf 2 0 2 1) = false ∧
    dFillCmp { descOf 2 0 2 1 with flags := 2 } = true ∧ dmaPaged.dmaCheck false { descOf 2 0 2 1 with flags := 2 } = none := by decide +kernel

theorem wit_ClocksSensorsSupply : live.wall = 0 ∧ ({ live with wall := 1 } : State).wall ≠ 0 ∧ live.pins.fenced = false ∧
    (0x10000 - 1 : Nat) < 65536 ∧ live.regBit .powerStat 7 = false ∧ (live.setReg .powerStat 0x70000080).regBit .powerStat 7 = true ∧
    (live.setReg .powerStat 0x60000000).regFld .powerStat 31 28 = 6 ∧
        (live.setReg .powerStat 0x50000000).regFld .powerStat 31 28 < 6 := by decide +kernel

/-- Straps sampled valid, rails good, RESET_N high, and the power test passed. -/
def starting : State := regs [(.officeStrap, 0x80000000), (.testDawn, 1)]
  { pins := { pgoodN := false, resetN := true, early := true } }

theorem wit_Starts : State.reset.pins.pgoodN = true ∧ starting.pins.pgoodN = false ∧ starting.phase ≠ 1 ∧
    ¬ (starting.phase = 0 ∧ starting.pins.resetN = false ∧ starting.regFld .testStat 27 25 = 1) ∧ starting.pins.resetN = true ∧
    starting.phase < 2 ∧ starting.pins.fenced = false ∧ starting.pins.early = true ∧ starting.regFld .testDawn 1 0 ≠ 0 ∧
    starting.regBit .officeStrap 31 = true ∧ (starting.setReg .officeStrap 0).regBit .officeStrap 31 = false ∧
    starting.loadFuses.principalOk false = false ∧ starting.loadFuses.principalOk true = false ∧
    (∀ p ∈ [false, true], starting.lesson p = none) ∧
    (let s := (after .powerOn State.reset)
     s.phase = 1 ∧ s.pins.pgoodN = true ∧ s.pins.fenced = false) ∧
    ({ starting with pins := { starting.pins with resetN := false } } : State).pins.resetN = false ∧
    (∀ k, k < 8 → live.stagePermanent k = false) := by decide +kernel

theorem wit_StartKinds :
    -- a trial on its way back, a token armed
    ((acting true false false).fw.act = some ⟨some 3, 0, 0, false, false, false, false, true, false, false⟩) ∧
    (live.setReg .secDebug 0x40000000).regBit .secDebug 30 = true ∧ live.regBit .secDebug 30 = false := by decide +kernel

theorem wit_StartSequence : (live.setReg .fwMonstat 1).monState 0 = 1 ∧
    -- a fenced monitor before the sixth, in a start, in a trial, in an activation and in a fallback
    (let s := regs [(.fwMonstat, 0x6EA), (.testStat, 0x50000000)] live
     s.monState 5 = 1 ∧ s.monState 3 ≠ 2 ∧ s.fw.act = none ∧ s.phase = 5) ∧
    (let s := (acting false false true).setReg .fwMonstat 0x6EA
     s.monState 5 = 1 ∧ s.regFld .fwStat 31 30 ≠ 3 ∧ s.pins.fenced = false ∧ (s.setReg .fwStat 0xC0000000).regFld .fwStat 31 30 = 3) ∧
    (acting true false true).fw.act = some ⟨some 3, 0, 0, false, false, false, false, true, false, true⟩ ∧
    -- retained copies whole and not, a clear asked for by a strap and by CLRPEND, a token armed, a short dawn
    live.pins.copyA = true ∧ (let s := { live with pins := { live.pins with copyA := false, copyB := false } }
      s.pins.copyA = false ∧ s.pins.copyB = false) ∧
    ({ live with pins := { live.pins with testmode := 2 } } : State).pins.testmode = 2 ∧ live.pins.testmode ≠ 2 ∧
    (live.setReg .testRetain 0x80000000).regBit .testRetain 31 = true ∧
    ({ live with pins := { live.pins with armed := some 1 } } : State).pins.armed = some 1 ∧
    (live.setReg .testRetain 5).regFld .testRetain 4 0 ≠ live.seat ∧
    (let w := (live.setReg .testDusk 0xC0000055).reg .testDusk
     fld w 31 30 = 3 ∧ ∀ i, i < 4 → fld w (2 * i + 1) (2 * i) = 1 ∨ fld w (2 * i + 1) (2 * i) = 2) ∧
         (live.setReg .fwMonstat 0x555).monState 5 = 1 ∧ (live.setReg .fwMonstat 0xAAA).monState 5 = 2 ∧
    (let s := regs [(.fwMonstat, 0x6AA), (.testStat, 0x50000000)] live
     s.phase = 5 ∧ s.monState 5 = 1 ∧ (∀ j, j < 6 → j ≠ 5 → s.monState j = 2) ∧ s.regBit .secBoot 29 = false ∧
     s.principalOk (!s.runSlot) = false ∧ s.bundleOutcome (s.slot s.runSlot) ≠ 0) ∧
    (∃ j, j < 6 ∧ j ≠ 5 ∧ (live.setReg .fwMonstat 0x555).monState j = 1) ∧
    (live.setReg .testStat 0x30000000).phase = 3 ∧ (live.setReg .testStat 0x90000000).phase = 9 ∧
    (let s := live.setReg .testStat 0x61000000
     s.phase = 6 ∧ s.regBit .testStat 24 = true ∧ s.regFld .testDawn 15 14 = 0 ∧ s.erasing false = false) ∧
    (∀ i, i < 7 → outcomeAt [1, 1, 1, 1, 1, 1, 2] i ≠ 3) ∧ outcomeAt [1, 3] 1 = 3 ∧ outcomeAt [2, 1, 1, 1] 0 ≠ 0 ∧
    live.regBit .testRetain 31 = false := by decide +kernel

theorem wit_WellFormedCommandsComplete : Instr.pps.wf = true ∧ issueOf .pps = none ∧ (∀ t b, Instr.pps ≠ .stallResume t b) :=
  ⟨by decide, rfl, fun _ _ h => Instr.noConfusion h⟩

theorem wit_TileWordsRoundTrip : encodeWord (.mmWait at0 ⟨2, true, 300⟩) = some (at0, 2, 0x3A * 2 ^ 58 + 2 * 2 ^ 56 + 2 ^ 55 + 300) ∧
    wordInstr at0 2 (0x3A * 2 ^ 58 + 2 * 2 ^ 56 + 2 ^ 55 + 300) = some (.mmWait at0 ⟨2, true, 300⟩) ∧
    issueOf (.mmWait at0 ⟨2, true, 300⟩) = some at0 ∧ (∀ f, Instr.mmWait at0 ⟨2, true, 300⟩ ≠ .crossReadRun at0 f) :=
  ⟨by decide +kernel, by decide +kernel, rfl, fun _ h => Instr.noConfusion h⟩

theorem wit_MemoriesStayCanonical : ({ live with pending := [.ptpSync 5] } : State).memWf ∧
    ({ live with pending := [.ptpSync 5] } : State).tiles.Pairwise (fun x y => x.1 < y.1) :=
  ⟨State.memWf_of_eq reset_memWf (fun _ => rfl) rfl, List.Pairwise.nil⟩

theorem wit_FusesAndQueueKept : ({ live with pending := [.ptpSync 5] } : State).fuses.legal = true ∧
    step { live with pending := [.ptpSync 5] } = .next { live with wall := 5 } := ⟨by decide, rfl⟩
/-! ### Single steps -/

/-- Lane 0 of v2 is x and of v3 is y. -/
def lanes (x y : Word) : State := live.setTile 0 { eng := { v := [(64 * 2, x), (64 * 3, y)] } }

/-- Lane 0 of v1 after an instruction. -/
def lane0 (c : Instr) (s : State) : Word := ((after c s).tile 0).eng.lane 1 0

/-- R96, R104: 1 + 2 = 3, 1.5 × −2 = −3, the sum of infinities of two signs is the NaN 0x7FC00000. -/
theorem test_float : lane0 (.add at0 va0) (lanes 0x3F800000 0x40000000) = 0x40400000 ∧
    lane0 (.mul at0 va0) (lanes 0x3FC00000 0xC0000000) = 0xC0400000 ∧
    lane0 (.add at0 va0) (lanes 0x7F800000 0xFF800000) = 0x7FC00000 := by decide +kernel
/-- Addition rounds to nearest, ties to even: 2^24 + 1 and 2^24 + 3. -/
theorem test_ties : lane0 (.add at0 va0) (lanes 0x4B800000 0x3F800000) = 0x4B800000 ∧
    lane0 (.add at0 va0) (lanes 0x4B800000 0x40400000) = 0x4B800002 := by decide +kernel
/-- 6 / 2 = 3, sqrt 4 = 2, exp 0 = 1. -/
theorem test_division : lane0 (.div at0 va0) (lanes 0x40C00000 0x40000000) = 0x40400000 ∧
    lane0 (.sqrt at0 va0) (lanes 0x40800000 0) = 0x40000000 ∧ lane0 (.exp at0 va0) (lanes 0 0) = 0x3F800000 := by decide +kernel
/-- Integer lanes wrap; a shift takes its count from v3. -/
theorem test_integer : lane0 (.iadd at0 va0) (lanes 0xFFFFFFFF 2) = 1 ∧ lane0 (.isub at0 va0) (lanes 0 1) = 0xFFFFFFFF ∧
    lane0 (.shl at0 va0) (lanes 1 4) = 16 ∧ lane0 (.xor at0 va0) (lanes 0xF0 0xFF) = 0x0F := by decide +kernel
/-- SIMM writes a scalar, SETVL the vector length. -/
theorem test_control : ((after (.simm at0 5 0xDEADBEEF) live).tile 0).eng.scalar 5 = 0xDEADBEEF ∧
    ((after (.setvl at0 0 17) live).tile 0).eng.vl = 17 := by decide +kernel
/-- A two-line copy from desk to shelf memory. -/
theorem test_copy : ((after (.mmCopyToShelf at0 mv0) (live.setTile 0 { desk := [(0, 7), (127, 9)] })).shelfAt 0 127) = 9 := by
  decide +kernel
/-- R60: the sum of 2^63 − 1 and 1 is the marker. -/
theorem test_tally : (tallyAdd (2 ^ 63 - 1) 1).1 = marker := by decide +kernel
/-- MM.WAIT with CONSUME takes n from the counter; without enough it stalls. -/
theorem test_wait : (after (.mmWait at0 ⟨1, true, 3⟩) (live.setReg (.tileToken 0 1) 5)).reg (.tileToken 0 1) = 2 ∧
    ((after (.mmWait at0 ⟨1, true, 6⟩) (live.setReg (.tileToken 0 1) 5)).tile 0).stalled = true := by decide +kernel
/-- ED.OPEN opens, ED.SEAL raises the edition. -/
theorem test_edition : (after (.edSeal at0 ⟨0, 0, 0⟩) (after (.edOpen at0 ⟨0, 0, 0⟩) (edited 0 false))).edition 0 0 = 8 ∧
    (after (.edSeal at0 ⟨0, 0, 0⟩) (edited 0 false)).regBit (.tileRegcnt 0 0) 31 = false := by decide +kernel
/-- R148: a flit that arrives waits in its stream. -/
theorem test_flit : Bank.get (fun _ => []) ((after (.meshFlitArrival 1 2) meshed).tile 1).inb 2 = [⟨[2], 7⟩] := by decide +kernel
/-- R18: 600 W is accepted in POWER_LIMIT and 599 W is not. -/
theorem test_power_limit : (after (.powerLimitWrite .mgmt Reg.powerLimit.addr 600) live).regFld .powerLimit 15 0 = 600 ∧
    (after (.powerLimitWrite .mgmt Reg.powerLimit.addr 599) live).regFld .powerLimit 15 0 = 2200 := by decide +kernel
/-- R416: a host's write to the other partition's register is foreign. -/
theorem test_foreign : (after (.registerWrite .hostA (Reg.bellStat true).addr 1 15) live).regBit .officeAccerr 31 = true ∧
    (after (.registerWrite .hostA (Reg.bellStat true).addr 1 15) live).reg .officeAccaddr = BitVec.ofNat 32 (Reg.bellStat true).addr := by
  decide +kernel
/-- R416: a write of less than a word is unaligned. -/
theorem test_unaligned : (after (.registerWrite .mgmt 0x10 1 7) live).regBit .officeAccerr 30 = true := by decide +kernel
/-- IDENTIFY answers with the serial, the grade and the step. -/
theorem test_identify : (after (.identify (pk false 0x101 0 [])) { live with fuses := { gradeB := true } }).out =
    [.reply .mgmt 0 (1 :: replyBytes 0 0 0x101 true true (List.replicate 16 0 ++ [0x42, 0, 0, 0, 0, 0]))] := by decide +kernel
/-- A packet of a wrong length ends with 0x0003, on either path of management (R406, R417). -/
theorem test_length : (after (.identify (pk false 0x101 1 [])) live).out = [.reply .mgmt 0 (1 :: replyBytes 3 0 0x101 true true [6,
    0])] ∧
    (after (.identify { pk false 0x101 1 [] with ring := 1 }) live).out =
      [.reply .mgmt 1 ([0x42, 0x56, 0x32, 0x4D, 2, 0, 0, 0] ++ replyBytes 3 0 0x101 true true [6, 0])] := by decide +kernel
/-- A pulse per second keeps whole seconds. -/
theorem test_pps : (after .pps { live with wall := BitVec.ofNat 64 (7 * 2 ^ 30 + 500000000) }).wall = BitVec.ofNat 64 (8 * 2 ^ 30) := by
  decide +kernel
/-- A reading of 105 °C fences the part. -/
theorem test_sensor : (after (.sensorReport 0 0 420) live).pins.fenced = true ∧
    (after (.sensorReport 0 0 419) live).pins.fenced = false := by
  decide +kernel
/-- A FILL writes its constant. -/
theorem test_fill : ((after (.dmaFill 0 ⟨some { desc0 1 with src := 0x0807060504030201 }, [], none⟩) (channel 1 {})).deskAt 0 0x47) = 8 := by
  decide +kernel
/-- Queue 5 of port 0 gains two credits, and no more than 16. -/
theorem test_credits : Bank.get fullLink ((paired.setPort 0 { credits := [(5, 3)] }).addCredits 0 [(5, 2)] |>.port 0).credits 5 = 5 ∧
    Bank.get fullLink (paired.addCredits 0 [(5, 2)] |>.port 0).credits 5 = 16 := by decide +kernel
/-- A frame slot sends its frame and the block that holds it (R150, R192). -/
theorem test_slot : ((after (.frameSlot 0 3 77) (gated 2)).out).length = 2 ∧
    (Bank.get fullLink ((after (.frameSlot 0 3 77) (gated 2)).port 0).credits 5) = 15 := by decide +kernel
end Sys2Proof.Tests
end

section
/-! SUPPORT. Fields of a word, bit by bit: what `setFld` leaves in each bit, and reading a field back. -/

namespace Sys2Proof.Machine

/-- Bit i of a word with a field set: the field's own bit inside [hi:lo], the old bit elsewhere. -/
theorem getLsbD_setFld (w : Word) (hi lo v i : Nat) :
    (setFld w hi lo v).getLsbD i = if lo ≤ i ∧ i ≤ hi ∧ i < 32 then v.testBit (i - lo) else w.getLsbD i := by
  simp only [setFld, BitVec.getLsbD_or, BitVec.getLsbD_and, BitVec.getLsbD_not, BitVec.getLsbD_ofNat,
    Nat.testBit_mul_two_pow, Nat.testBit_two_pow_sub_one, Nat.testBit_mod_two_pow]
  by_cases h32 : i < 32
  · by_cases hin : lo ≤ i ∧ i ≤ hi
    · have hw : i - lo < hi + 1 - lo := by omega
      simp [h32, hin, hw]
    · have hw : ¬ (lo ≤ i ∧ i - lo < hi + 1 - lo) := by omega
      grind
  · simp [h32, BitVec.getLsbD_of_ge w i (Nat.le_of_not_lt h32)]

/-- A word with one bit set where a condition holds. -/
theorem getLsbD_ite_setFld_one (w : Word) {n : Nat} (hn : n < 32) (c : Bool) (i : Nat) :
    (if c then setFld w n n 1 else w).getLsbD i = (w.getLsbD i || c && decide (i = n)) := by
  cases c with
  | false => simp
  | true =>
    rw [if_pos rfl, getLsbD_setFld]
    by_cases h : i = n
    · subst h; simp [hn]
    · have hout : ¬ (n ≤ i ∧ i ≤ n ∧ i < 32) := by omega
      rw [if_neg hout]; simp [h]

/-- A bit of a field. -/
theorem testBit_fld (w : Word) (hi lo i : Nat) :
    (fld w hi lo).testBit i = (decide (i < hi + 1 - lo) && w.getLsbD (i + lo)) := by
  simp only [fld, bits, Nat.testBit_mod_two_pow, Nat.testBit_div_two_pow, BitVec.testBit_toNat]

/-- A field reads as it was set. -/
theorem fld_setFld_same (w : Word) {hi lo v : Nat} (hhi : hi < 32) (hv : v < 2 ^ (hi + 1 - lo)) :
    fld (setFld w hi lo v) hi lo = v := by
  refine Nat.eq_of_testBit_eq fun i => ?_
  rw [testBit_fld, getLsbD_setFld]
  by_cases hi' : i < hi + 1 - lo
  · have : lo ≤ i + lo ∧ i + lo ≤ hi ∧ i + lo < 32 := by omega
    simp [hi', this]
  · have : v < 2 ^ i := Nat.lt_of_lt_of_le hv (Nat.pow_le_pow_right (by omega) (by omega))
    simp [hi', Nat.testBit_lt_two_pow this]

/-- Setting a field leaves a field above or below it alone. -/
theorem fld_setFld_apart (w : Word) {hi lo v hi' lo' : Nat} (h : hi < lo' ∨ hi' < lo) :
    fld (setFld w hi lo v) hi' lo' = fld w hi' lo' := by
  refine Nat.eq_of_testBit_eq fun i => ?_
  rw [testBit_fld, testBit_fld, getLsbD_setFld]
  by_cases hin : i < hi' + 1 - lo'
  · have : ¬ (lo ≤ i + lo' ∧ i + lo' ≤ hi ∧ i + lo' < 32) := by omega
    simp [this]
  · simp [hin]

/-! ### Registers after a write -/

/-- The value in effect of a word depends on nothing but the office space. -/
theorem State.word_congr {s u : State} (h : u.office = s.office) (a : Nat) : u.word a = s.word a := by
  unfold State.word; rw [h]

theorem State.reg_congr {s u : State} (h : u.office = s.office) (r : Reg) : u.reg r = s.reg r := State.word_congr h r.addr

theorem State.word_setWord (s : State) (a b : Nat) (w : Word) : (s.setWord b w).word a = if a = b then w else s.word a :=
  Bank.get_set _ _ _ _ _

theorem State.word_setReg (s : State) (r : Reg) (w : Word) (a : Nat) :
    (s.setReg r w).word a = if a = r.addr then w else s.word a := State.word_setWord _ _ _ _

theorem State.word_setReg_ne (s : State) (r : Reg) (w : Word) {a : Nat} (h : a ≠ r.addr) : (s.setReg r w).word a = s.word a := by
  rw [State.word_setReg, if_neg h]

/-- A bit of a register reads as it was set. -/
theorem State.regBit_setRegBit_same (s : State) (r : Reg) {n : Nat} (hn : n < 32) (b : Bool) : (s.setRegBit r n b).regBit r n = b := by
  unfold State.regBit State.setRegBit State.setRegFld
  rw [State.reg_setReg, BitVec.testBit_toNat, getLsbD_setFld]
  cases b <;> simp [hn, b2n]

theorem State.reg_setRegBit_ne (s : State) (r q : Reg) (n : Nat) (b : Bool) (h : q.addr ≠ r.addr) :
    (s.setRegBit r n b).reg q = s.reg q := State.reg_setReg_ne _ _ _ _ h

theorem State.regBit_setReg_ne (s : State) (r q : Reg) (w : Word) (n : Nat) (h : q.addr ≠ r.addr) :
    (s.setReg r w).regBit q n = s.regBit q n := by
  unfold State.regBit; rw [State.reg_setReg_ne _ _ _ _ h]

end Sys2Proof.Machine
end

section
/-! SUPPORT. The gate that every tile instruction passes (`issue`), and O2, which says what it does. -/

namespace Sys2Proof.Machine

/-! ### The cases of `issue` -/

variable {a : Issue} {i : Instr} {ok : Bool} {body : State → Act} {s : State}

theorem issue_of_no_tile (ht : 2500 ≤ a.tile) : issue a i ok body s = .fault .noSuchUnit := by
  simp [issue, ht]

theorem issue_of_bad_word (ht : a.tile < 2500) (hok : ok = false) : issue a i ok body s = .refused .wordRejected := by
  simp [issue, Nat.not_le.2 ht, hok]

theorem issue_of_not_live (ht : a.tile < 2500) (hok : ok = true) (hl : s.tileLive a.tile = false) : issue a i ok body s = .next s := by
  simp [issue, Nat.not_le.2 ht, hok, hl]

theorem issue_of_stalled (ht : a.tile < 2500) (hok : ok = true) (hl : s.tileLive a.tile = true)
    (hs : (s.tile a.tile).stalled = true) :
    issue a i ok body s = .next (s.setTile a.tile { s.tile a.tile with held := (s.tile a.tile).held ++ [i] }) := by
  simp [issue, Nat.not_le.2 ht, hok, hl, hs]

/-- Every tile instruction passes the gate at its own issue point, with the check of its own word: only the body differs from one
instruction to the next. -/
theorem exec_eq_issue {c : Instr} (h : issueOf c = some a) : ∃ body : State → Act, exec c s = issue a c (wordOk c) body s := by
  cases c <;> cases h <;> unfold exec <;> exact ⟨_, rfl⟩

end Sys2Proof.Machine

open Sys2Proof Sys2Proof.Machine

/-- Settles O2: a tile instruction runs through `issue`, whose four ways out are the four clauses. -/
theorem tileInstructionGate : Obligations.TileInstructionGate := by
  intro c a s hc
  obtain ⟨body, hbody⟩ := exec_eq_issue (s := s) hc
  rw [hbody]
  exact ⟨issue_of_no_tile, issue_of_bad_word, issue_of_not_live, issue_of_stalled⟩

end

section
/-! SUPPORT. The state right after reset, and O57. -/

namespace Sys2Proof.Machine

/-- At reset every register of the office space reads its Reset entry. -/
theorem State.reg_reset {r : Reg} (h : regAt r.addr = some r) : State.reset.reg r = r.info.reset := by
  have : State.reset.reg r = resetWord r.addr := rfl
  rw [this, resetWord, h]

/-- LINK_RELAY resets to 0 on the ports that have it and on those that read 0 (R211). -/
theorem info_linkRelay_reset (l : Nat) : (Reg.linkRelay l).info.reset = 0 := by
  unfold Reg.info
  dsimp only
  split <;> rfl

theorem State.memAt_reset (t : Nat) (sh : Bool) (a : Nat) : State.reset.memAt t sh a = 0 := by
  cases sh <;> rfl

end Sys2Proof.Machine

open Sys2Proof Sys2Proof.Machine

/-- Settles O57: the office space lists nothing at reset, so that each register reads the Reset entry of its row. -/
theorem resetState : Obligations.ResetState := by
  refine ⟨fun r hr => ⟨State.reg_reset hr, ?_⟩, State.memAt_reset, fun _ => rfl, rfl, rfl, rfl, reset_memWf, rfl⟩
  rw [State.reg_reset hr]
  cases r
  case linkRelay l => exact info_linkRelay_reset l
  all_goals rfl

end

section
/-! SUPPORT. Staged sets (R17): what is staged after a discard, and what each word of the office space holds after a set has been
applied. -/

namespace Sys2Proof.Machine

/-! ### The staging copy -/

theorem State.stagedIn_congr {s u : State} (h : u.staged = s.staged) (lo hi : Nat) : u.stagedIn lo hi = s.stagedIn lo hi := by
  unfold State.stagedIn; rw [h]

@[simp] theorem State.stagedIn_setReg (s : State) (r : Reg) (w : Word) (lo hi : Nat) :
    (s.setReg r w).stagedIn lo hi = s.stagedIn lo hi := rfl

@[simp] theorem State.stagedIn_setTile (s : State) (t : Nat) (x : Tile) (lo hi : Nat) :
    (s.setTile t x).stagedIn lo hi = s.stagedIn lo hi := rfl

/-- A discarded set has nothing staged. -/
@[simp] theorem State.stagedIn_discard (s : State) (lo hi : Nat) : (s.discard lo hi).stagedIn lo hi = [] := by
  simp only [State.stagedIn, State.discard, Bank.clear, List.filter_filter, Bool.and_not_self]
  exact List.filter_eq_nil_iff.2 fun _ _ => Bool.false_ne_true

@[simp] theorem State.reg_discard (s : State) (lo hi : Nat) (r : Reg) : (s.discard lo hi).reg r = s.reg r := rfl

/-- A store without an entry at a key reads as its default there. -/
theorem Bank.get_of_not_mem {α : Type} (d : Nat → α) {m : Bank α} {k : Nat} (h : ∀ e ∈ m, e.1 ≠ k) : Bank.get d m k = d k := by
  induction m with
  | nil => rfl
  | cons e m ih =>
    have he : k ≠ e.1 := fun x => h e (by simp) x.symm
    rw [Bank.get, if_neg he]
    exact ih fun x hx => h x (by simp [hx])

/-- A register with nothing staged takes the value that it has. -/
theorem State.applied_of_not_staged {s : State} {a : Nat} (h : ∀ e ∈ s.staged, e.1 ≠ a) : s.applied a = s.word a := by
  unfold State.applied; rw [Bank.get_of_not_mem noStage h]; rfl

/-! ### Application -/

/-- Words written from one function of their addresses: each address of the list takes its value, every other keeps its own. -/
theorem State.word_foldl_setWord {α : Type} (f : Nat → Word) (es : List (Nat × α)) (s : State) (a : Nat) :
    (es.foldl (fun (acc : State) e => acc.setWord e.1 (f e.1)) s).word a = if ∃ e ∈ es, e.1 = a then f a else s.word a := by
  induction es generalizing s with
  | nil => simp
  | cons e es ih =>
    rw [List.foldl_cons, ih, State.word_setWord]
    by_cases ha : a = e.1
    · simp [ha]
    · have hcons : (∃ x ∈ es, x.1 = a) ↔ ∃ x ∈ e :: es, x.1 = a := by simp [Ne.symm ha]
      rw [if_neg ha]
      exact ite_congr (propext hcons) (fun _ => rfl) (fun _ => rfl)

/-- Writing words changes nothing but the office space. -/
theorem State.foldl_setWord_rest {α : Type} (f : Nat → Word) (es : List (Nat × α)) (s : State) :
    es.foldl (fun (acc : State) e => acc.setWord e.1 (f e.1)) s =
      { s with office := (es.foldl (fun (acc : State) e => acc.setWord e.1 (f e.1)) s).office } := by
  induction es generalizing s with
  | nil => rfl
  | cons e es ih => rw [List.foldl_cons, ih]; rfl

/-- Applying a set changes the office space and empties the set's staging copy. -/
theorem State.applyRange_rest (s : State) (lo hi : Nat) :
    s.applyRange lo hi = { s with office := (s.applyRange lo hi).office, staged := Bank.clear s.staged lo hi } := by
  unfold State.applyRange
  dsimp only
  rw [State.foldl_setWord_rest s.applied]
  rfl

/-- Each word of an applied set takes its staged value, every other word keeps its own (R17). -/
theorem State.word_applyRange (s : State) (lo hi a : Nat) :
    (s.applyRange lo hi).word a = if lo ≤ a ∧ a < hi then s.applied a else s.word a := by
  have hfold : (s.applyRange lo hi).word a = if ∃ e ∈ s.stagedIn lo hi, e.1 = a then s.applied a else s.word a :=
    State.word_foldl_setWord s.applied _ s a
  rw [hfold]
  by_cases hin : lo ≤ a ∧ a < hi
  · rw [if_pos hin]
    split
    · rfl
    · next hnone =>
      refine (State.applied_of_not_staged fun e he hea => hnone ⟨e, ?_, hea⟩).symm
      subst hea
      simpa [State.stagedIn, he] using hin
  · rw [if_neg hin, if_neg]
    rintro ⟨e, he, rfl⟩
    exact hin (by simpa [State.stagedIn] using (List.mem_filter.1 he).2)

theorem State.reg_applyRange_in (s : State) {lo hi : Nat} {r : Reg} (h : lo ≤ r.addr ∧ r.addr < hi) :
    (s.applyRange lo hi).reg r = s.applied r.addr := by
  unfold State.reg; rw [State.word_applyRange, if_pos h]

@[simp] theorem State.stagedIn_applyRange (s : State) (lo hi : Nat) : (s.applyRange lo hi).stagedIn lo hi = [] :=
  State.stagedIn_discard _ lo hi

@[simp] theorem State.tiles_applyRange (s : State) (lo hi : Nat) : (s.applyRange lo hi).tiles = s.tiles := by
  rw [State.applyRange_rest]

@[simp] theorem State.tile_applyRange (s : State) (lo hi t : Nat) : (s.applyRange lo hi).tile t = s.tile t := by
  unfold State.tile; rw [State.tiles_applyRange]

@[simp] theorem State.stash_applyRange (s : State) (lo hi : Nat) : (s.applyRange lo hi).stash = s.stash := by
  rw [State.applyRange_rest]

@[simp] theorem State.part0_applyRange (s : State) (lo hi : Nat) : (s.applyRange lo hi).part0 = s.part0 := by
  rw [State.applyRange_rest]

@[simp] theorem State.part1_applyRange (s : State) (lo hi : Nat) : (s.applyRange lo hi).part1 = s.part1 := by
  rw [State.applyRange_rest]

/-! ### The BELL, SEC and tile sets -/

section
variable {s : State} {p : Bool}

theorem State.applyBell_of_ok (hst : s.stagedIn (Reg.bellPeriod p 0).addr (Reg.bellWork p 0).addr ≠ []) (hok : s.bellSetOk p = true) :
    s.applyBell p = s.applyRange (Reg.bellPeriod p 0).addr (Reg.bellWork p 0).addr := by
  simp [State.applyBell, hst, hok]

/-- A BELL set that fails the check of R166 is discarded whole. -/
theorem State.applyBell_of_not_ok (hst : s.stagedIn (Reg.bellPeriod p 0).addr (Reg.bellWork p 0).addr ≠ [])
    (hok : s.bellSetOk p = false) :
    s.applyBell p = (s.discard (Reg.bellPeriod p 0).addr (Reg.bellWork p 0).addr).setRegBit (.bellStat p) 28 true := by
  simp [State.applyBell, hst, hok]

/-- An accepted SEC set is applied, and closes the partitions that gain by it (R344). -/
theorem State.applySec_of_ok (hst : s.stagedIn 0x90000 0xA0000 ≠ []) (hok : s.secOk = true) :
    s.applySec = { s.applyRange 0x90000 0xA0000 with
      part0 := { s.part0 with closed := s.part0.closed || (s.secMoves false).1 }
      part1 := { s.part1 with closed := s.part1.closed || (s.secMoves true).1 } } := by
  simp [State.applySec, hst, hok]

theorem State.applySec_of_not_ok (hst : s.stagedIn 0x90000 0xA0000 ≠ []) (hok : s.secOk = false) :
    s.applySec = (s.discard 0x90000 0xA0000).setRegBit .secPartmap 31 true := by
  simp [State.applySec, hst, hok]

end

section
variable {s : State} {t : Nat}

theorem State.applyTile_of_nothing_staged (hst : s.stagedIn (0x100000 + 0x1000 * t) (0x100000 + 0x1000 * t + 0x1000) = []) :
    s.applyTile t = s := by
  simp [State.applyTile, hst]

/-- With no record in the directory the tile's set is applied, and nothing more (R139). -/
theorem State.applyTile_of_empty_dir (hst : s.stagedIn (0x100000 + 0x1000 * t) (0x100000 + 0x1000 * t + 0x1000) ≠ [])
    (hd : (s.tile t).dir = []) : s.applyTile t = s.applyRange (0x100000 + 0x1000 * t) (0x100000 + 0x1000 * t + 0x1000) := by
  simp [State.applyTile, hst, hd]

/-- A directory that holds records is emptied, and the tile's mark is bad (R139). -/
theorem State.applyTile_of_dir (hst : s.stagedIn (0x100000 + 0x1000 * t) (0x100000 + 0x1000 * t + 0x1000) ≠ [])
    (hd : (s.tile t).dir ≠ []) :
    s.applyTile t =
      let s1 := s.applyRange (0x100000 + 0x1000 * t) (0x100000 + 0x1000 * t + 0x1000)
      ((s1.setReg (.tileAstat t) (s1.reg (.tileAstat t) &&& 0x3F)).setTile t
        { s.tile t with dir := [], planPtr := 0, spillPtr := 0 }).markTile t 3 := by
  simp [State.applyTile, hst, hd]

end

/-! ### Memory that a state shares with another -/

theorem sameMem_of_tile_mem {s u : State} (h : ∀ t, (u.tile t).desk = (s.tile t).desk ∧ (u.tile t).shelf = (s.tile t).shelf)
    (hst : u.stash = s.stash) : SameMem s u := by
  refine ⟨fun t sh a => ?_, fun a => by rw [hst]⟩
  obtain ⟨hd, hs⟩ := h t
  simp only [State.memAt, Tile.mem]
  rw [hd, hs]

/-- A mark changes no byte of a tile's memories. -/
theorem State.markTile_mem (s : State) (t cause u : Nat) :
    ((s.markTile t cause).tile u).desk = (s.tile u).desk ∧ ((s.markTile t cause).tile u).shelf = (s.tile u).shelf := by
  unfold State.markTile
  by_cases h : u = t
  · subst h; simp
  · rw [State.tile_setTile_ne _ _ _ _ h]; exact ⟨rfl, rfl⟩

/-- The application of a tile's set changes no byte of memory (R139). -/
theorem State.sameMem_applyTile (s : State) (t : Nat) : SameMem s (s.applyTile t) := by
  by_cases hst : s.stagedIn (0x100000 + 0x1000 * t) (0x100000 + 0x1000 * t + 0x1000) = []
  · rw [State.applyTile_of_nothing_staged hst]; exact ⟨fun _ _ _ => rfl, fun _ => rfl⟩
  by_cases hd : (s.tile t).dir = []
  · rw [State.applyTile_of_empty_dir hst hd]; exact sameMem_of_tile_mem (by simp) (by simp)
  · rw [State.applyTile_of_dir hst hd]
    refine sameMem_of_tile_mem (fun u => ?_) (by simp [State.markTile])
    rw [(State.markTile_mem _ t 3 u).1, (State.markTile_mem _ t 3 u).2]
    by_cases h : u = t
    · subst h; simp
    · rw [State.tile_setTile_ne _ _ _ _ h]; simp

end Sys2Proof.Machine
end

section
/-! SUPPORT. Register writes: the events that an access leaves in OFFICE_ACCERR (R414, R420), the gate that it passes (R414 to R419),
and what the access codes make of it (R15, R17). -/

namespace Sys2Proof.Machine

/-! ### OFFICE_ACCERR -/

/-- OFFICE_ACCERR's word with the bits of an event's causes set. -/
def accMarks (w : Word) (foreign unaligned busy : Bool) : Word :=
  let w1 := if foreign then setFld w 31 31 1 else w
  let w2 := if unaligned then setFld w1 30 30 1 else w1
  if busy then setFld w2 29 29 1 else w2

/-- OFFICE_ACCERR's word after an event: its causes, its issuer, and one event more. -/
def accWord (w : Word) (who : Issuer) (foreign unaligned busy : Bool) : Word :=
  setFld (setFld (accMarks w foreign unaligned busy) 28 26 (issuerCode who)) 15 0 (satAdd 0xFFFF (fld w 15 0) 1)

theorem getLsbD_accMarks (w : Word) (f u b : Bool) (i : Nat) :
    (accMarks w f u b).getLsbD i =
      (w.getLsbD i || f && decide (i = 31) || u && decide (i = 30) || b && decide (i = 29)) := by
  simp only [accMarks, getLsbD_ite_setFld_one _ (show 31 < 32 by decide), getLsbD_ite_setFld_one _ (show 30 < 32 by decide),
    getLsbD_ite_setFld_one _ (show 29 < 32 by decide)]

/-- A cause bit of OFFICE_ACCERR is set where the event has that cause. -/
theorem getLsbD_accWord_cause (w : Word) (who : Issuer) (f u b : Bool) {i : Nat} (hi : 29 ≤ i) :
    (accWord w who f u b).getLsbD i = (accMarks w f u b).getLsbD i := by
  have h15 : ¬ (0 ≤ i ∧ i ≤ 15 ∧ i < 32) := by omega
  have h28 : ¬ (26 ≤ i ∧ i ≤ 28 ∧ i < 32) := by omega
  rw [accWord, getLsbD_setFld, if_neg h15, getLsbD_setFld, if_neg h28]

theorem fld_accWord_count (w : Word) (who : Issuer) (f u b : Bool) :
    fld (accWord w who f u b) 15 0 = Nat.min 0xFFFF (fld w 15 0 + 1) := by
  refine fld_setFld_same _ (by decide) ?_
  exact Nat.lt_of_le_of_lt (Nat.min_le_left _ _) (by decide)

theorem fld_accWord_issuer (w : Word) (who : Issuer) (f u b : Bool) : fld (accWord w who f u b) 28 26 = issuerCode who := by
  rw [accWord, fld_setFld_apart _ (by decide)]
  exact fld_setFld_same _ (by decide) (by cases who <;> decide)

section
variable {s : State} {who : Issuer} {a : Nat} {f u b : Bool}

theorem State.accEvent_none : s.accEvent who a false false false = s := rfl

theorem State.accEvent_eq (h : f = true ∨ u = true ∨ b = true) :
    s.accEvent who a f u b =
      (s.setReg .officeAccerr (accWord (s.reg .officeAccerr) who f u b)).setReg .officeAccaddr (BitVec.ofNat 32 a) := by
  have hany : (!f && !u && !b) = false := by grind
  unfold State.accEvent
  rw [hany]
  rfl

theorem State.reg_accerr_accEvent (h : f = true ∨ u = true ∨ b = true) :
    (s.accEvent who a f u b).reg .officeAccerr = accWord (s.reg .officeAccerr) who f u b := by
  rw [State.accEvent_eq h, State.reg_setReg_ne _ _ _ _ (by decide), State.reg_setReg]

theorem State.regBit_accerr_accEvent (h : f = true ∨ u = true ∨ b = true) {i : Nat} (hi : 29 ≤ i) :
    (s.accEvent who a f u b).regBit .officeAccerr i = (accMarks (s.reg .officeAccerr) f u b).getLsbD i := by
  unfold State.regBit
  rw [State.reg_accerr_accEvent h, BitVec.testBit_toNat, getLsbD_accWord_cause _ _ _ _ _ hi]

theorem State.reg_accaddr_accEvent (h : f = true ∨ u = true ∨ b = true) :
    (s.accEvent who a f u b).reg .officeAccaddr = BitVec.ofNat 32 a := by
  rw [State.accEvent_eq h, State.reg_setReg]

/-- An event changes OFFICE_ACCERR and OFFICE_ACCADDR only. -/
theorem State.word_accEvent (h : f = true ∨ u = true ∨ b = true) {x : Nat} (he : x ≠ Reg.officeAccerr.addr)
    (ha : x ≠ Reg.officeAccaddr.addr) : (s.accEvent who a f u b).word x = s.word x := by
  rw [State.accEvent_eq h, State.word_setReg_ne _ _ _ ha, State.word_setReg_ne _ _ _ he]

theorem State.accEvent_rest (h : f = true ∨ u = true ∨ b = true) :
    s.accEvent who a f u b = { s with office := (s.accEvent who a f u b).office } := by
  rw [State.accEvent_eq h]; rfl

end

/-! ### The gate of a write -/

/-- Whether an address lies in a tile's window that is unavailable (R418). -/
def State.windowShut (s : State) (a : Nat) : Bool := (windowAt a).any s.winBusy

section
variable {s : State} {who : Issuer} {field a : Nat} {v : Word} {e : BitVec 4}

theorem State.access_of_not_served (h : s.served who = false) : s.access who field a v e = s := by
  simp [State.access, h]

/-- A write on a served path: where it has an event it leaves that event and nothing else, else it reaches the register there. -/
theorem State.access_of_served (h : s.served who = true) :
    s.access who field a v e =
      if s.foreign who a true || e != 15 || s.windowShut a then s.accEvent who a (s.foreign who a true) (e != 15) (s.windowShut a)
      else (regAt a).elim s fun r => s.writeReg who field r v := by
  have haccess : s.access who field a v e =
      let s1 := s.accEvent who a (s.foreign who a true) (e != 15) (s.windowShut a)
      if s.foreign who a true || e != 15 || s.windowShut a then s1 else (regAt a).elim s1 fun r => s1.writeReg who field r v := by
    unfold State.access State.windowShut
    rw [h]
    cases windowAt a <;> cases regAt a <;> rfl
  rw [haccess]
  dsimp only
  split
  · rfl
  · next hclear =>
    simp only [Bool.or_eq_true, not_or, Bool.not_eq_true] at hclear
    obtain ⟨⟨hf, hu⟩, hb⟩ := hclear
    rw [hf, hu, hb, State.accEvent_none]

/-- A write with no event reaches the register at its address; where none lies it changes nothing (R415). -/
theorem State.access_of_clear (hs : s.served who = true) (hf : s.foreign who a true = false) (hb : s.windowShut a = false) :
    s.access who field a v 15 = (regAt a).elim s fun r => s.writeReg who field r v := by
  rw [State.access_of_served hs, hf, hb]; rfl

theorem State.access_of_reaches {r : Reg} (h : s.Reaches who r true) : s.access who field r.addr v 15 = s.writeReg who field r v := by
  obtain ⟨hs, hf, hr, hw⟩ := h
  have hb : s.windowShut r.addr = false := by
    unfold State.windowShut
    cases hwin : windowAt r.addr with
    | none => rfl
    | some t => exact hw t hwin
  rw [State.access_of_clear hs hf hb, hr]; rfl

theorem exec_registerWrite : exec (.registerWrite who a v e) s = .next (s.access who 0 a v e) := rfl

theorem exec_commitWrite : exec (.commitWrite who a v) s = .next (s.access who 0 a v 15) := rfl

theorem exec_powerLimitWrite : exec (.powerLimitWrite who a v) s = .next (s.access who 0 a v 15) := rfl

theorem exec_inject {t : Nat} (ht : t < 2500) :
    exec (.inject who t v) s = .next (s.access who 0 (Reg.tileMxinj t).addr v 15) := by
  have : exec (.inject who t v) s = ifUnit (decide (t < 2500)) (s.accessReg who 0 (.tileMxinj t) v) := rfl
  rw [this, decide_eq_true ht]; rfl

end

/-! ### Access codes -/

/-- A register's word after a write by its access codes: RW bits replaced, W1C bits cleared where written 1 (R15). -/
def codedWord (i : RegInfo) (w v : Word) : Word := ((w &&& ~~~i.rw) ||| (v &&& i.rw)) &&& ~~~(v &&& i.w1c)

/-- With neither RW nor W1C bits a write leaves the value in effect. -/
theorem codedWord_of_readOnly {i : RegInfo} (hrw : i.rw = 0) (hw1c : i.w1c = 0) (w v : Word) : codedWord i w v = w := by
  simp [codedWord, hrw, hw1c, -BitVec.reduceNot, -BitVec.reduceAllOnes]

/-- A staged word takes the ST bits written and keeps its other bits. -/
theorem and_stagedWord (now v st : Word) : ((now &&& ~~~st) ||| (v &&& st)) &&& st = v &&& st := by
  ext i hi
  simp only [BitVec.getElem_and, BitVec.getElem_or, BitVec.getElem_not]
  cases now[i] <;> cases v[i] <;> cases st[i] <;> rfl

section
variable {s : State} {who : Issuer} {r : Reg} {v : Word}

/-- What a write does to the values in effect, staged bits or not. -/
theorem State.office_writeCodes (hbusy : r.info.busy = false) :
    (s.writeCodes who r v).office = (s.setReg r (codedWord r.info (s.reg r) v)).office := by
  unfold State.writeCodes
  extract_lets i shut w w1 s1 now w2 s2
  have hshut : shut = false := by simp only [shut, i, hbusy, Bool.false_and]
  have hs1 : s1 = s.setReg r (codedWord r.info (s.reg r) v) := by simp only [s1, w1, hshut]; rfl
  have hs2 : s2.office = s1.office := rfl
  rw [← hs1]
  split
  · rfl
  · cases commitOf r <;> exact hs2

/-- Without ST bits a write changes nothing but the values in effect. -/
theorem State.writeCodes_of_no_st (hst : r.info.st = 0) :
    s.writeCodes who r v = { s with office := (s.writeCodes who r v).office } := by
  unfold State.writeCodes
  extract_lets i shut w w1 s1 now w2 s2
  rw [if_pos hst]
  rfl

/-- ST bits go into the staging copy (R17). -/
theorem State.staged_writeCodes (hst : r.info.st ≠ 0) :
    ∃ now : Word, Bank.get noStage (s.writeCodes who r v).staged r.addr = some ((now &&& ~~~r.info.st) ||| (v &&& r.info.st)) := by
  unfold State.writeCodes
  extract_lets i shut w w1 s1 now w2 s2
  refine ⟨now, ?_⟩
  have hs2 : Bank.get noStage s2.staged r.addr = some w2 := Bank.get_set_same noStage s1.staged r.addr (some w2)
  rw [if_neg hst]
  cases commitOf r <;> exact hs2

end

/-! ### Registers with their own rules -/

section
variable {s : State} {who : Issuer} {r : Reg} {v : Word}

theorem State.writeCommit_of_commit (h : v.toNat.testBit 0 = true) : s.writeCommit r v = (s.applyCommit r).setReg r 0 := if_pos h

theorem State.writeCommit_of_hold (h : v.toNat.testBit 0 = false) : s.writeCommit r v = s.setReg r (v &&& 2) :=
  if_neg (by simpa [bit] using h)

/-- A write that reaches a commit register other than SEC_COMMIT commits or holds, from every issuer (R17, R18). -/
theorem exec_commitWrite_of_reaches (hr : s.Reaches who r true)
    (hc : s.writeReg who 0 r v = s.writeCommit r v) : exec (.commitWrite who r.addr v) s = .next (s.writeCommit r v) := by
  rw [exec_commitWrite, State.access_of_reaches hr, hc]

end

end Sys2Proof.Machine
end

section
/-! SUPPORT. O51, clause by clause: what becomes of a register write. -/

namespace Sys2Proof.Machine

variable {s : State} {who : Issuer} {v : Word}

/-- The event of a refused write: OFFICE_ACCERR and OFFICE_ACCADDR say who, where, why and how often, and nothing else changes. -/
theorem refusedWrite_event {a : Nat} {e : BitVec 4} (hs : s.served who = true)
    (hev : s.foreign who a true = true ∨ s.windowShut a = true ∨ e ≠ 15) :
    ∃ u : State, exec (.registerWrite who a v e) s = .next u ∧ u = { s with office := u.office } ∧
      (∀ x, x ≠ Reg.officeAccerr.addr → x ≠ Reg.officeAccaddr.addr → u.word x = s.word x) ∧
      u.reg .officeAccaddr = BitVec.ofNat 32 a ∧
      u.regFld .officeAccerr 15 0 = Nat.min 0xFFFF (s.regFld .officeAccerr 15 0 + 1) ∧
      u.regFld .officeAccerr 28 26 = issuerCode who ∧
      (s.foreign who a true = true → u.regBit .officeAccerr 31 = true) ∧ (e ≠ 15 → u.regBit .officeAccerr 30 = true) ∧
      (s.windowShut a = true → u.regBit .officeAccerr 29 = true) := by
  have hany : s.foreign who a true = true ∨ (e != 15) = true ∨ s.windowShut a = true := by
    simpa only [bne_iff_ne, or_comm (a := e ≠ 15)] using hev
  refine ⟨s.accEvent who a (s.foreign who a true) (e != 15) (s.windowShut a), ?_, State.accEvent_rest hany,
    fun x => State.word_accEvent hany, State.reg_accaddr_accEvent hany, ?_, ?_, ?_, ?_, ?_⟩
  · rw [exec_registerWrite, State.access_of_served hs, if_pos (by simpa [or_assoc] using hany)]
  · unfold State.regFld; rw [State.reg_accerr_accEvent hany, fld_accWord_count]
  · unfold State.regFld; rw [State.reg_accerr_accEvent hany, fld_accWord_issuer]
  · exact fun hf => by rw [State.regBit_accerr_accEvent hany (by decide), getLsbD_accMarks, hf]; simp
  · exact fun he => by rw [State.regBit_accerr_accEvent hany (by decide), getLsbD_accMarks, bne_iff_ne.2 he]; simp
  · exact fun hb => by rw [State.regBit_accerr_accEvent hany (by decide), getLsbD_accMarks, hb]; simp

/-- The BELL set lies in its staging range, apart from its commit and status registers. -/
theorem bellSet_addr {p : Bool} {n : Nat} (hn : n < 16) {r : Reg} (h : r = .bellPeriod p n ∨ r = .bellRecess p n) :
    ((Reg.bellPeriod p 0).addr ≤ r.addr ∧ r.addr < (Reg.bellWork p 0).addr) ∧ r.addr ≠ (Reg.bellCommit p).addr ∧
      r.addr ≠ (Reg.bellStat p).addr := by
  obtain rfl | rfl := h <;> simp only [Reg.addr] <;> omega

/-- The set behind BELL_COMMIT is accepted whole or refused whole (R142, R166). -/
theorem bellCommit_applies_or_refuses {p : Bool} (hr : s.Reaches who (.bellCommit p) true) (hv : v.toNat.testBit 0 = true)
    (hst : s.stagedIn (Reg.bellPeriod p 0).addr (Reg.bellWork p 0).addr ≠ []) :
    ∃ u : State, exec (.commitWrite who (Reg.bellCommit p).addr v) s = .next u ∧
      u.stagedIn (Reg.bellPeriod p 0).addr (Reg.bellWork p 0).addr = [] ∧ u.tiles = s.tiles ∧
      (s.bellSetOk p = true → ∀ n, n < 16 → u.reg (.bellPeriod p n) = s.applied (Reg.bellPeriod p n).addr ∧
        u.reg (.bellRecess p n) = s.applied (Reg.bellRecess p n).addr) ∧
      (s.bellSetOk p = false → u.regBit (.bellStat p) 28 = true ∧ ∀ n, n < 16 →
        u.reg (.bellPeriod p n) = s.reg (.bellPeriod p n) ∧ u.reg (.bellRecess p n) = s.reg (.bellRecess p n)) := by
  refine ⟨(s.applyBell p).setReg (.bellCommit p) 0, ?_, ?_⟩
  · rw [exec_commitWrite_of_reaches hr rfl, State.writeCommit_of_commit hv]; rfl
  cases hok : s.bellSetOk p with
  | true =>
    rw [State.applyBell_of_ok hst hok]
    refine ⟨State.stagedIn_applyRange _ _ _, State.tiles_applyRange _ _ _, fun _ n hn => ?_, nofun⟩
    obtain ⟨hpin, hpc, -⟩ := bellSet_addr hn (.inl rfl : Reg.bellPeriod p n = .bellPeriod p n ∨ _)
    obtain ⟨hrin, hrc, -⟩ := bellSet_addr hn (.inr rfl : _ ∨ Reg.bellRecess p n = .bellRecess p n)
    rw [State.reg_setReg_ne _ _ _ _ hpc, State.reg_setReg_ne _ _ _ _ hrc]
    exact ⟨State.reg_applyRange_in s hpin, State.reg_applyRange_in s hrin⟩
  | false =>
    rw [State.applyBell_of_not_ok hst hok]
    have hstat : (Reg.bellStat p).addr ≠ (Reg.bellCommit p).addr := by simp only [Reg.addr]; omega
    refine ⟨State.stagedIn_discard _ _ _, rfl, nofun, fun _ => ⟨?_, fun n hn => ?_⟩⟩
    · rw [State.regBit_setReg_ne _ _ _ _ _ hstat, State.regBit_setRegBit_same _ _ (by decide)]
    · obtain ⟨-, hpc, hps⟩ := bellSet_addr hn (.inl rfl : Reg.bellPeriod p n = .bellPeriod p n ∨ _)
      obtain ⟨-, hrc, hrs⟩ := bellSet_addr hn (.inr rfl : _ ∨ Reg.bellRecess p n = .bellRecess p n)
      rw [State.reg_setReg_ne _ _ _ _ hpc, State.reg_setReg_ne _ _ _ _ hrc, State.reg_setRegBit_ne _ _ _ _ _ hps,
        State.reg_setRegBit_ne _ _ _ _ _ hrs]
      exact ⟨rfl, rfl⟩

/-- The registers of the SEC set. -/
def secSet : List Reg := [.secPortown, .secPagebase false, .secPagebase true, .secPagecnt false, .secPagecnt true]

theorem secSet_addr {r : Reg} (h : r ∈ secSet) : (0x90000 ≤ r.addr ∧ r.addr < 0xA0000) ∧ r.addr ≠ Reg.secCommit.addr ∧
    r.addr ≠ Reg.secPartmap.addr := by
  revert r; decide

/-- SEC_COMMIT takes management's writes only (R360). -/
theorem exec_secCommit (hr : s.Reaches who .secCommit true) :
    exec (.commitWrite who Reg.secCommit.addr v) s = .next (if who = .mgmt then s.writeCommit .secCommit v else s) := by
  rw [exec_commitWrite, State.access_of_reaches hr]; rfl

/-- The set behind SEC_COMMIT is accepted whole or refused whole (R344). -/
theorem secCommit_applies_or_refuses (hr : s.Reaches who .secCommit true) (hw : who = .mgmt) (hv : v.toNat.testBit 0 = true)
    (hst : s.stagedIn 0x90000 0xA0000 ≠ []) :
    ∃ u : State, exec (.commitWrite who Reg.secCommit.addr v) s = .next u ∧ u.stagedIn 0x90000 0xA0000 = [] ∧ u.reg .secCommit = 0 ∧
      (s.secOk = true → (∀ r ∈ secSet, u.reg r = s.applied r.addr) ∧ u.part0.closed = (s.part0.closed || (s.secMoves false).1) ∧
        u.part1.closed = (s.part1.closed || (s.secMoves true).1)) ∧
      (s.secOk = false → (∀ r ∈ secSet, u.reg r = s.reg r) ∧ u.regBit .secPartmap 31 = true ∧ u.part0 = s.part0 ∧
        u.part1 = s.part1) := by
  refine ⟨s.applySec.setReg .secCommit 0, ?_, ?_⟩
  · rw [exec_secCommit hr, if_pos hw, State.writeCommit_of_commit hv]; rfl
  cases hok : s.secOk with
  | true =>
    rw [State.applySec_of_ok hst hok]
    refine ⟨State.stagedIn_applyRange _ _ _, State.reg_setReg _ _ _, fun _ => ⟨fun r hmem => ?_, rfl, rfl⟩, nofun⟩
    obtain ⟨hin, hc, -⟩ := secSet_addr hmem
    rw [State.reg_setReg_ne _ _ _ _ hc]
    exact State.reg_applyRange_in s hin
  | false =>
    rw [State.applySec_of_not_ok hst hok]
    refine ⟨State.stagedIn_discard _ _ _, State.reg_setReg _ _ _, nofun, fun _ => ⟨fun r hmem => ?_, ?_, rfl, rfl⟩⟩
    · obtain ⟨-, hc, hm⟩ := secSet_addr hmem
      rw [State.reg_setReg_ne _ _ _ _ hc, State.reg_setRegBit_ne _ _ _ _ _ hm]
      rfl
    · rw [State.regBit_setReg_ne _ _ _ _ _ (by decide), State.regBit_setRegBit_same _ _ (by decide)]

/-- The registers of a tile's staged set. -/
def tileSet (n : Nat) : List Reg := [.tileAplan n, .tileAspillb n, .tileAspills n]

theorem tileSet_addr {n : Nat} {r : Reg} (h : r ∈ tileSet n) :
    (0x100000 + 0x1000 * n ≤ r.addr ∧ r.addr < 0x100000 + 0x1000 * n + 0x1000) ∧ r.addr ≠ (Reg.tileCommit n).addr ∧
      r.addr ≠ (Reg.tileAstat n).addr := by
  simp only [tileSet, List.mem_cons, List.not_mem_nil, or_false] at h
  obtain rfl | rfl | rfl := h <;> simp only [Reg.addr] <;> omega

/-- TILE_COMMIT applies the tile's set; a directory that holds records is emptied, and the tile's mark is bad (R139). -/
theorem tileCommit_applies {n : Nat} (hr : s.Reaches who (.tileCommit n) true) (hv : v.toNat.testBit 0 = true)
    (hst : s.stagedIn (0x100000 + 0x1000 * n) (0x100000 + 0x1000 * n + 0x1000) ≠ []) :
    ∃ u : State, exec (.commitWrite who (Reg.tileCommit n).addr v) s = .next u ∧ (∀ r ∈ tileSet n, u.reg r = s.applied r.addr) ∧
      u.stagedIn (0x100000 + 0x1000 * n) (0x100000 + 0x1000 * n + 0x1000) = [] ∧ u.reg (.tileCommit n) = 0 ∧ SameMem s u ∧
      ((s.tile n).dir = [] → u.tiles = s.tiles) ∧
      ((s.tile n).dir ≠ [] → (u.tile n).dir = [] ∧ (u.tile n).planPtr = 0 ∧ (u.tile n).spillPtr = 0 ∧
        (u.tile n).causes.getLsbD 3 = true) := by
  refine ⟨(s.applyTile n).setReg (.tileCommit n) 0, ?_, ?_, ?_, State.reg_setReg _ _ _, State.sameMem_applyTile s n, ?_, ?_⟩
  · rw [exec_commitWrite_of_reaches hr rfl, State.writeCommit_of_commit hv]; rfl
  · intro r hmem
    obtain ⟨hin, hc, ha⟩ := tileSet_addr hmem
    rw [State.reg_setReg_ne _ _ _ _ hc, ← State.reg_applyRange_in s hin]
    by_cases hd : (s.tile n).dir = []
    · rw [State.applyTile_of_empty_dir hst hd]
    · rw [State.applyTile_of_dir hst hd]
      exact State.reg_setReg_ne _ _ _ _ ha
  · by_cases hd : (s.tile n).dir = []
    · rw [State.applyTile_of_empty_dir hst hd]; exact State.stagedIn_applyRange _ _ _
    · rw [State.applyTile_of_dir hst hd]; exact State.stagedIn_applyRange _ _ _
  · intro hd
    rw [State.applyTile_of_empty_dir hst hd]; exact State.tiles_applyRange _ _ _
  · intro hd
    rw [State.applyTile_of_dir hst hd, State.tile_setReg]
    simp [State.markTile]

end Sys2Proof.Machine

open Sys2Proof Sys2Proof.Machine

/-- Settles O51: a write leaves its event, or reaches its register, whose access codes, commit or own rule then say what it does. -/
theorem registerWrites : Obligations.RegisterWrites := by
  intro who v e s
  refine ⟨?_, ?_, ?_, ?_, ?_, ?_, ?_, ?_, ?_, ?_⟩
  · -- the path is not served
    intro a hs
    rw [exec_registerWrite, State.access_of_not_served hs]
  · -- events, and a write with none
    intro a hs foreign busy
    have hbusy : busy = s.windowShut a := by
      unfold busy State.windowShut; cases windowAt a <;> rfl
    rw [hbusy]
    refine ⟨refusedWrite_event hs, fun hf hb he => ?_⟩
    rw [he, exec_registerWrite, State.access_of_clear hs hf hb]
    exact ⟨fun hr => by rw [hr]; rfl, fun r hr => by rw [hr]; rfl⟩
  · -- access codes
    intro r hbusy _
    have hoffice := State.office_writeCodes (s := s) (who := who) (v := v) hbusy
    refine ⟨?_, fun a ha => ?_, fun hst => ?_⟩
    · rw [State.reg_congr hoffice, State.reg_setReg]; rfl
    · rw [State.word_congr hoffice, State.word_setReg_ne _ _ _ ha]
    · exact State.writeCodes_of_no_st hst
  · -- staging
    intro r _ hst _ hbusy
    obtain ⟨now, hnow⟩ := State.staged_writeCodes (s := s) (who := who) (v := v) hst
    refine ⟨_, hnow, and_stagedWord _ _ _, fun hrw hw1c => ?_⟩
    rw [State.office_writeCodes hbusy, codedWord_of_readOnly hrw hw1c]
  · -- commits
    intro r hmem hr _
    have hc : s.writeReg who 0 r v = s.writeCommit r v := by
      simp only [List.mem_cons, List.not_mem_nil, or_false] at hmem
      obtain rfl | rfl | rfl | rfl | rfl | rfl := hmem <;> rfl
    rw [exec_commitWrite_of_reaches hr hc]
    exact ⟨fun hv => by rw [State.writeCommit_of_commit hv], fun hv => by rw [State.writeCommit_of_hold hv]⟩
  · -- the BELL, SEC and tile sets
    exact fun p hr hv => bellCommit_applies_or_refuses hr hv
  · intro hr rs
    refine ⟨fun hw => ?_, fun hw hv => ?_, fun hw hv hst => secCommit_applies_or_refuses hr hw hv hst⟩
    · rw [exec_secCommit hr, if_neg hw]
    · rw [exec_secCommit hr, if_pos hw, State.writeCommit_of_hold hv]
  · intro n _ hr lo x rs
    refine ⟨fun hv => ?_, fun hv hst => ?_, tileCommit_applies hr⟩
    · rw [exec_commitWrite_of_reaches hr rfl, State.writeCommit_of_hold hv]
    · have hset : s.applyCommit (.tileCommit n) = s := State.applyTile_of_nothing_staged hst
      rw [exec_commitWrite_of_reaches hr rfl, State.writeCommit_of_commit hv, hset]
  · -- registers with their own rules
    intro hr
    rw [exec_powerLimitWrite, State.access_of_reaches hr]
    exact ⟨fun hlo hhi => congrArg _ (if_pos ⟨hlo, hhi⟩), fun hout => congrArg _ (if_neg (by omega))⟩
  · intro n hn hr
    rw [exec_inject hn, State.access_of_reaches hr]
    refine ⟨fun hf hv => congrArg _ (if_pos ?_), fun h => congrArg _ (if_neg ?_)⟩
    · simp only [bit, hf, hv, Bool.and_self]
    · obtain hf | hv := h
      · simp only [hf, Bool.false_and, Bool.false_eq_true, not_false_eq_true]
      · simp only [bit, hv, Bool.and_false, Bool.false_eq_true, not_false_eq_true]

end

section
/-! SUPPORT. Entry 2 of each tile's tally grid (R90): the end of a bell, which sends a mark and takes waiting frames in, leaves it alone,
a recall that a mark or a frame begins included. -/

namespace Sys2Proof.Machine

/-! ### The word and the writes that miss it -/

/-- Entry 2 of tile t's tally grid in a store of the office space. -/
def gridEntry (m : Bank Word) (t : Nat) : Word := Bank.get resetWord m (Reg.tileTgrid t 2).addr

/-- Entry 2 of tile t's tally grid (TILE_TGRID, R90). -/
def State.gridWord (s : State) (t : Nat) : Word := s.reg (.tileTgrid t 2)

/-- No tile's entry 2 lies at the address of the register. -/
def Reg.OffGrid (r : Reg) : Prop := ∀ t, (Reg.tileTgrid t 2).addr ≠ r.addr

/-- The registers of a partition that marks, frames and recalls write. -/
@[simp] theorem Reg.offGrid_of_part (p : Bool) :
    OffGrid (.bellStat p) ∧ OffGrid (.bellPnumLo p) ∧ OffGrid (.bellPnumHi p) ∧ OffGrid (.checkMark p) ∧ OffGrid (.checkMarkpnum p) ∧
      OffGrid (.checkRecall p) ∧ OffGrid (.checkRpnum p) ∧ OffGrid (.checkBank p) ∧ OffGrid (.checkMirror p) ∧
      OffGrid (.checkStepLo p) ∧ OffGrid (.checkStepHi p) ∧ OffGrid (.checkCstepLo p) ∧ OffGrid (.checkCstepHi p) := by
  and_intros <;> intro t <;> simp only [Reg.addr] <;> omega

/-- The registers of a port and of a tile that they write. -/
@[simp] theorem Reg.offGrid_of_unit (n : Nat) :
    OffGrid (.linkStat n) ∧ OffGrid (.tileMemerr n) ∧ OffGrid (.tileMemaddr n) ∧ OffGrid (.tileAstat n) := by
  and_intros <;> intro t <;> simp only [Reg.addr] <;> omega

@[simp] theorem Reg.offGrid_of_window (t k : Nat) : OffGrid (.tileReged t k) ∧ OffGrid (.tileEdslotr t k) := by
  and_intros <;> intro u <;> simp only [Reg.addr] <;> omega

/-- The registers of the whole part that they write. -/
@[simp] theorem Reg.offGrid_of_whole :
    OffGrid .officeStashCe ∧ OffGrid .officeStashUe ∧ OffGrid .checkErrlog ∧ OffGrid .checkTrans := by
  and_intros <;> intro t <;> simp only [Reg.addr] <;> omega

theorem Reg.offGrid_tileToken (t : Nat) {k : Nat} (h : k < 4) : OffGrid (.tileToken t k) := by
  intro u; simp only [Reg.addr]; omega

theorem Reg.offGrid_tileRegcnt (t : Nat) {n : Nat} (h : n < 64) : OffGrid (.tileRegcnt t n) := by
  intro u; simp only [Reg.addr]; omega

section
variable {t : Nat}

@[simp] theorem gridEntry_office (s : State) : gridEntry s.office t = s.gridWord t := (rfl)

/-- A record's entry is that of its office space. -/
@[simp] theorem State.gridWord_mk {x0 : Fuses} {x1 : Pins} {x2 : Bank Word} {x3 : Bank (Option Word)}
    {x4 : Bank (BitVec 2)} {x5 : Bank (BitVec 33)} {x6 : Retained} {x7 : Bank Tile} {x8 : Bank Byte}
    {x9 : Bank (BitVec 2)} {x10 : List (Nat × Nat × Flit)} {x11 : Bank Nat} {x12 : Part} {x13 : Part}
    {x14 : Bank Port} {x15 : BitVec 20} {x16 : Option Nat} {x17 : Bank Channel} {x18 : Bank Bool}
    {x19 : List Outstanding} {x20 : Bank Nat} {x21 : Nat} {x22 : Bank (Option (Nat × BitVec 16))}
    {x23 : List (BitVec 16)} {x24 : List (BitVec 16 × Byte)} {x25 : BitVec 9} {x26 : Ring} {x27 : Firmware}
    {x28 : Option (BitVec 128)} {x29 : Option (Byte × Bytes)} {x30 : Bank Nat} {x31 : Option Nat} {x32 : Option Nat}
    {x33 : List Nat} {x34 : Nat} {x35 : List Nat} {x36 : List Nat} {x37 : List Nat} {x38 : BitVec 64} {x39 : Nat}
    {x40 : List Out} {x41 : List Instr} :
    (State.mk x0 x1 x2 x3 x4 x5 x6 x7 x8 x9 x10 x11 x12 x13 x14 x15 x16 x17 x18 x19 x20 x21 x22 x23 x24 x25 x26 x27
    x28 x29 x30 x31 x32 x33 x34 x35 x36 x37 x38 x39 x40 x41).gridWord t = gridEntry x2 t := (rfl)

@[simp] theorem State.gridWord_setReg (s : State) {r : Reg} (w : Word) (h : r.OffGrid) :
    (s.setReg r w).gridWord t = s.gridWord t := State.reg_setReg_ne _ _ _ _ (h t)

@[simp] theorem State.gridWord_setRegFld (s : State) {r : Reg} (hi lo v : Nat) (h : r.OffGrid) :
    (s.setRegFld r hi lo v).gridWord t = s.gridWord t := State.gridWord_setReg s _ h

@[simp] theorem State.gridWord_setRegBit (s : State) {r : Reg} (n : Nat) (b : Bool) (h : r.OffGrid) :
    (s.setRegBit r n b).gridWord t = s.gridWord t := State.gridWord_setReg s _ h

@[simp] theorem State.gridWord_setTile (s : State) (n : Nat) (x : Tile) : (s.setTile n x).gridWord t = s.gridWord t := (rfl)
@[simp] theorem State.gridWord_setPort (s : State) (l : Nat) (x : Port) : (s.setPort l x).gridWord t = s.gridWord t := (rfl)
@[simp] theorem State.gridWord_emit (s : State) (o : Out) : (s.emit o).gridWord t = s.gridWord t := (rfl)
@[simp] theorem State.gridWord_draw (s : State) : s.draw.gridWord t = s.gridWord t := (rfl)
@[simp] theorem State.gridWord_setPart (s : State) (p : Bool) (x : Part) : (s.setPart p x).gridWord t = s.gridWord t := by
  cases p <;> rfl

/-! ### Folds and branches -/

/-- A fold of changes that leave the entry alone leaves it alone; `g` is where the fold carries the state. -/
theorem gridWord_foldl {α β : Type} {g : β → State} {f : β → α → β} {as : List α} (b : β)
    (h : ∀ b, ∀ a ∈ as, (g (f b a)).gridWord t = (g b).gridWord t) : (g (as.foldl f b)).gridWord t = (g b).gridWord t := by
  induction as generalizing b with
  | nil => rfl
  | cons a as ih =>
    rw [List.foldl_cons, ih _ fun b x hx => h b x (List.mem_cons_of_mem a hx), h b a List.mem_cons_self]

@[simp] theorem gridWord_foldl_state {α : Type} {f : State → α → State} {as : List α} (s : State)
    (h : ∀ u a, (f u a).gridWord t = u.gridWord t) : (as.foldl f s).gridWord t = s.gridWord t :=
  gridWord_foldl (g := id) s fun u a _ => h u a

@[simp] theorem gridWord_foldl_fst {α β : Type} {f : State × β → α → State × β} {as : List α} (b : State × β)
    (h : ∀ b a, (f b a).1.gridWord t = b.1.gridWord t) : (as.foldl f b).1.gridWord t = b.1.gridWord t :=
  gridWord_foldl (g := Prod.fst) b fun b a _ => h b a

@[simp] theorem gridWord_foldl_snd {α β : Type} {f : β × State → α → β × State} {as : List α} (b : β × State)
    (h : ∀ b a, (f b a).2.gridWord t = b.2.gridWord t) : (as.foldl f b).2.gridWord t = b.2.gridWord t :=
  gridWord_foldl (g := Prod.snd) b fun b a _ => h b a

@[simp] theorem gridWord_ite (c : Prop) [Decidable c] (a b : State) :
    (if c then a else b).gridWord t = if c then a.gridWord t else b.gridWord t := apply_ite (State.gridWord · t) c a b

@[simp] theorem gridWord_ite_fst {β : Type} (c : Prop) [Decidable c] (a b : State × β) :
    (if c then a else b).1.gridWord t = if c then a.1.gridWord t else b.1.gridWord t := by split <;> rfl

@[simp] theorem gridWord_ite_snd {β : Type} (c : Prop) [Decidable c] (a b : β × State) :
    (if c then a else b).2.gridWord t = if c then a.2.gridWord t else b.2.gridWord t := by split <;> rfl

@[simp] theorem State.gridWord_mapTiles (s : State) (ts : List Nat) (f : Tile → Tile) : (s.mapTiles ts f).gridWord t = s.gridWord t := by
  simp [State.mapTiles]

/-! ### Records, marks and memory -/

section
variable (s : State) (p : Bool)

@[simp] theorem State.gridWord_setPnum (n : BitVec 48) : (s.setPnum p n).gridWord t = s.gridWord t := by simp [State.setPnum]
@[simp] theorem State.gridWord_setStep64 (n : BitVec 64) : (s.setStep64 p n).gridWord t = s.gridWord t := by
  simp [State.setStep64, State.setReg64]
@[simp] theorem State.gridWord_setCstep64 (n : BitVec 64) : (s.setCstep64 p n).gridWord t = s.gridWord t := by
  simp [State.setCstep64, State.setReg64]

/-- An error record writes CHECK_ERRLOG, a fault CHECK_TRANS too (R276, R278). -/
@[simp] theorem State.gridWord_logErr (e : ErrEv) : (s.logErr e).gridWord t = s.gridWord t := by simp [State.logErr]
@[simp] theorem State.gridWord_fenceRec (q : Option Bool) (kind : Nat) (unit : Bytes) (scope causes : Nat) :
    (s.fenceRec q kind unit scope causes).gridWord t = s.gridWord t := by simp [State.fenceRec]
@[simp] theorem State.gridWord_tileErr (c : Ctx) (code cls loc : Nat) (syn : Bytes) :
    (s.tileErr c code cls loc syn).gridWord t = s.gridWord t := by simp [State.tileErr]
@[simp] theorem State.gridWord_markTile (n cause : Nat) : (s.markTile n cause).gridWord t = s.gridWord t := by simp [State.markTile]
@[simp] theorem State.gridWord_markPart (cause : Nat) : (s.markPart p cause).gridWord t = s.gridWord t := by simp [State.markPart]

@[simp] theorem State.gridWord_rangeCheck (c : Ctx) (shelf : Bool) (accs : List (Nat × Nat)) :
    (s.rangeCheck c shelf accs).gridWord t = s.gridWord t := by
  unfold State.rangeCheck; split <;> simp [State.rangeFault]

/-- A marked word's outcome shows in TILE_MEMERR and TILE_MEMADDR (R125, R142). -/
@[simp] theorem State.gridWord_wordRead (c : Ctx) (shelf : Bool) (addr : Nat) (bad : Bool) :
    (s.wordRead c shelf addr bad).gridWord t = s.gridWord t := by simp [State.wordRead]
@[simp] theorem State.gridWord_coverWord (c : Ctx) (shelf : Bool) (w : Nat) (whole : Bool) :
    (s.coverWord c shelf w whole).gridWord t = s.gridWord t := by simp [State.coverWord, State.cleanWord]
@[simp] theorem State.gridWord_writeCore (c : Ctx) (shelf : Bool) (addr : Nat) (b : Bytes) :
    (s.writeCore c shelf addr b).gridWord t = s.gridWord t := by simp [State.writeCore, State.coverWords, State.putMem]
@[simp] theorem State.gridWord_poison (n : Nat) (shelf : Bool) (addr k : Nat) : (s.poison n shelf addr k).gridWord t = s.gridWord t := by
  simp [State.poison]
@[simp] theorem State.gridWord_editionFault (c : Ctx) (region slot : Nat) : (s.editionFault c region slot).gridWord t = s.gridWord t := by
  simp [State.editionFault]
@[simp] theorem State.gridWord_closedFault (c : Ctx) (addr n : Nat) : (s.closedFault c addr n).gridWord t = s.gridWord t := by
  simp [State.closedFault]
@[simp] theorem State.gridWord_writeLocal (c : Ctx) (shelf : Bool) (addr : Nat) (b : Bytes) :
    (s.writeLocal c shelf addr b).gridWord t = s.gridWord t := by simp [State.writeLocal, State.writeShelf, State.writeMem]

/-- A stash controller's outcome shows in OFFICE_STASHCE and OFFICE_STASHUE (R128, R143). -/
@[simp] theorem State.gridWord_stashLine (line : Nat) (q : Option Bool) : (s.stashLine line q).2.gridWord t = s.gridWord t := by
  simp [State.stashLine, State.stashRec]
@[simp] theorem State.gridWord_walk (as : List Nat) : (s.walk p as).gridWord t = s.gridWord t := by simp [State.walk]
@[simp] theorem State.gridWord_readStash (phys lines : Nat) (q : Option Bool) :
    (s.readStash phys lines q).2.2.gridWord t = s.gridWord t := by simp [State.readStash]
@[simp] theorem State.gridWord_writeStash (phys : Nat) (b : Bytes) : (s.writeStash phys b).gridWord t = s.gridWord t := (rfl)

@[simp] theorem State.gridWord_putStash (a : Nat) (b : Bytes) : (s.putStash p a b).gridWord t = s.gridWord t := by
  refine (gridWord_foldl_state _ fun u i => ?_).trans (State.gridWord_walk s p _)
  split <;> simp

@[simp] theorem State.gridWord_copyPages (src dst n : Nat) : (s.copyPages p src dst n).2.gridWord t = s.gridWord t := by
  refine gridWord_foldl_snd _ fun u i => ?_
  split <;> simp

@[simp] theorem State.gridWord_healBank (n : BitVec 64) : (s.healBank p n).gridWord t = s.gridWord t := by
  unfold State.healBank
  split
  · refine gridWord_foldl_state _ fun u i => ?_
    split <;> simp
  · rfl

/-! ### What leaves on a port -/

@[simp] theorem State.gridWord_putBlock (l : Nat) (b : Block) : (s.putBlock l b).gridWord t = s.gridWord t := by
  simp [State.putBlock, State.sendMarker]
@[simp] theorem State.gridWord_flushSlot (l : Nat) (slot : Bool) : (s.flushSlot l slot).gridWord t = s.gridWord t := by
  simp [State.flushSlot]
@[simp] theorem State.gridWord_sendFrame (port : Nat) (f : Frame) : (s.sendFrame port f).gridWord t = s.gridWord t := by
  simp [State.sendFrame, State.sendOn, State.flushPort]
@[simp] theorem State.gridWord_linkCredit (port q : Nat) : (s.linkCredit p port q).gridWord t = s.gridWord t := by
  simp [State.linkCredit]
@[simp] theorem State.gridWord_sendMark (m : Mark) (ports : List Nat) : (s.sendMark p m ports).gridWord t = s.gridWord t := by
  simp [State.sendMark]

/-! ### The queues of a tile -/

/-- A completed request raises a token counter (R134). -/
@[simp] theorem State.gridWord_raiseToken (n : Nat) (k : Option (BitVec 2)) : (s.raiseToken n k).gridWord t = s.gridWord t := by
  cases k with
  | none => rfl
  | some k => exact State.gridWord_setReg s _ (Reg.offGrid_tileToken n k.isLt)

@[simp] theorem State.gridWord_fenceQueue (n addr : Nat) : (s.fenceQueue n addr).gridWord t = s.gridWord t := by
  simp [State.fenceQueue]
@[simp] theorem State.gridWord_landLine (n : Nat) (shelf : Bool) (laddr phys : Nat) :
    (s.landLine n shelf laddr phys).1.gridWord t = s.gridWord t := by simp [State.landLine]
@[simp] theorem State.gridWord_moveLines (n : Nat) (q : StashReq) (phys : List Nat) :
    (s.moveLines n q phys).1.gridWord t = s.gridWord t := by simp [State.moveLines]
@[simp] theorem State.gridWord_agetZero (c : Ctx) (a : StashArgs) (loc : Nat) (syn : Bytes) :
    (s.agetZero c a loc syn).gridWord t = s.gridWord t := by simp [State.agetZero]

@[simp] theorem gridWord_agetSpilled (c : Ctx) (a : StashArgs) : (agetSpilled c p a s).gridWord t = s.gridWord t := by
  unfold agetSpilled
  extract_lets n e rel phys
  split
  · rfl
  split
  · simp
  split
  · rfl
  simp

@[simp] theorem State.gridWord_finishReq (n : Nat) (q : StashReq) : (s.finishReq n q).1.gridWord t = s.gridWord t := by
  unfold State.finishReq
  dsimp only
  rw [State.gridWord_raiseToken]
  split
  · rfl
  split
  · rfl
  split
  · simp
  split <;> simp

@[simp] theorem State.gridWord_finishAll (n : Nat) : (s.finishAll n).gridWord t = s.gridWord t := by simp [State.finishAll]

/-! ### Recall -/

/-- A step's reset clears the token counters and TILE_ASTAT (R134, R139). -/
@[simp] theorem State.gridWord_stepReset (ts : List Nat) : (s.stepReset ts).gridWord t = s.gridWord t := by
  refine gridWord_foldl_state _ fun u n => ?_
  have htokens : ((List.range 4).foldl (fun (a : State) k => a.setReg (.tileToken n k) 0) u).gridWord t = u.gridWord t :=
    gridWord_foldl (g := id) u fun a k hk => State.gridWord_setReg a _ (Reg.offGrid_tileToken n (List.mem_range.1 hk))
  simpa using htokens

/-- Editions, counts and slots go back at a recall (R228). -/
@[simp] theorem State.gridWord_revertEditions : (s.revertEditions p).gridWord t = s.gridWord t := by
  refine gridWord_foldl_state _ fun u n => ?_
  refine (gridWord_foldl_state _ (by simp)).trans (gridWord_foldl (g := id) u fun a k hk => ?_)
  simp [Reg.offGrid_tileRegcnt n (List.mem_range.1 hk)]

@[simp] theorem State.gridWord_emptyStreams : (s.emptyStreams p).gridWord t = s.gridWord t := by simp [State.emptyStreams]
@[simp] theorem State.gridWord_quiesce : (s.quiesce p).gridWord t = s.gridWord t := by simp [State.quiesce]
@[simp] theorem State.gridWord_clearCauses : (s.clearCauses p).gridWord t = s.gridWord t := by simp [State.clearCauses]
@[simp] theorem State.gridWord_dropWaiting (n : Nat) : (s.dropWaiting p n).gridWord t = s.gridWord t := by simp [State.dropWaiting]
@[simp] theorem State.gridWord_holdNote (c : BitVec 32) (per : BitVec 48) (halt : Bool) :
    (s.holdNote p c per halt).gridWord t = s.gridWord t := by simp [State.holdNote]

section
variable (l : Lesson) (m : Mark)

@[simp] theorem State.gridWord_climb (n : Nat) : (s.climb p l m n).gridWord t = s.gridWord t := by
  unfold State.climb
  dsimp only
  split
  · rfl
  split <;> simp

@[simp] theorem State.gridWord_addMark : (s.addMark p l m).gridWord t = s.gridWord t := by simp [State.addMark]
@[simp] theorem State.gridWord_ownMark : (s.ownMark p l m).gridWord t = s.gridWord t := by simp [State.ownMark]
@[simp] theorem State.gridWord_takeMark (port : Nat) : (s.takeMark p l port m).gridWord t = s.gridWord t := by
  simp [State.takeMark, State.passMark]

@[simp] theorem State.gridWord_restoreTo (n : BitVec 64) : (s.restoreTo p n).gridWord t = s.gridWord t := by
  simp [State.restoreTo, State.revertCommit]
@[simp] theorem State.gridWord_beginRebuild (r : Recall) (n : BitVec 64) (failed : Bool) :
    (s.beginRebuild p l r n failed).gridWord t = s.gridWord t := by
  simp [State.beginRebuild, State.openRebuild, State.dropCounts, State.freshTiles]
@[simp] theorem State.gridWord_restoreStreams : (s.restoreStreams p l).gridWord t = s.gridWord t := by simp [State.restoreStreams]

@[simp] theorem State.gridWord_agreed : (s.agreed p l m).gridWord t = s.gridWord t := by
  unfold State.agreed
  split
  · rfl
  · simp

@[simp] theorem State.gridWord_tryAgree : (s.tryAgree p l m).gridWord t = s.gridWord t := by
  unfold State.tryAgree
  split
  · simp
  · rfl

@[simp] theorem State.gridWord_newAttempt (c : BitVec 32) (per : BitVec 48) (halt failed : Bool) :
    (s.newAttempt p l c per halt failed).gridWord t = s.gridWord t := by simp [State.newAttempt]

end

@[simp] theorem State.gridWord_recall (c : BitVec 32) (per : BitVec 48) (halt : Bool) :
    (s.recall p c per halt).gridWord t = s.gridWord t := by
  unfold State.recall
  split
  · rfl
  split
  · simp
  split <;> simp

@[simp] theorem State.gridWord_fencePort (l : Nat) : (s.fencePort l).gridWord t = s.gridWord t := by
  simp [State.fencePort, State.recallNow]

/-! ### The mark of a period that ends -/

section
variable (l : Lesson) (m : Mark)

@[simp] theorem State.gridWord_countPending (n : Nat) : (s.countPending p n).gridWord t = s.gridWord t := by simp [State.countPending]

@[simp] theorem State.gridWord_giveMark : (s.giveMark p l m).gridWord t = s.gridWord t := by
  unfold State.giveMark State.settle4
  dsimp only
  split <;> simp

@[simp] theorem State.gridWord_twinTry (per : BitVec 48) : (s.twinTry p l per).gridWord t = s.gridWord t := by
  unfold State.twinTry
  dsimp only
  split <;> simp

@[simp] theorem State.gridWord_sendEndMark : (s.sendEndMark p l m).gridWord t = s.gridWord t := by simp [State.sendEndMark]

end

/-! ### Frames that waited for the period -/

@[simp] theorem State.gridWord_frameFault (f : Frame) : (s.frameFault p f).gridWord t = s.gridWord t := by
  simp [State.frameFault, State.frameErr]
@[simp] theorem State.gridWord_mirrorFrame (b : Bytes) : (s.mirrorFrame p b).gridWord t = s.gridWord t := by simp [State.mirrorFrame]

@[simp] theorem State.gridWord_restoreFrame (l : Lesson) (port : Nat) (b : Bytes) :
    (s.restoreFrame p l port b).gridWord t = s.gridWord t := by
  unfold State.restoreFrame
  dsimp only
  split
  · split <;> simp
  · simp

theorem State.gridWord_deliver {s u : State} {l : Lesson} {i port : Nat} {q : QueueBind} {f : Frame}
    (h : s.deliver l i port q f = some u) : u.gridWord t = s.gridWord t := by
  unfold State.deliver at h
  dsimp only at h
  split at h
  · cases h; rfl
  split at h
  · cases h
  · cases h; simp

theorem State.gridWord_screen {s u : State} {p : Bool} {port : Nat} {f : Frame} (h : s.screen p port f = .drop u) :
    u.gridWord t = s.gridWord t := by
  unfold State.screen at h
  dsimp only at h
  split at h
  · cases h; simp [State.frameErr]
  split at h
  · cases h; simp
  split at h <;> cases h

@[simp] theorem State.gridWord_dataFrame (l : Lesson) (port : Nat) (f : Frame) :
    (s.dataFrame p l port f).1.gridWord t = s.gridWord t := by
  unfold State.dataFrame
  split
  case h_1 hdrop => exact State.gridWord_screen hdrop
  case h_2 => rfl
  case h_3 =>
    extract_lets x d y
    split
    · simp
    split
    · split
      · rfl
      split
      · simp
      split
      · split
        · rfl
        · simp
      split
      · rfl
      next hd => simp [State.gridWord_deliver hd]
    · simp

@[simp] theorem State.gridWord_drainPort (port : Nat) : (s.drainPort port).gridWord t = s.gridWord t := by
  unfold State.drainPort
  split
  · rfl
  split
  · rfl
  simp

@[simp] theorem State.gridWord_drainPorts : (s.drainPorts p).gridWord t = s.gridWord t := by simp [State.drainPorts]

end
end

end Sys2Proof.Machine
end

section
/-! SUPPORT. A bell that rings, and O32: the first bell of a step with a wave that names a region beyond a tile's 64. -/

namespace Sys2Proof.Machine

/-- With nothing that holds it, the bell rings and the frames that waited for the period are taken in (R152, R154, R156). -/
theorem exec_bell_of_rings {s : State} {p : Bool} {l : Lesson} {lastTile doneCyc energy power : Nat} (hl : s.lesson p = some l)
    (hrun : s.running p = true) (hreb : s.rebuilding p = false) (hc : s.holdCause p l = none)
    (hq : s.regBit (.bellStat p) 30 = false ∨ (s.part p).holdQ ≠ 0) :
    exec (.bell p lastTile doneCyc energy power) s = .next ((s.ringBell p l lastTile doneCyc energy power).drainPorts p) := by
  have hgo : (s.regBit (.bellStat p) 30 && decide ((s.part p).holdQ = 0)) = false := by
    obtain h | h := hq <;> simp [h]
  change execBell p lastTile doneCyc energy power s = _
  simp [execBell, hl, hrun, hreb, hc, hgo]

/-- A lesson of one period on the smallest grid: every bell is the first of a step. -/
def onePeriod : Lesson := { (default : Lesson) with cols := 2, parts := 1, periods := 1, plan := [(0, 0)] }

/-- A wave that still has to open region 232 of tile 24. A tile has regions 0 to 63; in the office space the count of a region 232 would
lie 16 · 232 bytes on, and TILE_REGCNT of tile 24 reaches entry 2 of the tally grid of tile 25 there (R421). -/
def strayWave : Wave := { s := 0, turned := true, left := [(0, 24, 232, 0)], opened := [] }

/-- Partition 0 has field 0 and its bells run; its lesson has one period, and the stray wave is under way. -/
def straying : State :=
  ((({} : State).setReg .secPartmap 1).setReg (.bellStat false) 0x80000000).setPart false
    { lesson := some onePeriod, wave := some strayWave }

theorem straying_not_held : straying.holdCause false onePeriod = none := by
  have hstall : (straying.liveTiles false).find? (fun t => (straying.tile t).stalled) = none :=
    List.find?_eq_none.2 fun _ _ => Bool.false_ne_true
  unfold State.holdCause
  rw [hstall]
  decide +kernel

theorem straying_bell : exec (.bell false 0xFFFF 0 0 0) straying =
    .next ((straying.ringBell false onePeriod 0xFFFF 0 0 0).drainPorts false) :=
  exec_bell_of_rings rfl (by decide +kernel) rfl straying_not_held (.inl (by decide +kernel))

/-- The bell leaves entry 2 of tile 25 with the OPEN bit of a region count, where the lesson has no tally tensor. -/
theorem straying_gridWord : ((straying.ringBell false onePeriod 0xFFFF 0 0 0).drainPorts false).gridWord 25 = 0x80000000 := by
  decide +kernel

theorem straying_lessonTiles : 25 ∈ straying.lessonTiles false := by decide +kernel

end Sys2Proof.Machine

open Sys2Proof Sys2Proof.Machine

/-- Refutes O32: at the first bell of a step the load engine's wave opens its regions after the tally grid is written (R156, R336), and
the statement takes any wave. One whose list names a region that no tile has opens a word of the next tile's tally grid, which then
does not read 0 without a tally tensor; the mark and the waiting frames that follow leave that word alone. EDITION_SWITCH lists no such
region (`State.waveRegions`): the statement lacks that premise. -/
theorem not_commitTurnsBank : ¬ Obligations.CommitTurnsBank := by
  rintro ⟨-, hbells⟩
  obtain ⟨-, hfirst, -⟩ := hbells straying false onePeriod 0xFFFF 0 0 0 rfl (by decide +kernel) rfl straying_not_held
    (.inl (by decide +kernel)) rfl
  obtain ⟨v, m, hexec, -, -, -, -, -, -, -, -, htiles⟩ := hfirst rfl rfl rfl rfl rfl
  obtain ⟨-, -, -, -, hgrid⟩ := htiles 25 straying_lessonTiles
  have hzero : v.gridWord 25 = 0 := (hgrid 2 (by decide)).2 rfl
  rw [straying_bell, Host.Outcome.next.injEq] at hexec
  have hopen : v.gridWord 25 = 0x80000000 := by
    rw [← straying_gridWord, hexec, State.gridWord_drainPorts, State.gridWord_sendEndMark]
  exact absurd (hzero.symm.trans hopen) (by decide)

end
